-- ==== Sys2Proof/Word.lean ====
section
/-! DEFINITION. The word types of the engine's numeric formats (R28) and their plainest readings. -/

namespace Sys2Proof

/-- One byte of an addressed RAM or of a frame. -/
abbrev Byte := BitVec 8

/-- A BAR0 register and every other 32-bit word of the host's (R6). -/
abbrev Word := BitVec 32

/-- Audio samples and linear gains, Q8.39 (R28). -/
abbrev A48 := BitVec 48

/-- Filter coefficients, Q3.44 (R28). -/
abbrev C48 := BitVec 48

/-- Levels in decibels, 24 fraction bits (R28). -/
abbrev D32 := BitVec 32

/-- Spine partials, Q24.39 (R28). -/
abbrev X64 := BitVec 64

/-- The 112 bits of an accumulator (R29). -/
abbrev Acc112 := BitVec 112

/-- The D32 code of minus infinity (R30). -/
def d32NegInf : D32 := 0x80000000#32

/-- The smallest finite D32 code (R30). -/
def d32Min : D32 := 0x80000001#32

/-- The A48 code of 1.0 (R28). -/
def a48One : A48 := 0x008000000000#48

/-- The C48 code of 1.0 (R28). -/
def c48One : C48 := 0x100000000000#48

/-- Bits hi down to lo of a word given as a number. -/
def bitsOf (x lo width : Nat) : Nat := (x / 2 ^ lo) % 2 ^ width

/-- Whether bit n of a number is 1. -/
def bitAt (x n : Nat) : Bool := x.testBit n

/-- A Bool as the bit a register field holds. -/
def b2n (b : Bool) : Nat := if b then 1 else 0

end Sys2Proof
end

