-- ==== Sys2Proof/Machine/Tbl.lean ====
section
/-! DEFINITION. Sparse tables: a list of key and value pairs in one canonical form (keys rising, no
entry equal to what an unlisted key reads as). Every indexed piece of the state is held in one. -/

namespace Sys2Proof.Machine

/-- A sparse table from numbers to values. -/
abbrev Tbl (α : Type) := List (Nat × α)

/-- The value at key k; d is what an unlisted key reads as. -/
def Tbl.get {α : Type} (d : α) (k : Nat) : Tbl α → α
  | [] => d
  | (j, v) :: t => if j = k then v else Tbl.get d k t

/-- Whether key k is listed. -/
def Tbl.has {α : Type} (k : Nat) : Tbl α → Bool
  | [] => false
  | (j, _) :: t => if j = k then true else Tbl.has k t

/-- The table with key k not listed. -/
def Tbl.erase {α : Type} (k : Nat) : Tbl α → Tbl α
  | [] => []
  | (j, v) :: t => if j = k then Tbl.erase k t else (j, v) :: Tbl.erase k t

/-- The table with key k listed with value v, whatever v is. -/
def Tbl.insert {α : Type} (k : Nat) (v : α) : Tbl α → Tbl α
  | [] => [(k, v)]
  | (j, w) :: t =>
    if j = k then (k, v) :: t else if k < j then (k, v) :: (j, w) :: t else (j, w) :: Tbl.insert k v t

/-- Writes v at key k; writing what an unlisted key reads as removes the entry. -/
def Tbl.put {α : Type} [DecidableEq α] (d : α) (k : Nat) (v : α) (t : Tbl α) : Tbl α :=
  if v = d then Tbl.erase k t else Tbl.insert k v t

/-- Whether the keys rise strictly from above a bound and no entry is the default. -/
def Tbl.wfFrom {α : Type} [DecidableEq α] (d : α) : Option Nat → Tbl α → Bool
  | _, [] => true
  | lo, (j, v) :: t =>
    (match lo with | none => true | some b => decide (b < j)) && decide (v ≠ d) && Tbl.wfFrom d (some j) t

/-- The canonical form: keys strictly rising, no entry equal to the default. -/
def Tbl.wf {α : Type} [DecidableEq α] (d : α) (t : Tbl α) : Bool := Tbl.wfFrom d none t

/-- The table without the keys that a test names. -/
def Tbl.drop {α : Type} (p : Nat → Bool) (t : Tbl α) : Tbl α := t.filter (fun e => !p e.1)

end Sys2Proof.Machine
end

