-- ==== Sys2Proof/Machine/TypesVault.lean ====
section
/-! DEFINITION. The scene vault's state (chapter 08) and the host interface's (chapter 09). -/

namespace Sys2Proof.Machine

/-- The values of a transition profile as a baton carries them (R165). -/
structure Prof where
  gain : Nat
  filt : Nat
  route : Nat
  power : Bool
  deriving DecidableEq, Repr

/-- A profile whose every length is 0: a cut. -/
def Prof.cut : Prof := ⟨0, 0, 0, false⟩

/-- An armed commit (R159, R160, R168): the mask, the entry lap, the profile's number and values, the
issuing engine, the issuing ring on that engine and whether this engine issued it. -/
structure Arm where
  slot : Nat
  mask : BitVec 64
  lap : Nat
  profile : Nat
  prof : Prof
  issuer : Nat
  strict : Bool
  late : Bool
  /-- the ring and the descriptor of the COMMIT when this engine issued it -/
  own : Option (Nat × Nat)
  /-- the baton was distributed in lap t - 1 (R168) -/
  dist : Bool
  /-- the first entry lap this engine can reach, later than `lap` after a late baton (R169) -/
  reach : Nat
  /-- its generation, once its entry lap in the ring has come (R158, R168) -/
  num : Option Nat
  deriving DecidableEq, Repr

/-- A commit that has applied and whose groups have not opened yet (R151, R164). -/
structure Switching where
  mask : BitVec 64
  lap : Nat
  gen : Nat
  prof : Prof
  /-- positions whose elements have exchanged (R162) -/
  exchanged : List Nat
  deriving DecidableEq, Repr

/-- The commit that last changed the live value of a parameter: its generation and profile. -/
structure Chg where
  gen : Nat
  prof : Prof
  deriving DecidableEq, Repr

/-- The last page swap of an object: the lap of the boundary and the commit's profile (R117). -/
structure Swap where
  lap : Nat
  prof : Prof
  deriving DecidableEq, Repr

/-- Why an object's pages cannot be used (R172): a reload from the store runs, or the store itself lost
words; then the numbers written since and whether a commit has applied after all of them. -/
inductive PageLoss where
  | reloading
  | store (written : List Nat)
  deriving DecidableEq, Repr

/-- What a SNAP_CFG sets (R193). -/
structure SnapSet where
  period : Nat
  phase : Nat
  flags : Nat
  ring : Nat
  /-- the first entry lap the setting may govern -/
  start : Nat
  deriving DecidableEq, Repr

/-- A snapshot stream (R173, R193): the setting that governs it and those that are still to govern, oldest first. -/
structure SnapCfg where
  cur : SnapSet
  next : List SnapSet
  seq : Nat
  /-- the next snapshot goes into the second copy of the stream's block (R183) -/
  second : Bool
  deriving DecidableEq, Repr

/-- A stream nothing has configured. -/
def SnapCfg.off : SnapCfg := ⟨⟨0, 0, 0, 0, 0⟩, [], 0, false⟩

/-- A snapshot being gathered: its entry lap, its generation, the setting's ring, its header word 8 with whether the lap
that transports its samples has been judged, and the words of the sections gathered so far, by section number (R173,
R174). -/
structure Snap where
  stream : Nat
  lap : Nat
  gen : Nat
  flags : Nat
  ring : Nat
  word8 : Nat
  judged : Bool
  time : Nat
  sections : Tbl (List Word)
  deriving DecidableEq, Repr

/-- A ramp of objects that no tile runs (R67): the groups, the objects where not all of them, its entry lap, its length in
samples, and whether it begins at each object's position, after a late baton (R169). -/
structure PointRamp where
  mask : BitVec 64
  only : Option (List Nat)
  lap : Nat
  len : Nat
  late : Bool
  deriving DecidableEq, Repr

/-- A COMMIT this engine forwarded to the ring master (R168), with the lap it was taken in. -/
structure Forward where
  ring : Nat
  desc : Nat
  lap : Nat
  deriving DecidableEq, Repr

/-- A commit request as it travels to the master (R155, R168). -/
structure CommitReq where
  op : Nat
  mask : BitVec 64
  base : Nat
  mode : Nat
  target : Nat
  strict : Bool
  profile : Nat
  prof : Prof
  issuer : Nat
  /-- the lap in which the issuing engine took the COMMIT -/
  taken : Nat
  own : Option (Nat × Nat)
  deriving DecidableEq, Repr

/-- The vault (chapter 08). Pages are keyed by PID, objects by the object's part of a PID. -/
structure VaultSt where
  page0 : Tbl A48
  page1 : Tbl A48
  /-- which page the store presents as live, by object -/
  storeBit : Tbl Bool
  /-- the page bit of an element: an object's in its bank or multiplexer (R147), and one each for its parameters
  that act in another column (R162) -/
  bankBit : Tbl Bool
  group : Tbl Nat
  gen : Nat
  gGen : Tbl Nat
  arms : List Arm
  switching : List Switching
  chg : Tbl Chg
  swap : Tbl Swap
  /-- objects whose loft refresh runs (R164), to 1 + the lap of their exchange -/
  refresh : Tbl Nat
  loss : Tbl (Option PageLoss)
  unsynced : BitVec 64
  /-- groups muted for entry laps from the first up to before the second (R169) -/
  lateMute : List (BitVec 64 × Nat × Nat)
  /-- ramps of objects that no tile runs (R67) -/
  rampIn : List PointRamp
  /-- slots and objects that wait for a reload (R171) -/
  slotReload : Tbl Bool
  objReload : Tbl Bool
  /-- slots whose reload runs (R171) -/
  reloading : Tbl Bool
  snap : Tbl SnapCfg
  snaps : List Snap
  forwards : List Forward
  /-- requests forwarded by other engines, to be checked at the head of the lap (R168) -/
  requests : List CommitReq
  /-- the ring that the round robin of R154 looks at first -/
  robin : Nat
  /-- the items of PARAM_WRITEs that a reset of the host interface left without a descriptor (R203) -/
  orphans : List (List (Word × Word × BitVec 64))
  deriving DecidableEq, Repr

/-- The vault as POR_N leaves it. -/
def VaultSt.reset : VaultSt where
  page0 := []
  page1 := []
  storeBit := []
  bankBit := []
  group := []
  gen := 0
  gGen := []
  arms := []
  switching := []
  chg := []
  swap := []
  refresh := []
  loss := []
  unsynced := 0
  lateMute := []
  rampIn := []
  slotReload := []
  objReload := []
  reloading := []
  snap := []
  snaps := []
  forwards := []
  requests := []
  robin := 0
  orphans := []

/-- Where a descriptor that the engine has taken stands. -/
inductive DescStage where
  /-- taken, not yet served -/
  | taken
  /-- a vault descriptor that waits under R151 -/
  | waiting
  /-- in progress: data moves, or an accepted COMMIT is armed -/
  | active
  /-- an engine to host buffer that waits to be filled -/
  | posted
  /-- complete, its write-back waits for earlier ones of the ring (R188) -/
  | done
  deriving DecidableEq, Repr

/-- A taken descriptor: its entries' first index, the eight words of each segment, where it stands, and
what its completion writes. -/
structure Desc where
  id : Nat
  index : Nat
  segs : List (List Word)
  stage : DescStage
  code : Nat
  xfer : Nat
  detail : Nat
  /-- type-specific write-back words, by word number (R188) -/
  wb : List (Nat × Word)
  /-- frames or bytes already moved -/
  moved : Nat
  /-- media sample count of frame 0 of an audio descriptor -/
  count0 : Nat
  /-- the request of a service call (R367) -/
  data : List Byte
  /-- the items of a PARAM_WRITE that waits: the vault has read them all (R151, R203) -/
  items : List (Word × Word × BitVec 64)
  deriving DecidableEq, Repr

/-- A ring's state beyond its registers: the descriptors taken and not completed, oldest first; the next
descriptor's number; moderation (R202); playback and record progress (R197, R198). -/
structure Ring where
  descs : List Desc
  next : Nat
  /-- completions not yet signalled, and the lap of the first of them -/
  unsig : Nat
  since : Option Nat
  /-- an unbroken span of being enabled, counted (R201) -/
  epoch : Nat
  /-- playback: the count after the last frame given, the first frame's capture lap, the samples fetched
  (key count × 256 + channel), and the counts fetched, as runs (first, frames) -/
  follow : Option Nat
  firstLap : Option Nat
  samples : Tbl A48
  fetched : List (Nat × Nat)
  /-- record: the lap at whose boundary it starts, 1 + that lap (0: not started) -/
  recFrom : Nat
  /-- vault ring held by an accepted COMMIT (R154) -/
  hold : Bool
  deriving DecidableEq, Repr

/-- A ring that is disabled. -/
def Ring.reset : Ring := ⟨[], 0, 0, none, 0, none, none, [], [], 0, false⟩

/-- An MSI-X table entry (R180). -/
structure MsixEntry where
  addrLo : Word
  addrHi : Word
  data : Word
  ctl : Word
  deriving DecidableEq, Repr

/-- An MSI-X entry at reset: masked, as the PCI Express Base Specification has it. -/
def MsixEntry.reset : MsixEntry := ⟨0, 0, 0, 1⟩

/-- The host interface (chapter 09). -/
structure HostSt where
  rings : Tbl Ring
  /-- last doorbell index written, by ring (R181) -/
  doorbell : Tbl Nat
  msix : Tbl MsixEntry
  pba : Tbl Bool
  /-- MSI-X Enable and Function Mask of the MSI-X capability -/
  msixEn : Bool
  msixMask : Bool
  /-- event records lost since the last one written (R195) -/
  lost : Nat
  /-- bytes of the snapshot area (R183) -/
  snapArea : Tbl Byte
  /-- a Function Level Reset runs (R203) -/
  flr : Bool
  /-- record samples of the running transport lap, by channel (R198) -/
  recNow : Tbl (List A48)
  /-- record samples of the play-out lap that runs, transported in the lap before (R198) -/
  recOut : Tbl (List A48)
  /-- the vendor, subsystem vendor and subsystem IDs, once configuration requests are answered with them
  (R406) -/
  ids : Option (Nat × Nat × Nat)
  /-- the lap in which an event bit was last set, by event code (R194, R195) -/
  evLap : Tbl Nat
  /-- the BAR registers of configuration space, 0 to 5 (R180) -/
  bar : Tbl Word
  deriving DecidableEq, Repr

/-- The host interface as POR_N leaves it. -/
def HostSt.reset : HostSt := ⟨[], [], [], [], false, false, 0, [], false, [], [], none, [], []⟩

end Sys2Proof.Machine
end

