-- ==== Sys2Proof/Machine/TypesCasc.lean ====
section
/-! DEFINITION. Cascade frames and the state of the cascade ring (chapter 17). -/

namespace Sys2Proof.Machine

/-- What a baton tells: a commit is armed, an armed commit is withdrawn, or lofts are reset (R160, R168). -/
inductive BatonOp where
  | arm | withdraw | discard
  deriving DecidableEq, Repr

/-- A baton slot of a frame (R341). -/
structure Baton where
  op : BatonOp
  mask : BitVec 64
  lap : Nat
  profile : Nat
  prof : Prof
  issuer : Nat
  strict : Bool
  late : Bool
  deriving DecidableEq, Repr

/-- A ring command (R346). -/
inductive RingCmd where
  | acceptEpoch (j r : Int)
  | rate (fam mult : Nat)
  | measure
  deriving DecidableEq, Repr

/-- A ring command with its action lap (R346). -/
structure RingAct where
  cmd : RingCmd
  lap : Nat
  deriving DecidableEq, Repr

/-- A forwarded COMMIT that the master refused: the ring and descriptor on its issuing engine, the
completion code and its op (R168). -/
structure Refused where
  issuer : Nat
  own : Option (Nat × Nat)
  code : Nat
  op : Nat
  deriving DecidableEq, Repr

/-- What the master adds to the control message: K, the start lap, one piece of the ring's generations
(R170) and a ring command (R346). -/
structure MasterMsg where
  pos : Nat
  anchor : Int
  startLap : Nat
  gen : Nat
  piece : Nat
  gens : List Nat
  cmd : List RingAct
  deriving DecidableEq, Repr

/-- A control message (R346). -/
structure CtrlMsg where
  forwards : List CommitReq
  refused : List Refused
  layout : Nat
  chown : Nat
  master : Option MasterMsg
  deriving DecidableEq, Repr

/-- The engine partial of one bus of one origin: one lap of X64 values (R341). -/
structure PartItem where
  origin : Nat
  bus : Nat
  vals : List X64
  deriving DecidableEq, Repr

/-- One ring channel's lap of samples (R341). -/
structure ChanItem where
  chan : Nat
  vals : List A48
  deriving DecidableEq, Repr

/-- A lap frame (R341): the marker's position, lap index and local time, then the items. -/
structure CascFrame where
  pos : Nat
  lap : Nat
  time : Nat
  ctrl : CtrlMsg
  batons : List Baton
  parts : List PartItem
  chans : List ChanItem
  deriving DecidableEq, Repr

/-- What a port has received in a lap and passes on out of the opposite port (R343, R346). -/
structure Relay where
  parts : List PartItem
  chans : List ChanItem
  batons : List Baton
  master : Option MasterMsg
  deriving DecidableEq, Repr

/-- Nothing to pass on. -/
def Relay.none : Relay := ⟨[], [], [], .none⟩

/-- A cascade port beyond its registers (R335 to R344): the failed lanes, each lane's run of laps with a failed CRC,
whether the link has trained, has been
measured and is being measured (R340), 1 + the lap whose frame is absent because a lane lost lock or it was late
(R336, R342), 1 + the lap of the last frame received, what was received in the running lap, what is passed on in it, and what the neighbour's last message said of
its channel table and layout. -/
structure CascPort where
  failed : Tbl Bool
  crcRun : Tbl Nat
  trained : Bool
  measured : Bool
  measuring : Bool
  dropLap : Nat
  gotLap : Nat
  got : Relay
  relay : Relay
  chownBad : Bool
  /-- the neighbour's live layout differs (R88) -/
  layoutBad : Bool
  deriving DecidableEq, Repr

/-- A cascade port as POR_N leaves it. -/
def CascPort.reset : CascPort := ⟨[], [], false, false, false, 0, 0, Relay.none, Relay.none, false, false⟩

/-- The cascade (chapter 17). -/
structure CascSt where
  ports : Tbl CascPort
  /-- the position in use since the last enable (R337) -/
  pos : Nat
  /-- the pin's change at the next lap boundary (R339): drive low, or release; and the lap of the command -/
  pinPend : Option (Bool × Nat)
  /-- 1 + the lap in which the master's message was last heard -/
  heard : Nat
  /-- ring commands that wait for their action lap -/
  acts : List RingAct
  /-- ring commands and refusals the next frame carries -/
  sendCmd : List RingAct
  sendRefused : List Refused
  sendBatons : List Baton
  /-- batons of armed commits taken: mask and entry lap -/
  known : List (BitVec 64 × Nat)
  /-- COMMITs that the next frame forwards to the master (R168) -/
  sendForwards : List CommitReq
  /-- the generations that the master's messages have told (R170) -/
  ringGens : Tbl Nat
  ringGen : Nat
  pieces : List Nat
  /-- the engine has taken the ring's generations since it entered the ring (R170) -/
  joined : Bool
  /-- ring channels held for their capture lap, lap mod 16 × 2048 + channel (R86, R342) -/
  chanHist : Tbl (List A48)
  /-- ring channels that this engine's output patch fills, for the frame (R73, R344) -/
  chanOut : Tbl (List A48)
  /-- this engine's bus partials for the frame, by bus (R69) -/
  partOut : Tbl (List X64)
  /-- K and the start lap that the master told (R345) -/
  ringAnchor : Option (Int × Nat)
  /-- the clock has been set from a marker (R345) -/
  clockSet : Bool
  /-- sinks muted by a layout that differs (R88) -/
  layoutMute : Bool
  deriving DecidableEq, Repr

/-- The cascade as POR_N leaves it. -/
def CascSt.reset : CascSt where
  ports := []
  pos := 0
  pinPend := none
  heard := 0
  acts := []
  sendCmd := []
  sendRefused := []
  sendBatons := []
  known := []
  sendForwards := []
  ringGens := []
  ringGen := 0
  pieces := []
  joined := false
  chanHist := []
  chanOut := []
  partOut := []
  ringAnchor := none
  clockSet := false
  layoutMute := false

end Sys2Proof.Machine
end

