-- ==== Sys2Proof/Machine/TypesCore.lean ====
section
/-! DEFINITION. The state of the control cores, of firmware trust and of the scheduler (chapter 18). -/

namespace Sys2Proof.Machine

/-- A task's state (R359). -/
inductive TaskState where
  | unused | idle | ready | delayed | running
  deriving DecidableEq, Repr

/-- A task entry (R359): `runner` is the runner it runs on, `since` the CLK_C cycle in which it entered
its ready queue, `prio` the priority fixed then (R361). -/
structure Task where
  st : TaskState
  cls : Nat
  again : Bool
  due : Nat
  prio : Nat
  since : Nat
  runner : Nat
  /-- 1 + the cycle of the last CANCEL, of the last READY and of the last DONE: operations of one cycle (R363) -/
  cancelAt : Nat
  readyAt : Nat
  doneAt : Nat
  deriving DecidableEq, Repr

/-- An unused entry. -/
def Task.unused : Task := ⟨.unused, 0, false, 0, 0, 0, 0, 0, 0, 0⟩

/-- A lock (R364): its holder and the runners that wait for it, longest first. -/
structure Lock where
  holder : Option Nat
  waiters : List Nat
  broken : Bool
  deriving DecidableEq, Repr

/-- A free lock. -/
def Lock.free : Lock := ⟨none, [], false⟩

/-- The statistics of one priority (R366): the largest depth, and of the waits of the window the largest,
the sum and the number. -/
structure PrioStat where
  depth : Nat
  waitMax : Nat
  waitSum : Nat
  waits : Nat
  deriving DecidableEq, Repr

/-- No statistics. -/
def PrioStat.zero : PrioStat := ⟨0, 0, 0, 0⟩

/-- A runner (R349 to R358, R361): blocked in TAKE or GRAB since a CLK_C cycle, the blocked cycles of the
window so far, whether it is halted by a fault, the times in ms of its faults, newest first, and of its
last check-in. -/
structure Runner where
  inTake : Option Nat
  inGrab : Option Nat
  blockedSum : Nat
  halted : Bool
  faults : List Nat
  checkIn : Nat
  /-- it was last refused by the scheduler (R360) -/
  refused : Bool
  /-- 1 + the cycle in which a TAKE gave it a task, and that task (R363) -/
  tookAt : Nat
  took : Nat
  /-- a spare took over its services at its last fault (R358) -/
  covered : Bool
  deriving DecidableEq, Repr

/-- A runner that is off. -/
def Runner.reset : Runner := ⟨none, none, 0, false, [], 0, false, 0, 0, false⟩

/-- The scheduler (R359 to R366). -/
structure SchedSt where
  tasks : Tbl Task
  queues : Tbl (List Nat)
  /-- the delay list: tasks by due lap, then in DELAY order -/
  delays : List Nat
  locks : Tbl Lock
  cycle : Nat
  /-- the window being measured: its first lap and cycle, and its statistics -/
  winLap : Nat
  winCycle : Nat
  stat : Tbl PrioStat
  /-- the statistics latched at the last window's end, by priority -/
  latched : Tbl PrioStat
  deriving DecidableEq, Repr

/-- The scheduler as POR_N leaves it. -/
def SchedSt.reset : SchedSt := ⟨[], [], [], [], 0, 0, 0, [], []⟩

/-- What the keeper knows of the image that runs (R354). -/
structure Image where
  sv : Nat
  fwVer : Nat
  keySlot : Nat
  vendor : Nat
  subVendor : Nat
  subId : Nat
  /-- SHA-384 of the header, as a number -/
  hash : Nat
  deriving DecidableEq, Repr

/-- A section of an image as the flash or a user area holds it (R354). -/
structure ImgSection where
  kind : Nat
  offset : Nat
  length : Nat
  /-- its contents' SHA-384 equals the header's entry -/
  hashOk : Bool
  /-- the contents as 64-bit words; keeper configuration: the registers it sets -/
  words : List Nat
  config : List (Nat × Nat)
  deriving DecidableEq, Repr

/-- An image as read from a slot: `answers` tells whether the header can be read at all (R355). -/
structure ImageSrc where
  answers : Bool
  magic : Nat
  hdrVer : Nat
  nsec : Nat
  image : Image
  /-- the SHA-384 of pubkey, and whether sig verifies over bytes 0 to 383 with it -/
  keyHash : Nat
  sigOk : Bool
  sections : List ImgSection
  /-- the slot's size in bytes: an image's sections lie within it -/
  size : Nat
  deriving DecidableEq, Repr

/-- The ratio ranges, in 1/256, that calibration finds for the bands of Synth A and Synth B (R324); a band
beyond the list is invalid. -/
structure Bands where
  a : List (Nat × Nat)
  b : List (Nat × Nat)
  deriving DecidableEq, Repr

/-- What the keeper finds when it boots: the flash's two slots, and the bands it calibrates (R353). -/
structure BootSrc where
  primary : ImageSrc
  secondary : ImageSrc
  bands : Bands
  deriving DecidableEq, Repr

/-- The fuses of the main engine (R350, R356, R392). They outlast every reset. -/
structure Fuses where
  sv : Nat
  /-- key slots: the SHA-384 of the public key, when programmed -/
  keys : Tbl Nat
  revoked : Tbl Bool
  vendor : Nat
  subVendor : Nat
  subId : Nat
  repairs : Nat
  /-- physical banks of the cellar that production test marked failed (R221) -/
  failedBanks : List Nat
  deriving DecidableEq, Repr

/-- A fuse burn in progress (R356, R392). -/
inductive KeeperBurn where
  | sv (target : Nat)
  | repair
  deriving DecidableEq, Repr

/-- The cores and firmware trust (R349 to R358). -/
structure CoreSt where
  runners : Tbl Runner
  image : Option Image
  slot : Nat
  fuses : Fuses
  /-- fuse burns in progress, oldest first -/
  burn : List KeeperBurn
  /-- a chip reset held behind the burn (R405) -/
  heldReset : Option BootSrc
  /-- time in ms that check-ins and expiries refer to, and that of the keeper's last check-in (R397) -/
  ms : Nat
  keeperIn : Nat
  deriving DecidableEq, Repr

/-- Fuses of the part: one key slot, 0, is programmed; no other fuse is burnt (DESIGN CHOICE, log 20). -/
def Fuses.part : Fuses := ⟨0, [(0, 0)], [], 0, 0, 0, 0, []⟩

/-- The cores as POR_N leaves them. -/
def CoreSt.reset : CoreSt := ⟨[], none, 0, Fuses.part, [], none, 0, 0⟩

end Sys2Proof.Machine
end

