-- ==== Sys2Proof/Machine/TypesAudio.lean ====
section
/-! DEFINITION. The state of the signal path: route points and A/B selection (chapter 04), the strips'
stages (chapters 05 and 06), the racks and the generators (chapter 07). -/

namespace Sys2Proof.Machine

/-- A running fade: its length, its position and whether its curve is equal-power (R89). -/
structure Fade where
  len : Nat
  pos : Nat
  power : Bool
  deriving DecidableEq, Repr

/-- What a route point presents: a source and the point's second value (an alignment delay at an input
point, the bypass bit at an insert point, 0 elsewhere). -/
structure RVal where
  src : Nat
  aux : Nat
  deriving DecidableEq, Repr

/-- A change held behind a running fade, with its own profile (R90). -/
structure Held where
  val : RVal
  len : Nat
  power : Bool
  deriving DecidableEq, Repr

/-- A route point: the value it presents, the one it fades from, the running fade, the newest held change
and whether an episode of an invalid source runs (R74, R89, R90). -/
structure RoutePt where
  cur : RVal
  old : RVal
  fade : Option Fade
  held : Option Held
  invalid : Bool
  deriving DecidableEq, Repr

/-- A route point that presents a given source. -/
def RoutePt.at (src : Nat) : RoutePt := ⟨⟨src, 0⟩, ⟨src, 0⟩, none, none, false⟩

/-- The A/B selection of an input strip: the selected side, the run counts, and the episodes of
both_failed and pad_range (R80, R81). -/
structure Ab where
  selB : Bool
  failA : Nat
  okA : Nat
  failB : Nat
  okB : Nat
  both : Bool
  padRange : Bool
  deriving DecidableEq, Repr

/-- A strip's selection before anything was captured. -/
def Ab.reset : Ab := ⟨false, 0, 0, 0, 0, false, false⟩

/-- The phases of the layout mute (R87). -/
inductive MutePhase where
  | pass | fadeOut | silent | fadeIn
  deriving DecidableEq, Repr

/-- A pending layout apply: its target lap and the latched GRF_LAYOUT (R87). -/
structure LayoutPend where
  lap : Nat
  bits : Nat
  deriving DecidableEq, Repr

/-- The delay unit's state of one delay tap (R99, R100). -/
structure DelayU where
  cur : Nat
  old : Nat
  fade : Option Fade
  valid : Bool
  deriving DecidableEq, Repr

/-- A tap of an object that is cold. -/
def DelayU.reset : DelayU := ⟨0, 0, none, false⟩

/-- A section's coefficients (R103). -/
structure Coefs where
  b0 : C48
  b1 : C48
  b2 : C48
  a1 : C48
  a2 : C48
  deriving DecidableEq, Repr

/-- The outgoing side of a coefficient fade (R106). -/
structure SecFade where
  old : Coefs
  y1o : A48
  y2o : A48
  i : Nat
  len : Nat
  deriving DecidableEq, Repr

/-- A section's state record (R106). -/
structure Section where
  x1 : A48
  x2 : A48
  y1 : A48
  y2 : A48
  cur : Coefs
  valid : Bool
  fade : Option SecFade
  deriving DecidableEq, Repr

/-- The coefficients of a section that passes its input (R104). -/
def Coefs.unity : Coefs := ⟨c48One, 0, 0, 0, 0⟩

/-- A cleared section record (R106). -/
def Section.cold : Section := ⟨0, 0, 0, 0, Coefs.unity, false, none⟩

/-- The gain smoother (R117). -/
structure Smoother where
  g : A48
  r : Nat
  valid : Bool
  deriving DecidableEq, Repr

/-- A cleared smoother (R130). -/
def Smoother.cold : Smoother := ⟨0, 0, false⟩

/-- The polarity stage (R102). -/
structure Polarity where
  cur : Bool
  old : Bool
  fade : Option Fade
  valid : Bool
  deriving DecidableEq, Repr

/-- A cleared polarity stage. -/
def Polarity.cold : Polarity := ⟨false, false, none, false⟩

/-- A dynamics unit's state (R118 to R121). -/
structure Dyn where
  kx1 : A48
  kx2 : A48
  ky1 : A48
  ky2 : A48
  ms : A48
  gs : D32
  gate : Bool
  hc : Nat
  deriving DecidableEq, Repr

/-- A cleared dynamics unit (R130). -/
def Dyn.cold : Dyn := ⟨0, 0, 0, 0, 0, 0, false, 0⟩

/-- The mute stage (R123). -/
structure Mute where
  use : Bool
  searching : Bool
  c : Nat
  want : Bool
  /-- position of a running timeout fade -/
  fade : Option Nat
  yPrev : A48
  valid : Bool
  deriving DecidableEq, Repr

/-- A cleared mute stage (R130). -/
def Mute.cold : Mute := ⟨false, false, 0, false, none, 0, false⟩

/-- A send's or a matrix cell's in-use level and point, 0 = not in use (R125). -/
structure Send where
  u : D32
  pUse : Nat
  deriving DecidableEq, Repr

/-- A send that is not in use. -/
def Send.cold : Send := ⟨d32NegInf, 0⟩

/-- An object's meters (R128). -/
structure Meter where
  pk : D32
  rms : D32
  msm : A48
  clipLaps : Nat
  /-- a lap has been metered since the cold start (R130) -/
  valid : Bool
  deriving DecidableEq, Repr

/-- Cleared meters (R130). -/
def Meter.cold : Meter := ⟨d32NegInf, d32NegInf, 0, 0, false⟩

/-- The tile state of an input strip, a bus strip or a matrix output strip: the stages of R94 and R112.
A kind that lacks a stage leaves its record cold. -/
structure Strip where
  trim : Smoother
  pol : Polarity
  secs : List Section
  d1 : Dyn
  d2 : Dyn
  d3 : Dyn
  fader : Smoother
  mute : Mute
  sends : Tbl Send
  meter : Meter
  deriving DecidableEq, Repr

/-- A strip that is cold (R110, R130). -/
def Strip.cold : Strip :=
  ⟨Smoother.cold, Polarity.cold, [], Dyn.cold, Dyn.cold, Dyn.cold, Smoother.cold, Mute.cold, [], Meter.cold⟩

/-- The tile state of a rack instance (chapter 07). -/
structure Rack where
  /-- input history, newest first: 2B samples of a convolution, T of a filter -/
  hist : List A48
  /-- convolution: return samples computed and not yet passed, oldest first (R137) -/
  ret : List A48
  /-- convolution: the media sample count of the next return, which `ret` begins with (R137) -/
  retAt : Nat
  /-- convolution: the table page in use and the one a fade leaves, with the fade over return samples; its position counts
  those that are computed -/
  page : Nat
  pageOld : Nat
  fade : Option Fade
  /-- convolution: blocks computed since the cold start -/
  blocks : Nat
  /-- filter: the tap set in use, the outgoing set, and whether a set was taken (R141) -/
  taps : List C48
  tapsOld : List C48
  valid : Bool
  /-- multi-tap delay: the smoothers of dry, fb and the eight tap levels (R135) -/
  dry : Smoother
  fb : Smoother
  lvl : List Smoother
  deriving DecidableEq, Repr

/-- A rack that is cold (R143). -/
def Rack.cold : Rack :=
  ⟨[], [], 0, 0, 0, none, 0, [], [], false, Smoother.cold, Smoother.cold, []⟩

/-- A test generator (R145): phase, noise word, smoother, the effective mode and seed, and the waveform a
running fade leaves, with its own phase and noise word. -/
structure Gen where
  phi : Nat
  w : Nat
  g : Smoother
  mode : Nat
  seed : Nat
  oldMode : Nat
  oldPhi : Nat
  oldW : Nat
  fade : Option Fade
  held : Option Held
  deriving DecidableEq, Repr

/-- Generator g as it stands at processing start (R144, R145). -/
def Gen.reset (g : Nat) : Gen := ⟨0, g + 1, Smoother.cold, 0, g + 1, 0, 0, 0, none, none⟩

/-- The laps of the sends for which an engine of the ring sends partials, each as 1 + the lap: the first, the last one
received, and the one from which its frames carried none (0: they still do). -/
structure PartRun where
  first : Nat
  last : Nat
  stop : Nat
  deriving DecidableEq, Repr

/-- An engine that has sent no partial. -/
def PartRun.none : PartRun := ⟨0, 0, 0⟩

/-- A partial for the sends of a lap has arrived. -/
def PartRun.heard (r : PartRun) (lap : Nat) : PartRun :=
  if r.first = 0 ∨ (r.stop ≠ 0 ∧ r.stop ≤ lap + 1) then ⟨lap + 1, lap + 1, 0⟩ else { r with last := max r.last (lap + 1) }

/-- A frame of the engine's own carried none for the sends of a lap. -/
def PartRun.ended (r : PartRun) (lap : Nat) : PartRun := if r.stop = 0 then { r with stop := lap + 1 } else r

/-- A partial is expected for the sends of a lap. An engine of which nothing has arrived for 15 laps holds no strip any
more, as far as this engine can know (DESIGN CHOICE, log entry 46). -/
def PartRun.expects (r : PartRun) (lap : Nat) : Bool :=
  r.first != 0 && decide (r.first ≤ lap + 1) && (r.stop == 0 || decide (lap + 1 < r.stop)) && decide (lap < r.last + 15)

/-- The signal path's part of the state. Lists of samples hold one lap, sample 0 first; keys of sources
are source codes (R72), keys of sinks are sink kind × 4096 + index (R73), keys of objects are placement
indexes (R57). -/
structure AudioSt where
  /-- values the objects' outputs had in the last processed lap: kinds 0x8, 0x9 and 0xA -/
  outv : Tbl (List A48)
  /-- recent samples of each source, newest first, for the alignment delay of R81 -/
  hist : Tbl (List A48)
  /-- sources marked failed in the lap just ended (R79) -/
  failed : Tbl Bool
  ab : Tbl Ab
  inPt : Tbl RoutePt
  outPt : Tbl RoutePt
  /-- insert points: strip index × 2 + (0 head, 1 tail) over the placement index -/
  insPt : Tbl RoutePt
  dirPt : Tbl RoutePt
  /-- the value that entered each insert point in the running lap, and its history newest first -/
  insIn : Tbl (List A48)
  insHist : Tbl (List A48)
  /-- what each insert point passed on in the last processed lap, keyed as insPt -/
  insOut : Tbl (List A48)
  /-- a rack's return of the last processed lap -/
  rackOut : Tbl (List A48)
  /-- a rack's line values of the last processed lap, to be written to its line (R142) -/
  rackLine : Tbl (List A48)
  /-- a rack's tap values for the running lap, tap by tap (R142) -/
  rackTap : Tbl (List A48)
  /-- the lap's input of each object in its X bank: strips and racks by placement index -/
  xin : Tbl (List A48)
  /-- bus values after the tail column in the last lap, read by the matrix cells (R127) -/
  busOut : Tbl (List A48)
  /-- what each strip sent in the running lap: bus × 8 + sample, exact (R126) -/
  sendW : Tbl (Tbl Int)
  /-- a matrix output's cells after the running lap, where they are summed into a head column (R84, R127) -/
  cellW : Tbl (Tbl Send)
  /-- X64 partials held: ((lap mod 16 × 32 + slot) × 256 + bus) × 8 + sample (R68, R84) -/
  part : Tbl X64
  /-- 2 × (1 + the lap of the sends) of a slot that holds input strips, + 1 when its partials are present, by
  lap mod 16 × 32 + slot (R68, R70) -/
  partLap : Tbl Nat
  /-- engine partials received: ((lap mod 16 × 8 + engine) × 256 + bus) × 8 + sample (R68) -/
  ePart : Tbl X64
  /-- 1 + the lap of the sends of the engine partials received, by (lap mod 16 × 8 + engine) × 256 + bus -/
  ePartLap : Tbl Nat
  /-- for which laps each engine of the ring has sent bus partials: then it held placed input strips (R68) -/
  eStrips : Tbl PartRun
  delay : Tbl DelayU
  strips : Tbl Strip
  stripsW : Tbl Strip
  racks : Tbl Rack
  racksW : Tbl Rack
  gens : Tbl Gen
  layout : Option LayoutPend
  mutePhase : MutePhase
  mutePos : Nat
  /-- the lap in which a fade-in of the layout mute begins -/
  muteLap : Nat
  /-- 1 + the lap in which the exchange window last ran -/
  exchLap : Nat
  deriving DecidableEq, Repr

/-- The signal path as POR_N leaves it. -/
def AudioSt.reset : AudioSt where
  outv := []
  hist := []
  failed := []
  ab := []
  inPt := []
  outPt := []
  insPt := []
  dirPt := []
  insIn := []
  insHist := []
  insOut := []
  rackOut := []
  rackLine := []
  rackTap := []
  xin := []
  busOut := []
  sendW := []
  cellW := []
  part := []
  partLap := []
  ePart := []
  ePartLap := []
  eStrips := []
  delay := []
  strips := []
  stripsW := []
  racks := []
  racksW := []
  gens := []
  layout := none
  mutePhase := .pass
  mutePos := 0
  muteLap := 0
  exchLap := 0

end Sys2Proof.Machine
end

