-- ==== Sys2Proof/Machine/TypesPorts.lean ====
section
/-! DEFINITION. The state of the audio ports (chapter 12) and of the network ports and streams
(chapter 13). -/

namespace Sys2Proof.Machine

/-- How a channel of a port or of a transmit context passes data (R245). -/
inductive ChanGate where
  /-- passes zero -/
  | closed
  /-- searches for a zero crossing: the number of the next search sample -/
  | search (c : Nat)
  /-- fades in after a timeout: the fade position -/
  | fadeIn (i : Nat)
  | opened
  /-- fades to zero: the fade position (R246, R262) -/
  | fadeOut (i : Nat)
  deriving DecidableEq, Repr

/-- A side of a port (R240 to R247). Instants and phases are held in CLK_T cycles, the resolution of R240. -/
structure Side where
  /-- the count the next frame takes, when the side has assigned one -/
  count : Option Int
  /-- the count of the frame being received: none where the frame is discarded -/
  frame : Option Int
  /-- instants of the first frames of the last 16 laps, newest first, each with the number of the frame (R243, R244) -/
  stamps : List (Int × Nat)
  /-- instant of the last frame start -/
  last : Option Int
  /-- data is enabled -/
  data : Bool
  /-- 1 + the lap in which data was enabled -/
  since : Nat
  /-- frame starts since the side was out of service -/
  frames : Nat
  /-- the lap whose first frame has been taken (R242, R243) -/
  seen : Option Int
  deriving DecidableEq, Repr

/-- A side that is out of service. -/
def Side.reset : Side := ⟨none, none, [], none, false, 0, 0, none⟩

/-- What a TDM port drives in a frame, from its frame start on (R237): the level of the data line in each SCK period, of FS
where the port drives it, and whether the data changes on the falling edges of SCK. -/
structure TdmWire where
  data : List Bool
  fs : Option (List Bool)
  falls : Bool
  deriving DecidableEq, Repr

/-- A channel status or user block being gathered (R250). -/
structure CsBlock where
  /-- bits gathered since the Z preamble, first bit first; none: no Z preamble yet -/
  bits : Option (List Bool)
  user : List Bool
  /-- the latched block and the latched user bits, 24 bytes each -/
  latched : List Byte
  latchedUser : List Byte
  deriving DecidableEq, Repr

/-- No block gathered, none latched. -/
def CsBlock.reset : CsBlock := ⟨none, [], [], []⟩

/-- A port beyond what its registers show. -/
structure Port where
  inp : Side
  out : Side
  /-- the format register as it was at the last enable (APT_FMTp takes effect at the next enable) -/
  fmt : Word
  /-- clocks run -/
  clocks : Bool
  /-- whole laps of starting blocks counted, once `armed` by the first lap boundary (R245) -/
  blocks : Nat
  armed : Bool
  /-- consecutive laps in which a slave's clock was present and in tolerance -/
  okLaps : Nat
  /-- a start and a clock stop held behind a stop fade (R246, R247) -/
  heldStart : Bool
  heldStop : Bool
  /-- 1 + the lap in which the last stop fade begins -/
  stopAt : Nat
  /-- the stop was made by the entry to QUIET or by a rate change: service resumes by itself (R246) -/
  resume : Bool
  /-- gates and last samples by side × 32 + channel, side 0 input, 1 output -/
  chans : Tbl ChanGate
  prev : Tbl A48
  /-- staging table and table in use of a transmitter's channel status: channel × 24 + byte -/
  csStage : Tbl Byte
  csUse : Tbl Byte
  csLoad : Bool
  /-- the last bit of the last output frame, which a delayed format sends in the next frame's first SCK period (R237) -/
  carry : Bool
  deriving DecidableEq, Repr

/-- A port as POR_N leaves it. -/
def Port.reset : Port where
  inp := Side.reset
  out := Side.reset
  fmt := 0
  clocks := false
  blocks := 0
  armed := false
  okLaps := 0
  heldStart := false
  heldStop := false
  stopAt := 0
  resume := false
  chans := []
  prev := []
  csStage := []
  csUse := []
  csLoad := false
  carry := false

/-- The audio ports (chapter 12). -/
structure PortSt where
  ports : Tbl Port
  /-- FIFO words by byte address of space 2 divided by 4 (R252) -/
  fifo : Tbl Word
  /-- counts for which a FIFO frame is stored: FIFO base / 4 + m mod 64, to m + 1 -/
  frames : Tbl Nat
  /-- validity bits for v_mode 2 (R251): (transmitter × 2 + channel) × 64 + m mod 64 -/
  vflag : Tbl Bool
  /-- receivers' channel status: receiver × 2 + channel -/
  cs : Tbl CsBlock
  /-- V + 2 U + 4 C + 8 Z of the AES3 input frames, by the FIFO word of their sample; and, newest first, those of the
  AES3 inputs and AM824 receive channels by source code (R273) -/
  subBits : Tbl Nat
  bitHist : Tbl (List Nat)
  /-- port-level gain smoothers by object index of class 0x09 (R253, R279) -/
  gain : Tbl Smoother
  /-- the samples that the output sides took in the running lap, after the gain and before their gates, which act at the
  boundary of the lap that plays them: port × 32 + channel (R245, R246) -/
  outNext : Tbl (List A48)
  deriving DecidableEq, Repr

/-- The ports as POR_N leaves them. -/
def PortSt.reset : PortSt := ⟨[], [], [], [], [], [], [], [], []⟩

/-- A receive or transmit context beyond its registers (R261 to R273). Its state, reason and path bits are in
its STM_STATUS. -/
structure Ctx where
  /-- conceal gain, and whether it is forced down (R265, R267) -/
  k : Nat
  force : Bool
  /-- held value per channel -/
  h : Tbl A48
  /-- stored samples: the jitter buffer's words by count mod 2^31 × 64 + channel, and the counts present -/
  buf : Tbl A48
  here : List Int
  mRead : Int
  w : Int
  len : Nat
  dRx : Nat
  /-- a new D_rx or len that command 3 applies (R267, R268) -/
  newD : Option Nat
  newLen : Option Nat
  /-- counts read since the last wrap or change of length: len of them make a wrap (R268) -/
  reads : Nat
  /-- consecutive laps without a stored packet, and per path without a packet -/
  idle : Nat
  idleA : Nat
  idleB : Nat
  storedLap : Bool
  /-- a packet has been stored since the context was lost (R266) -/
  back : Bool
  /-- arrivals by count and path in ns, newest first, and the last 64 differences B - A (R269) -/
  arrA : List (Int × Int)
  arrB : List (Int × Int)
  skew : List Int
  skewEp : Bool
  /-- a count of the last lap read was absent -/
  absent : Bool
  /-- AM824 bits of each stored sample, keyed as `buf`: V + 2 U + 4 C + 8 Z; and blocks by channel (R270). Of a
  transmit context: 16 + a sample's bits; until its lap begins, 1 where a generated validity bit is set (R273) -/
  bits : Tbl Nat
  cs : Tbl CsBlock
  /-- transmit: sequence number, next packet's m0, laps of starting blocks left, gates and last samples per
  channel -/
  seq : Nat
  m0 : Int
  blocks : Nat
  gates : Tbl ChanGate
  prev : Tbl A48
  /-- transmit: the samples taken in the running lap, after the gain and before the gates, by channel -/
  outNext : Tbl (List A48)
  /-- transmit: 1 + the lap in which the fade of a disable begins -/
  stopAt : Nat
  /-- transmit: tables of channel status; a load waits for the next block start (R273) -/
  csStage : Tbl Byte
  csUse : Tbl Byte
  csLoad : Bool
  deriving DecidableEq, Repr

/-- A context that is disabled. -/
def Ctx.reset : Ctx where
  k := 0
  force := false
  h := []
  buf := []
  here := []
  mRead := 0
  w := 0
  len := 0
  dRx := 0
  newD := none
  newLen := none
  reads := 0
  idle := 0
  idleA := 0
  idleB := 0
  storedLap := false
  back := false
  arrA := []
  arrB := []
  skew := []
  skewEp := false
  absent := false
  bits := []
  cs := []
  seq := 0
  m0 := 0
  blocks := 0
  gates := []
  prev := []
  outNext := []
  stopAt := 0
  csStage := []
  csUse := []
  csLoad := false

/-- What a frame waiting for egress is: a media packet with the instant it was due in 2^-32 ns and its context (R271), a host frame with
its ring and descriptor and whether its transmit time is asked for (R194), a PTP event message whose
transmit time its instance takes (R289), or any other. -/
inductive EgTag where
  | plain
  | media (due : Int) (ctx : Nat)
  | host (ring id : Nat) (ts : Bool)
  /-- the second port's copy of a host frame -/
  | hostCopy (ring id : Nat)
  | sync (seq : Nat)
  | delayReq (seq : Nat)
  | pdelayResp (dest seq : Nat)
  deriving DecidableEq, Repr

/-- A frame waiting in an egress queue (R276), from its destination address on, without tag and FCS. -/
structure EgFrame where
  bytes : List Byte
  tag : EgTag
  deriving DecidableEq, Repr

/-- A network port beyond its registers. -/
structure NetPort where
  /-- the 16-entry multicast table: MAC + valid × 2^48 -/
  mcast : Tbl Nat
  /-- egress queues 0 to 7, oldest first -/
  queues : Tbl (List EgFrame)
  /-- multicast groups reported as joined (R277) -/
  groups : List Nat
  deriving DecidableEq, Repr

/-- A network port as POR_N leaves it. -/
def NetPort.reset : NetPort := ⟨[], [], []⟩

/-- Network ports and stream contexts: receive contexts 0 to 511, transmit contexts 512 to 1023. -/
structure NetSt where
  ports : Tbl NetPort
  ctx : Tbl Ctx
  /-- context registers: context × 0x100 + offset in the STM block -/
  ctxRegs : Tbl Word
  deriving DecidableEq, Repr

/-- The network as POR_N leaves it. -/
def NetSt.reset : NetSt := ⟨[], [], []⟩

end Sys2Proof.Machine
end

