-- ==== Sys2Proof/Machine/TypesTile.lean ====
section
/-! DEFINITION. The state of a tile, of a heat's checker and of the placement (chapters 02 and 03). -/

namespace Sys2Proof.Machine

/-- An accumulator with its three sticky flags (R29, R36, R37). -/
structure Acc where
  v : Acc112
  ovf : Bool
  ovg : Bool
  ovd : Bool
  deriving DecidableEq, Repr

/-- An accumulator as clr leaves it (R33). -/
def Acc.zero : Acc := ⟨0, false, false, false⟩

/-- The modes of an address generator (R53). -/
inductive AgMode where
  | linear | modulo | bitrev
  deriving DecidableEq, Repr

/-- An address generator (R53): its 17-bit base holds the bank select code in bits [16:14]. -/
structure Ag where
  base : Nat
  len : Nat
  ptr : Int
  step : Int
  mode : AgMode
  pending : Option Nat
  deriving DecidableEq, Repr

/-- A generator that nothing has set yet. -/
def Ag.idle : Ag := ⟨0, 1, 0, 0, .linear, none⟩

/-- The outcome of a SECDED read (R66, R393). -/
inductive Ecc where
  | ok | corrected | uncorrectable
  deriving DecidableEq, Repr

/-- A corrected word that waits to be written back to its bank (R66). -/
structure WriteBack where
  bank : Nat
  word : Nat
  value : A48
  deriving DecidableEq, Repr

/-- One physical tile: accumulators a0 to a7, data registers d0 to d15, generators ag0 to ag7, the words of its banks S0,
S1, W and X (key bank × 16 384 + word, banks 2 to 5 = S0, S1, W, X; what P0 and P1 hold are the pages of the objects of
its slot, `State.pageWord`), the X64 partials it stored (key bus × 8 + sample) and what its lap's progress is. -/
structure Tile where
  acc : Tbl Acc
  d : Tbl A48
  ag : Tbl Ag
  bank : Tbl A48
  part : Tbl X64
  /-- which of S0 and S1 is the read bank (R50) -/
  sread : Nat
  /-- the outcome of the last comparison of data registers (R40) -/
  cmp : Bool
  wb : List WriteBack
  /-- keys of the words of X that the processor wrote in the running lap (R63) -/
  xw : List Nat
  /-- the processor is halted by a fault of this lap (R63) -/
  halted : Bool
  /-- 1 + the lap of the last halt (R70) -/
  haltLap : Nat
  /-- 1 + the lap in which placed processing last ran -/
  ranLap : Nat
  /-- the last generation applied (R71, TIL_TGEN) -/
  tgen : Nat
  deriving DecidableEq, Repr

/-- A tile as POR_N leaves it. -/
def Tile.reset : Tile := ⟨[], [], [], [], [], 0, false, [], [], false, 0, 0, 0⟩

/-- Where a heat's checker stands within an attachment and its window (R60, R62). -/
inductive ChkStep where
  | idle | copying | recording | window
  deriving DecidableEq, Repr

/-- A heat's checker beyond what TIL_HEATh shows: the step, the laps left in the window, the tile of the
round robin and the tile under suspicion. -/
structure Heat where
  step : ChkStep
  lapsLeft : Nat
  robin : Nat
  suspect : Option Nat
  /-- a takeover waits for the next lap boundary: the tile to take over (R63) -/
  takeover : Option Nat
  /-- a takeover took place in this lap: heat_exhausted is due at the next boundary (R63) -/
  exhaust : Bool
  /-- 1 + the lap of the last comparison: one a lap (R61) -/
  cmpLap : Nat
  /-- the lap in which the shadow copy under way began: a page swap in the tile under copy begins it anew (R60) -/
  copyFrom : Nat
  deriving DecidableEq, Repr

/-- A heat's checker as POR_N leaves it. -/
def Heat.reset : Heat := ⟨.idle, 0, 0, none, none, false, 0, 0⟩

/-- A pending placement apply (R57): its target lap and the table it puts in force (index to slot + 1,
0 = not placed). -/
structure PlacePend where
  lap : Nat
  table : Tbl Nat
  /-- indexes of the objects whose migration copy has run (R58) -/
  copied : List Nat
  deriving DecidableEq, Repr

/-- A running output ramp of an object (R67): its length and how many samples it has run. -/
structure Ramp where
  len : Nat
  pos : Nat
  deriving DecidableEq, Repr

/-- Tiles, heats, placement and the ramps and holds of placed objects. -/
structure TileSt where
  tiles : Tbl Tile
  heats : Tbl Heat
  /-- the placement in force: index to slot + 1, 0 = not placed (R57) -/
  placed : Tbl Nat
  /-- the staging table of TIL_PLACE_DATA, as slot + 32 × valid (R57) -/
  staged : Tbl Nat
  pend : Option PlacePend
  /-- running ramps by object index (R67) -/
  ramp : Tbl (Option Ramp)
  /-- objects that are cold: they wait for a reload (R58, R67) -/
  cold : Tbl Bool
  /-- slots isolated: their objects are held muted (R65) -/
  isolated : Tbl Bool
  deriving DecidableEq, Repr

/-- The tiles' part of the state as POR_N leaves it. -/
def TileSt.reset : TileSt := ⟨[], [], [], [], none, [], [], []⟩

end Sys2Proof.Machine
end

