-- ==== Sys2Proof/Syntax.lean ====
section
/-! DEFINITION. The commands of the engine: one constructor for each row of the table of operations and
events. A command carries as operands what the outside world supplies with it: data that the engine reads
from host memory, words on a pin, measured times, outcomes of tests. -/

namespace Sys2Proof

open Machine (Ecc ImageSrc Bands BootSrc CascFrame)

/-- Who makes an access to BAR0 (R21, R23, R228). -/
inductive Agent where
  | host
  | runner (k : Nat)
  | keeper
  deriving DecidableEq, Repr

/-- A field of configuration space that R177 states. -/
inductive CfgField where
  | classCode | maxPayloadSupported | completionTimeoutRanges | completionTimeoutDisable | aspmSupport | extendedTag
  | tenBitTag | functionLevelReset | msixTableSize | interruptPin
  deriving DecidableEq, Repr

/-- A capability that R177 lists as present or as not implemented. -/
inductive CfgCap where
  | powerManagement | pciExpress | msix | advancedErrorReporting | msi | sriov | ats | pasid | l1PmSubstates
  deriving DecidableEq, Repr

/-- A configuration request (R177, R180, R406): a read of the IDs, a write of MSI-X Enable and Function Mask or of Memory
Space Enable, a read of a field or of whether a capability is there, a read or a write of BAR register 0 to 5, or any
other request. -/
inductive CfgReq where
  | readIds
  | msixControl (enable mask : Bool)
  | memorySpace (on : Bool)
  | field (f : CfgField)
  | capability (c : CfgCap)
  | barRead (n : Nat)
  | barWrite (n : Nat) (v : Word)
  | other
  deriving DecidableEq, Repr

/-- The formats a data register or a tile word can be read in (R28). -/
inductive Fmt where
  | a48 | c48 | d32
  deriving DecidableEq, Repr

/-- An operand of the MAC (R31, R33): a data register, the word an address generator points at, or an X64 partial. Registers and
bank words have 48 bits and R31 does not say where a 64-bit partial is held: it is an immediate of the command (DESIGN CHOICE, log
entry 65). -/
inductive Src where
  | reg (f : Fmt) (d : Nat)
  | mem (f : Fmt) (g : Nat)
  | x64 (v : X64)
  deriving DecidableEq, Repr

/-- A product's two operands (R31). -/
structure Prod where
  x : Src
  y : Src
  deriving DecidableEq, Repr

/-- A product of mac4 or mac_par with its sign: `neg` is g = 1 (R33). -/
structure Term where
  neg : Bool
  p : Prod
  deriving DecidableEq, Repr

/-- Where st_a48 and st_d32 put their result. -/
inductive Dst where
  | reg (d : Nat)
  | mem (g : Nat)
  deriving DecidableEq, Repr

/-- A set-up of an address generator before an access (R53). -/
structure AgSetup where
  base : Nat
  len : Nat
  step : Int
  mode : Machine.AgMode
  deriving DecidableEq, Repr

/-- A route point (R89): an input point, an insert point (strip, 0 head or 1 tail), the direct output of a
strip, an output sink. -/
inductive Point where
  | input (n : Nat)
  | insert (obj stage : Nat)
  | direct (n : Nat)
  | sink (s : Nat)
  | gen (n : Nat)
  deriving DecidableEq, Repr

/-- What the SECDED decoders of a piece's banks report (R226, R227). -/
inductive CellEcc where
  | ok | corrected | primaryBad | allBad
  deriving DecidableEq, Repr

/-- An SCK edge at a TDM port with the level of FS at the sampling edge before it and at it (R237). -/
structure FsEdge where
  rising : Bool
  before : Bool
  now : Bool
  deriving DecidableEq, Repr

/-- An AES3 subframe (R249, R250): preamble Z, the 24 data bits, V, U, C, and whether parity and coding
are right. -/
structure SubFrame where
  z : Bool
  data : BitVec 24
  v : Bool
  u : Bool
  c : Bool
  ok : Bool
  deriving DecidableEq, Repr

/-- The hops to a position, eastward and westward, where it is reachable (R348, EXL_MAPq). -/
structure CascHop where
  east : Option Nat
  west : Option Nat
  deriving DecidableEq, Repr

/-- The commands: those with operands in the order of the table, then those without. -/
inductive Instr where
  /-- R9: A host write to a BAR0 register field that has no row of its own takes effect by its access code. -/
  | registerWrite (who : Agent) (off : Nat) (val : Word)
  /-- R6: A narrower or unaligned BAR0 access completes with Unsupported Request and has no side effect. -/
  | unsupportedAccess (off size : Nat) (write : Bool)
  /-- R8: A read of a _LO register returns the low word and latches the high word for the next _HI read. -/
  | pairLoRead (off : Nat)
  /-- R8: A write to a _HI register makes the held _LO value and the _HI value take effect together. -/
  | pairHiWrite (who : Agent) (off : Nat) (val : Word)
  /-- R180: An aligned 32-bit or 64-bit access to the MSI-X table or the pending bit array. -/
  | msixTableAccess (off size : Nat) (write : Bool) (val : BitVec 64)
  /-- R182: A host access through BAR4 reaches the region of the lowest-numbered enabled window that covers it. -/
  | bar4Access (off size : Nat) (write : Bool) (data : List Byte) (ecc : List (Nat × CellEcc)) (waits : Nat)
  /-- R406: A PCIe configuration request is answered with retry status until a header passes its checks, and then with the IDs. -/
  | configRequest (req : CfgReq)
  /-- R195: A write of an event enable bit raises the event when its event bit already reads 1. -/
  | eventEnableWrite (off : Nat) (val : Word)
  /-- R51: At cycle 64 of a tile's lap, movers and the spine exchange inputs, outputs and partials with the X banks. -/
  | exchangeWindow (ecc : List (Nat × Nat × CellEcc))
  /-- R51: At cycle 4096 of a tile's lap, the tile runs the placed modules of its slot. -/
  | placedProcessing (tile : Nat)
  /-- R61: At cycles 50 176 to 51 199 of a lap, the spare compares the checked tile's X and state writes with its own. -/
  | checkerCompare (heat : Nat) (differs : Bool)
  /-- R52: A tile whose placed processing has not finished at cycle 50 175 raises an overrun, which is a permanent fault. -/
  | tileOverrun (tile : Nat)
  /-- R33: Clears an accumulator and its ovf, ovg and ovd flags. -/
  | clr (tile a : Nat)
  /-- R33: Loads an aligned operand into an accumulator and clears its flags. -/
  | ld (tile a : Nat) (x : Src)
  /-- R32: Adds an aligned operand exactly into an accumulator, modulo 2^112. -/
  | accAdd (tile a : Nat) (x : Src)
  /-- R32: Subtracts an aligned operand exactly from an accumulator. -/
  | accSub (tile a : Nat) (x : Src)
  /-- R33: Adds an aligned product into an accumulator. -/
  | mac (tile a : Nat) (p : Prod)
  /-- R33: Subtracts an aligned product from an accumulator. -/
  | msu (tile a : Nat) (p : Prod)
  /-- R34: Adds or subtracts four products into one accumulator in index order within one cycle. -/
  | mac4 (tile a : Nat) (p0 p1 p2 p3 : Term)
  /-- R34: Adds or subtracts one product into each of four distinct accumulators within one cycle. -/
  | macPar (tile : Nat) (a0 : Nat) (p0 : Term) (a1 : Nat) (p1 : Term) (a2 : Nat) (p2 : Term) (a3 : Nat) (p3 : Term)
  /-- R35: Performs a complex multiply-accumulate into an even/odd accumulator pair in four ordered additions. -/
  | cmac (tile pair : Nat) (xr xi yr yi : Src)
  /-- R38: Stores an accumulator as A48 with convergent rounding and then saturation or wrap. -/
  | stA48 (tile a : Nat) (dst : Dst) (wrap : Bool)
  /-- R39: Stores an accumulator as an X64 partial with convergent rounding and saturation. -/
  | stX64 (tile a bus j : Nat)
  /-- R39: Stores an accumulator as D32 with convergent rounding and then saturation or wrap. -/
  | stD32 (tile a : Nat) (dst : Dst) (wrap : Bool)
  /-- R40: A data-register addition that saturates to its format, with -infinity absorbing for D32. -/
  | regAdd (tile : Nat) (f : Fmt) (d x y : Nat)
  /-- R40: A data-register subtraction that saturates to its format, with the D32 -infinity rules. -/
  | regSub (tile : Nat) (f : Fmt) (d x y : Nat)
  /-- R40: A data-register negation that saturates. -/
  | neg (tile : Nat) (f : Fmt) (d x : Nat)
  /-- R40: A data-register magnitude that saturates. -/
  | abs (tile : Nat) (f : Fmt) (d x : Nat)
  /-- R40: An exact data-register minimum. -/
  | min (tile : Nat) (f : Fmt) (d x y : Nat)
  /-- R40: An exact data-register maximum. -/
  | max (tile : Nat) (f : Fmt) (d x y : Nat)
  /-- R40: An exact less-than comparison of data registers. -/
  | lt (tile : Nat) (f : Fmt) (x y : Nat)
  /-- R40: An exact less-or-equal comparison of data registers. -/
  | le (tile : Nat) (f : Fmt) (x y : Nat)
  /-- R40: An exact equality comparison of data registers. -/
  | eq (tile : Nat) (f : Fmt) (x y : Nat)
  /-- R40: A data-register left shift that saturates. -/
  | shl (tile : Nat) (f : Fmt) (d x n : Nat)
  /-- R40: A data-register right shift with convergent rounding. -/
  | shr (tile : Nat) (f : Fmt) (d x n : Nat)
  /-- R41: Converts a D32 level to the correctly rounded A48 linear gain. -/
  | db2lin (tile d x : Nat)
  /-- R42: Converts an A48 magnitude to the correctly rounded D32 level. -/
  | lin2db (tile d x : Nat)
  /-- R53: An address-generator access uses its pointer to address a bank word and then advances the pointer by mode. -/
  | agAccess (tile g : Nat) (su : Option AgSetup) (write : Bool) (d : Nat) (ecc : Ecc) (obj : Option Nat)
  /-- R54: A length written to a generator takes effect at once or is held pending until its next wrap. -/
  | agLengthWrite (tile g len : Nat)
  /-- R60: The spare begins to attach to the next active tile and copies its live page through the heat bridge. -/
  | checkerAttach (heat : Nat)
  /-- R60: The shadow copy completes and the spare records the tile's state writes for one lap before checking begins. -/
  | checkerCopyComplete (heat : Nat)
  /-- R62: A checking window of TIL_CHK_CFG.window laps ends and the checker reaches its verdict or moves on. -/
  | checkerWindowEnd (heat : Nat)
  /-- R63: A residue error in a tile's MAC datapath halts the tile and discards its lap's X words. -/
  | residueError (tile : Nat)
  /-- R63: A keeper command orders the takeover of a named tile, or declares the spare faulty. -/
  | keeperTakeoverCommand (heat : Nat) (tile : Option Nat)
  /-- R63: At the next lap boundary the spare adopts the halted tile's banks and its slot. -/
  | spareTakeover (tile : Nat) (badObjs : List Nat) (allBad : Bool)
  /-- R66: A corrected word is written back in the next free cycle of its bank. -/
  | eccWriteBack (tile : Nat)
  /-- R67: The ramp of L samples after a cold start or takeover ends and the object passes values unchanged. -/
  | warmUpRampEnd (obj : Nat)
  /-- R57: An access to TIL_PLACE_DATA reads or writes a staging entry and increments TIL_PLACE_ADDR. -/
  | placeDataAccess (write : Bool) (val : Word)
  /-- R58: The heat bridge copies a moving object's parameters, and in the lap before the target its state, to the new slot. -/
  | migrationCopy (obj : Nat)
  /-- R90: A route fade's last sample passes and the newest held change starts at the next lap boundary. -/
  | routeFadeEnd (point : Point)
  /-- R100: A delay fade reaches its length and the next comparison may start a deferred fade. -/
  | delayFadeEnd (tap : Nat)
  /-- R102: A polarity fade ends and a deferred polarity change may start. -/
  | polarityFadeEnd (obj : Nat)
  /-- R109: A section's coefficient fade ends and the newest live set may start the next fade. -/
  | sectionFadeEnd (obj sec : Nat)
  /-- R119: The gate's hold count runs out below threshold and the gate closes. -/
  | gateHoldExpire (obj : Nat) (level : D32)
  /-- R123: A mute search reaches T samples with no crossing and a 32-sample timeout fade begins. -/
  | muteTimeout (obj : Nat) (sample : A48)
  /-- R152: A PARAM_WRITE descriptor checks all its items and writes them to the loft. -/
  | paramWrite (ring : Nat) (items : List (Word × Word × BitVec 64))
  /-- R153: A PARAM_READ descriptor fills its items from the live page or the loft of the store. -/
  | paramRead (ring : Nat) (items : List (Word × Word × BitVec 64)) (bad : List Nat)
  /-- R157: An apply COMMIT is checked and accepted, arming a baton, or refused. -/
  | commitApply (ring : Nat)
  /-- R160: A discard COMMIT resets the lofts of the masked groups to the live values. -/
  | commitDiscard (ring : Nat)
  /-- R160: An abandon COMMIT withdraws the armed commit with the same mask. -/
  | commitAbandon (ring : Nat)
  /-- R193: A SNAP_CFG descriptor sets a snapshot stream's period, phase and content. -/
  | snapCfg (ring : Nat)
  /-- R151: A vault descriptor that waited for a group or for processing start is taken. -/
  | waitingDescriptorRelease (ring : Nat)
  /-- R150: A write to VLT_GROUP_DATA moves an object to another commit group, unless a group is busy. -/
  | groupChange (val : Word)
  /-- R162: At lap t plus p an element of position p exchanges the live and loft pages of its masked objects. -/
  | pageExchange (p : Nat)
  /-- R164: An object's loft refresh from the new live page completes. -/
  | loftRefreshComplete (obj : Nat) (bad : Bool)
  /-- R171: The vault reloads a slot's pages from the store and clears its state in free cycles. -/
  | slotReload (slot : Nat) (bad : List Nat)
  /-- R171: A reload completes, the recorded generation is set, and the objects warm up. -/
  | reloadComplete (slot : Nat)
  /-- R173: From lap e plus p_tile plus 1 the engine writes a snapshot into the next SNAPSHOT buffer and the snapshot area. -/
  | snapshotWrite (stream : Nat)
  /-- R186: A write to a ring's doorbell gives entries to the engine, or halts the ring on overrun. -/
  | doorbellWrite (off size : Nat) (write : Bool) (val : Word)
  /-- R187: The engine takes the next owned entry of a ring in ring order. -/
  | descriptorTake (ring : Nat) (entries : List (List Word))
  /-- R185: Setting HST_RCTRL.en enables a ring, or the engine refuses and records the reason. -/
  | ringEnable (ring : Nat)
  /-- R200: Writing en 0 stops a ring taking entries and begins draining. -/
  | ringDisable (ring : Nat)
  /-- R200: The draining ring's descriptors in progress have completed and it is disabled. -/
  | ringDrained (ring : Nat)
  /-- R199: A host memory read that does not complete within cto completes its descriptor and halts the ring. -/
  | hostReadTimeout (ring : Nat) (of : Option Nat)
  /-- R199: A host memory read that completes in error completes its descriptor and halts the ring. -/
  | hostReadError (ring : Nat) (of : Option Nat)
  /-- R179: A change of Bus Master Enable stalls or resumes the rings and sends pending messages. -/
  | busMasterEnable (on : Bool)
  /-- R202: HST_RMOD.laps laps pass after the first unsignalled completion and the ring signals its vector. -/
  | moderationTimer (ring : Nat)
  /-- R194: A posted SNAPSHOT buffer is taken for the next snapshot of its ring. -/
  | snapshotBuffer (ring : Nat)
  /-- R197: An AUDIO_PLAY descriptor gives frames media sample counts and its data is fetched before their capture laps. -/
  | audioPlay (ring : Nat) (data : List Byte)
  /-- R198: A posted AUDIO_REC buffer starts or continues a record ring. -/
  | audioRec (ring : Nat)
  /-- R194: A FRAME_TX descriptor queues a host frame for transmission on one or both ports. -/
  | frameTx (ring : Nat) (data : List Byte)
  /-- R194: A posted FRAME_RX_BUF buffer is taken to receive a host frame. -/
  | frameRxBuf (ring : Nat)
  /-- R194: A posted EVENT buffer is taken to hold the next event record. -/
  | eventBuffer (ring : Nat)
  /-- R194: A posted HEALTH buffer is taken to hold the next health record. -/
  | healthBuffer (ring : Nat)
  /-- R367: An SVC_CALL descriptor asks runner firmware for a service; an unknown service completes REJECTED. -/
  | svcCall (ring : Nat) (req : List Byte)
  /-- R367: Service 0x0001 returns the firmware identity and the image header hash. -/
  | getIdent (ring : Nat)
  /-- R367: Service 0x0010 returns the state of a PTP instance. -/
  | ptpState (ring : Nat)
  /-- R367: Service 0x0020 returns a port's multicast memberships. -/
  | mcastList (ring : Nat)
  /-- R367: Service 0x0030 reads 256 bytes from an SFP module. -/
  | sfpRead (ring : Nat) (data : Option (List Byte))
  /-- R367: Service 0x00F0 returns the request unchanged. -/
  | echo (ring : Nat)
  /-- R210: A mover HALT clears H and the counters and halts the mover, setting its event bit with irq. -/
  | halt (m : Nat) (fetch : Ecc)
  /-- R213: A MOVE reads source elements and writes destination elements through the holding register in raw or sample mode. -/
  | move (m : Nat) (fetch : Ecc) (ecc : List (Nat × CellEcc))
  /-- R210: A LOOP arms or decrements its counter and branches while it is not zero. -/
  | loop (m : Nat) (fetch : Ecc)
  /-- R211: A WAIT ends the activation until its pacer, request, time or signal event. -/
  | wait (m : Nat) (fetch : Ecc)
  /-- R210: A SIGNAL waits for its writes to be acknowledged and sets the receiver's inbox bit. -/
  | signal (m : Nat) (fetch : Ecc)
  /-- R210: A JUMP branches on its condition. -/
  | jump (m : Nat) (fetch : Ecc)
  /-- R211: A waiting mover's event occurs and a new activation begins. -/
  | waitSatisfied (m : Nat)
  /-- R211: A WAIT unsatisfied after its timeout in laps sets the timed-out bit and continues. -/
  | waitTimeout (m : Nat)
  /-- R216: A paced MOVE issues its next burst once its request line is asserted. -/
  | pacedBurst (m : Nat) (ecc : List (Nat × CellEcc)) (withdrawn : Nat)
  /-- R217: MOV_CTL cmd 1 starts a halted or faulted mover at its entry. -/
  | moverStart (who : Agent) (m : Nat) (val : Word)
  /-- R217: MOV_CTL cmd 2 stops a mover after its current burst. -/
  | moverStop (who : Agent) (m : Nat) (val : Word)
  /-- R217: A start with start_lap begins execution after the next lap boundary. -/
  | moverStartAtLap (m : Nat)
  /-- R218: The keeper restarts a faulted system mover at its entry at the next lap boundary. -/
  | systemMoverRestart (m : Nat)
  /-- R220: A host write of 1 to MOV_INBOX sets an inbox bit as a SIGNAL would. -/
  | inboxWrite (who : Agent) (m : Nat) (val : Word)
  /-- R220: A write to a user instruction of the program memory, ignored below pmem_lim. -/
  | programMemoryWrite (who : Agent) (off : Nat) (val : Word)
  /-- R207: A write of an address register length takes effect at once or is held pending until its wrap. -/
  | moverLenWrite (who : Agent) (m r : Nat) (val : Word)
  /-- R224: CEL_ALLOC_CMD cmd 1 allocates a run of shelves to an owner and clears them. -/
  | allocate (who : Agent) (mirror hostWr firstFit : Bool)
  /-- R225: CEL_ALLOC_CMD cmd 2 frees an owner's allocation. -/
  | free (who : Agent)
  /-- R225: CEL_ALLOC_CMD cmd 3 grows, shrinks or relocates an allocation. -/
  | resize (who : Agent) (firstFit : Bool)
  /-- R225: After its copy, a relocated delay line switches to the new run and the old run is freed. -/
  | relocationSwitch (kind index : Nat)
  /-- R222: The keeper writes a physical bank's owner class. -/
  | bankOwnerWrite (bank : Nat) (val : Word)
  /-- R222: A bank's owner change takes effect after its admitted pieces complete. -/
  | bankHandover (bank : Nat)
  /-- R230: A bank arbiter picks the next piece of a burst and serves it without interleaving. -/
  | cellarPiece (master target addr : Nat) (write : Bool) (data : List Byte) (waited : Bool) (ecc : List (Nat × CellEcc)) (cut : Option Nat)
  /-- R233: A target that does not answer within 4096 CLK_F cycles is answered BUS_ERR. -/
  | crossbarTimeout (master target addr : Nat) (write : Bool)
  /-- R245: APT_CTL cmd 1 enables a port and begins acquisition, or refuses it. -/
  | portStart (p : Nat)
  /-- R246: APT_CTL cmd 2 fades every channel of a port to zero with clocks running. -/
  | portStop (p : Nat)
  /-- R246: APT_CTL cmd 3 stops a master port's clocks after any stop fade. -/
  | portStopClocks (p : Nat)
  /-- R245: APT_CTL cmd 4 starts acquisition of a disqualified side. -/
  | portAcquire (p : Nat)
  /-- R251: APT_CTL cmd 5 copies a transmitter's channel status staging table into use at the next block start. -/
  | csLoad (p : Nat)
  /-- R240: A TDM frame received on a slave or master input side is assigned to a media sample count. -/
  | tdmFrameIn (p : Nat) (time : Int) (edge : FsEdge) (bits : List Bool)
  /-- R240: A TDM output side sends the frame of a count at its nominal or measured start. -/
  | tdmFrameOut (p : Nat) (time : Int)
  /-- R249: An AES3 receiver decodes a subframe into its channel's sample. -/
  | aes3SubframeIn (r ch : Nat) (time : Int) (frac : Nat) (sub : SubFrame)
  /-- R251: An AES3 transmitter sends a frame at its nominal instant. -/
  | aes3FrameOut (r : Nat) (time : Int)
  /-- R244: No frame start for two frame periods fades the side and marks the port lost. -/
  | portClockStop (p : Nat)
  /-- R245: A lost or disqualified clock returns and, with auto_acq, acquisition begins. -/
  | portClockReturn (p : Nat)
  /-- R245: After the starting blocks are met, a port's data is enabled at the next lap boundary. -/
  | portDataEnable (p : Nat)
  /-- R245: A channel that finds no crossing by search sample T fades in over 32 samples. -/
  | unmuteTimeout (p ch : Nat) (sample : A48)
  /-- R246: A stop fade ends; a held start or clock stop takes effect at the next lap boundary. -/
  | stopFadeEnd (p : Nat)
  /-- R254: An access to APT_CS_DATA or STM_CS_DATA reads or writes a byte and increments the byte address. -/
  | csDataAccess (stm : Bool) (write : Bool) (val : Byte)
  /-- R255: A network port's PCS block lock changes and its link goes up or down. -/
  | linkChange (port : Nat) (up : Bool)
  /-- R255: NTx_LOS or NTx_MOD_ABS changes and sets sfp_change. -/
  | sfpSignalChange (port : Nat) (los modAbs : Bool)
  /-- R256: Writing NTx_I2C.go starts one single-byte I2C transfer. -/
  | i2cGo (port : Nat) (val : Word)
  /-- R256: An I2C transfer ends, with nack when unacknowledged. -/
  | i2cDone (port : Nat) (rdata : Byte) (nack : Bool)
  /-- R263: A received network frame is classified and passed to PTP, a context, runners, the host, or dropped. -/
  | networkFrameReceive (port : Nat) (cyc sub align : Nat) (frame : List Byte)
  /-- R266: A context that stores no packet for rx_timeout laps is lost. -/
  | streamLost (ctx : Nat)
  /-- R269: An ST 2022-7 path with no packet for rx_timeout laps goes down. -/
  | pathDown (ctx path : Nat)
  /-- R267: After k reaches 0 the new D_rx takes effect at the next lap boundary. -/
  | drxTakeEffect (ctx : Nat)
  /-- R268: At the next wrap of the read pointer the new len takes effect, discarding samples if needed. -/
  | lenTakeEffect (ctx : Nat)
  /-- R271: A transmit context's packet falls due and is sent on its paths. -/
  | packetTransmit (ctx : Nat)
  /-- R276: An egress queue sends its next frame in strict priority once the port is idle. -/
  | egressFrame (port : Nat) (cyc sub : Nat)
  /-- R277: Runner firmware sends an IGMPv3 membership report for a context's group. -/
  | igmpReport (ctx : Nat)
  /-- R283: A read of TIM_NOW_NS latches the seconds and fraction of the same CLK_T cycle. -/
  | timeLatchRead (cyc : Nat)
  /-- R284: Runner firmware sets the local clock from the first valid PTP offset. -/
  | clockAutoset (inst : Nat) (cyc : Nat)
  /-- R294: TIM_CMD cmd 2 fixes an epoch step and begins to mute streams, or is refused. -/
  | acceptEpoch (inst : Nat)
  /-- R290: No Sync within announceReceiptTimeout makes the instance's slot inactive. -/
  | announceTimeout (inst : Nat) (announces : Bool)
  /-- R287: A master-state instance sends Sync and Follow_Up at its sync interval. -/
  | ptpSyncTransmit (inst : Nat)
  /-- R296: A write of arm 1 latches a timed output's settings, or is refused. -/
  | toutArm (n : Nat) (cyc : Nat) (val : Word)
  /-- R296: A timed output fires when the local clock reaches its trigger. -/
  | toutFire (n : Nat) (cyc : Nat)
  /-- R297: A selected edge on a capture input records the local clock in its FIFO. -/
  | tcapEdge (n : Nat) (cyc : Nat) (rising held : Bool)
  /-- R297: A read of TIM_TCAPn_NS pops the oldest capture and latches its seconds. -/
  | tcapPop (n : Nat)
  /-- R318: Every 1 ms the DPLL judges samples, qualifies slots, selects, builds out and steps phase. -/
  | dpllTick (cyc : Nat)
  /-- R300: A reference edge, marker or PTP offset yields a phase sample for its slot. -/
  | refSample (slot : Nat) (cyc sub : Nat) (falling : Bool)
  /-- R302: A slot clean for qual_s seconds becomes qualified. -/
  | refQualify (slot : Nat)
  /-- R316: A write to DPL_PSTEP adds to the remaining phase step. -/
  | phaseStepWrite (val : Word)
  /-- R318: A write of a slot's rank, NUM, DEN, OFS or falling disqualifies it and clears its histories. -/
  | refConfigWrite (off : Nat) (val : Word)
  /-- R319: A write of align 1 fixes a frame output's grid point and restarts it. -/
  | fpAlign (n : Nat) (cyc : Nat)
  /-- R319: A frame or pulse output begins a pulse at its grid instant. -/
  | fpPulse (n : Nat) (cyc : Nat)
  /-- R325: A synthesizer is locked after 4 096 consecutive in-window cycles. -/
  | synthLock (b : Bool)
  /-- R325: A synthesizer that stays locked for settle_us is settled. -/
  | synthSettled (b : Bool)
  /-- R325: A synthesizer loses lock after 4 consecutive out-of-window cycles. -/
  | synthUnlock (b : Bool) (cyc : Nat)
  /-- R328: XO_IN stops and every root clock is gated. -/
  | xoInLoss (cyc : Nat)
  /-- R332: SYN_RATE_CMD cmd 1 puts a staged rate in force or begins a muted rate change, or is refused. -/
  | rateApply (cyc : Nat)
  /-- R332: At the boundary of lap a plus F plus 1 the processing clocks are gated and synthesizers programmed. -/
  | rateGate (cyc : Nat)
  /-- R332: Clocks return to the root, the pacer anchors, and tiles, ports and streams restart. -/
  | rateRestart (cyc : Nat)
  /-- R339: The ports pass self-test and the engine waits in state ready, bypassed. -/
  | selfTestDone (pass : Bool)
  /-- R339: A cascade link retrains and is measured, and the master recomputes the map. -/
  | linkTrained (port : Nat) (nbr : Nat) (map : List CascHop)
  /-- R340: An echo exchange over 16 messages yields the one-way delay of a link. -/
  | hopMeasureDone (port : Nat) (echoes : List (Nat × Nat))
  /-- R336: A lane loses block lock, its frame is discarded and the lane is marked failed. -/
  | laneLockLoss (port lane : Nat)
  /-- R342: A cascade frame received is checked and its items written to the link buffer. -/
  | cascFrameReceive (port : Nat) (frame : CascFrame) (crcBad : List Nat)
  /-- R342: A frame not complete by CLK_F cycle 24 576 is absent and counted. -/
  | cascFrameLate (port : Nat)
  /-- R356: COR_CMD cmd 1 burns anti-rollback fuses up to the running image's sv, or is refused. -/
  | svAdvance (vddFuse : Nat)
  /-- R355: COR_CMD cmd 2 verifies and loads a recovery image from a user area. -/
  | bootFromCellar (img : ImageSrc) (cal : Bands)
  /-- R357: A runner checks in with the keeper and restarts its watchdog. -/
  | runnerCheckIn (k ms : Nat)
  /-- R357: 2 ms without a check-in is a runner fault. -/
  | runnerWatchdogExpire (k ms : Nat)
  /-- R358: The keeper halts the faulted runner and moves its services to U8. -/
  | runnerFault (k ms : Nat)
  /-- R358: A faulted runner's self-test ends and it becomes the spare or is retired. -/
  | runnerRetestDone (k : Nat) (pass : Bool)
  /-- R357: A bus error taken by the keeper abandons its operation and is recorded. -/
  | keeperBusError (addr : Nat)
  /-- R360: Scheduler SETUP makes a task idle with a class. -/
  | setup (cyc k t cls : Nat)
  /-- R360: Scheduler RELEASE makes an idle task unused. -/
  | release (cyc k t : Nat)
  /-- R360: Scheduler READY queues a task or sets its again bit. -/
  | ready (cyc k t : Nat)
  /-- R360: Scheduler DELAY puts an idle task on the delay list. -/
  | delay (cyc k t d : Nat)
  /-- R360: Scheduler CANCEL returns a task to idle or clears again. -/
  | cancel (cyc k t : Nat)
  /-- R361: Scheduler TAKE gives the runner a ready task or blocks it. -/
  | take (cyc k : Nat)
  /-- R360: Scheduler DONE requeues or idles the running task. -/
  | done (cyc k t : Nat)
  /-- R364: Scheduler GRAB gives a free lock or blocks the runner. -/
  | grab (cyc k l : Nat)
  /-- R364: Scheduler DROP passes a lock on or frees it. -/
  | drop (cyc k l : Nat)
  /-- R362: A delayed task falls due at a lap boundary and moves to its ready queue. -/
  | delayDue (cyc : Nat)
  /-- R366: A statistics window ends and every statistic is latched. -/
  | statsWindowEnd (cyc : Nat)
  /-- R371: The meter takes an I2S frame from SLM_SDI and updates its weighted quantities. -/
  | meterSample (w0 w1 : Word)
  /-- R382: Meter Port command 0x01 returns the status block. -/
  | readStatus (n : Nat)
  /-- R381: Meter Port command 0x02 returns log bytes from an offset. -/
  | readLog (off n : Nat) (coll : Option Nat)
  /-- R381: Meter Port command 0x03 returns the public key in use. -/
  | readKey (n : Nat)
  /-- R381: Meter Port command 0x04 returns the configuration in use and staged. -/
  | readCfg (n : Nat)
  /-- R381: Meter Port command 0x10 writes a time note record. -/
  | setTime (sec : Word)
  /-- R381: Meter Port command 0x20 stages a configuration. -/
  | stageCfg (data : List Byte)
  /-- R379: Meter Port command 0x21 burns the staged configuration into the next slot. -/
  | commitCfg (arg : Word)
  /-- R379: Meter Port command 0x30 generates a key pair and seals the meter. -/
  | sealCmd (arg : Word)
  /-- R379: Meter Port command 0x31 breaks the seal. -/
  | unsealCmd (arg : Word)
  /-- R395: HLT_CMD cmd 1 retires a named tile by takeover, or is refused. -/
  | retireTile (tile : Nat)
  /-- R391: HLT_CMD cmd 2 or an automatic trigger begins substituting a cellar bank with a spare. -/
  | substituteBank (bank : Nat) (cmd : Bool)
  /-- R392: The keeper burns a field-repair entry for a column with repeated corrections. -/
  | fieldRepair (corrected : Nat) (spareLeft : Bool) (vddFuse : Nat)
  /-- R396: Every 1 ms the junction sensors are read and hot or over_temp may be set. -/
  | temperatureSample (temps : List Int)
  /-- R395: An ageing monitor reads below margin_thr and the tile may be retired. -/
  | marginLow (monitor slack : Nat)
  /-- R397: A missed keeper check-in resets the keeper into restricted mode. -/
  | keeperWatchdogExpire (ms : Nat)
  /-- R398: Each second the Arrhenius weight is added to the life-used count. -/
  | lifeUsedUpdate (temp : Int)
  /-- R407: POR_N release begins the start-up order from the keeper ROM. -/
  | porNRelease (src : BootSrc) (speed width : Nat)
  /-- R406: PERST_N high lets the link train and configuration requests be answered. -/
  | perstNRelease (speed width : Nat)
  /-- R408: GLB_PWR cmd 1 reserves the store, sets pages and anchors lap 0, or is refused. -/
  | startProcessing (cyc : Nat) (failed : List Nat)
  /-- R408: With auto_start the engine starts processing as soon as the start condition holds. -/
  | autoStart (cyc : Nat) (failed : List Nat)
  /-- R414: After the image reloads, the next lap boundary acts as processing start without re-anchoring. -/
  | keepResume (img : ImageSrc) (failed : List Nat)
  /-- R405: GLB_PWR cmd 5 resets the main engine except the PCIe link and restarts the start-up order. -/
  | chipReset (src : BootSrc)
  /-- R410: A reserved power command is refused with reason 1. -/
  | powerCmdReserved (cmd : Nat)
  /-- R433: A selected edge on a GPIO input sets its PAD_EVENT bit. -/
  | gpioEdge (n : Nat) (level : Bool)
  /-- R397: The keeper checks in with its hardware watchdog, which must happen every 10 ms. -/
  | keeperCheckIn (ms : Nat)
  /-- R290: A slave instance sends Delay_Req or Pdelay_Req at its logMinDelayReqInterval to obtain t3 and t4. -/
  | ptpDelayReqTransmit (inst : Nat)
  /-- R287: A master-state instance sends Announce messages at its announce interval with its data set values. -/
  | ptpAnnounceTransmit (inst : Nat)
  /-- R391: The keeper's test of a replaced cellar bank ends, and the bank returns to the attic or is retired. -/
  | bankTestDone (bank : Nat) (pass : Bool)
  /-- R65: The keeper's logic self-test of a failed tile ends and a passing tile becomes the heat's spare. -/
  | tileRetestDone (tile : Nat) (pass : Bool)
  /-- R16: The pacer marks a lap boundary every 51 200 CLK_P cycles and increments the lap index. -/
  | lapBoundary
  /-- R57: TIL_PLACE_CMD cmd 1 checks the staged placement and arms it for the lap in TIL_PLACE_LAP. -/
  | placeApplyAtLap
  /-- R57: TIL_PLACE_CMD cmd 2 checks the staged placement and arms it for the earliest permitted lap. -/
  | placeApplyEarliest
  /-- R57: TIL_PLACE_CMD cmd 3 abandons a pending placement apply. -/
  | placeAbandon
  /-- R58: At the target lap boundary every object takes its new slot at once. -/
  | placementTakeEffect
  /-- R87: GRF_LAYOUT_CMD cmd 1 latches the staged layout and arms it for the target lap, or refuses it. -/
  | layoutApplyAtLap
  /-- R87: GRF_LAYOUT_CMD cmd 2 latches the staged layout and arms it for the earliest permitted lap. -/
  | layoutApplyEarliest
  /-- R87: GRF_LAYOUT_CMD cmd 3 abandons an armed layout apply before its fade-out begins. -/
  | layoutAbandon
  /-- R87: At lap t minus F every sink begins to fade to silence. -/
  | layoutFadeOutStart
  /-- R87: At lap t the new layout is in force with every sink silent. -/
  | layoutTakeEffect
  /-- R87: At lap t plus S_m plus 2 every sink fades in over 32 samples. -/
  | layoutFadeInStart
  /-- R87: After the fade-in the layout state returns to idle and layout_done is set. -/
  | layoutDone
  /-- R168: In lap t minus 1 the engine distributes the baton to its tiles, spine and multiplexers. -/
  | batonDistribute
  /-- R161: At entry lap t the commit applies, the generation advances and the issuer completes the COMMIT. -/
  | entryLap
  /-- R164: At the end of the lock release lap the commit's groups open and waiting descriptors are released. -/
  | lockRelease
  /-- R170: An engine joining a ring takes the ring's generations and marks differing groups unsynced. -/
  | engineJoin
  /-- R203: A Function Level Reset resets configuration space, HST registers and rings and abandons descriptors. -/
  | functionLevelReset
  /-- R203: The reset completes within 100 ms and HST_EVENT.flr_done is set. -/
  | flrDone
  /-- R224: CEL_ALLOC_CMD cmd 4 reports an owner's allocation in CEL_ALLOC_INFO and CEL_ALLOC_TWIN. -/
  | query
  /-- R224: A command's shelves are cleared and the command is reported done. -/
  | allocComplete
  /-- R262: STM_CMD cmd 1 enables a stream context, or refuses it. -/
  | streamEnable
  /-- R262: STM_CMD cmd 2 fades a context out and releases it. -/
  | streamDisable
  /-- R267: STM_CMD cmd 3 begins to apply a new D_rx and len to a running context. -/
  | streamApplyDrxLen
  /-- R273: STM_CMD cmd 4 copies an AM824 transmit context's channel status staging table into use. -/
  | streamCsLoad
  /-- R284: TIM_CMD cmd 1 loads the local clock before processing start, or is refused. -/
  | timeSet
  /-- R294: At lap b the local clock and K step, receive buffers clear and streams resume. -/
  | epochStep
  /-- R315: Each second while locked the mean of y_out is recorded in the history. -/
  | holdoverHistory
  /-- R310: The error stays within lock_thr for lock_s seconds and the DPLL is locked. -/
  | dpllLock
  /-- R310: The error exceeds 8 lock_thr for lock_s seconds and the DPLL returns to acquiring. -/
  | dpllUnlock
  /-- R323: Every 64 XO_IN cycles the effective ratio is computed and clamped to the fence. -/
  | ratioUpdate
  /-- R329: SYN_RAMP_CTL cmd 1 latches the segments and starts a ramp, or is refused. -/
  | rampStart
  /-- R329: SYN_RAMP_CTL cmd 2 holds y_ramp at its current value. -/
  | rampAbort
  /-- R329: SYN_RAMP_CTL cmd 3 runs one segment back to 0. -/
  | rampReturn
  /-- R329: The last ramp segment ends and ramp_done is set. -/
  | rampDone
  /-- R331: A rising edge of SYNC_IN is accepted before processing start, or ignored and counted. -/
  | syncInEdge
  /-- R331: 24 XO_IN cycles after an accepted edge the root dividers are reset. -/
  | dividerReset
  /-- R332: Programming that does not complete within 20 ms sets prog_fail and the keeper retries. -/
  | programTimeout
  /-- R338: EXL_CTL cmd 1 enables the cascade ports and runs their loopback self-test. -/
  | cascadeEnable
  /-- R339: EXL_CTL cmd 2 drives CASC_THRU_N low at the next lap boundary. -/
  | cascadeInsert
  /-- R339: EXL_CTL cmd 3 releases CASC_THRU_N at the next lap boundary. -/
  | cascadeWithdraw
  /-- R340: EXL_CTL cmd 4 on the master makes every engine measure its hop delays. -/
  | cascadeMeasure
  /-- R338: EXL_CTL cmd 5 releases CASC_THRU_N and disables the cascade. -/
  | cascadeDisable
  /-- R339: At the lap boundary after insert or withdraw the pin changes and links break and retrain. -/
  | bypassSwitch
  /-- R342: At CLK_F cycle 2 048 each port sends its lap frame with items and relays. -/
  | cascFrameSend
  /-- R346: Every engine carries out a ring command at its action lap. -/
  | ringCommandAction
  /-- R347: No message from the master for 16 laps makes the backup the master. -/
  | masterTimeout
  /-- R376: Power applied to the meter starts it cold with a start record of seq 0. -/
  | slmPowerOn
  /-- R370: SLM_RST_N low stops measurement and resets the meter's logic. -/
  | slmReset
  /-- R376: SLM_RST_N high restarts the meter warm, continuing the intact chain. -/
  | slmResetRelease
  /-- R373: A measurement period ends and a data record is written. -/
  | meterPeriodEnd
  /-- R382: The meter's fuse burn completes and write commands are accepted again. -/
  | fuseBurnDone
  /-- R391: After the copy the bank map switches to the spare and the old bank is tested. -/
  | bankSubstSwitch
  /-- R394: The scrubber completes a pass over every bank. -/
  | scrubPassEnd
  /-- R394: A pass not finished within its period competes for banks and sets scrub_late. -/
  | scrubLate
  /-- R400: Every period_s seconds runner firmware writes a health record or counts it lost. -/
  | healthRecord
  /-- R405: POR_N low resets the whole main engine. -/
  | porNAssert
  /-- R405: PERST_N low resets the host interface as a Function Level Reset and takes the link down. -/
  | perstNAssert
  /-- R411: GLB_PWR cmd 2 fades ports and streams toward QUIET. -/
  | enterQuiet
  /-- R411: At the boundary of lap a plus F plus 1 the tiles are gated and the state becomes QUIET. -/
  | quietGate
  /-- R412: GLB_PWR cmd 3 begins the return from QUIET or KEEP to RUN. -/
  | returnToRun
  /-- R412: At the boundary of lap b plus 1 tiles are ungated, movers restart and slots reload. -/
  | tileUngate
  /-- R412: At the boundary of lap b plus 5 ports and contexts enable data and the state becomes RUN. -/
  | runResume
  /-- R413: GLB_PWR cmd 4 powers down the engine to KEEP, or is refused while a ring is enabled. -/
  | enterKeep
  /-- R410: Removal of the main rails puts the engine OFF while the meter runs on. -/
  | mainPowerRemove
  /-- R328: XO_IN oscillates again after a loss, so the keeper can program a synthesizer and the pacer can restart. -/
  | xoInReturn
  /-- R370: VDD_SLM or VDDIO_SLM is removed, the meter stops and its log RAM loses its contents. -/
  | slmPowerRemove
  /-- R405: A keeper fuse burn for anti-rollback or field repair completes, and a chip reset held behind it takes effect. -/
  | keeperFuseBurnDone
  deriving DecidableEq, Repr

end Sys2Proof
end

