-- ==== Sys2Proof/Decode.lean ====
section
/-! DEFINITION. Decoding of table words: the table of operations and events gives its rows no bits. -/

namespace Sys2Proof

/-- The command a word of the table spells. The table gives no row any bits, so no word spells one. -/
def decodeTableWord (_nbits _w : Nat) : Option Instr := none

end Sys2Proof
end

