-- ==== Sys2Proof/Config.lean ====
section
/-! DEFINITION. The free values: what the spec leaves open and the machine goes on after. Each is a constant
without a body, so that nothing can be proved of its value. A fresh one is drawn by applying it to the
counter State holds. -/

namespace Sys2Proof.Config

/-- An open value of w bits, the n-th drawn. -/
opaque freeBits : (w : Nat) → (n : Nat) → BitVec w

/-- An open signed number, the n-th drawn. -/
opaque freeInt : (n : Nat) → Int

/-- The checksum of a channel-ownership table that a control message carries (R344): its form is open. -/
opaque tableSum : (table : List (BitVec 32)) → Nat

/-- Fields of the frames that the engine forms and for which the spec states no value: 0 the identification of an IPv4
packet, 1 its flags (DF or none), 2 the DSCP of PTP messages, 3 that of IGMP reports; of an Announce 4
offsetScaledLogVariance, 5 currentUtcOffset, 6 timeSource and 7 the flags. -/
opaque frameField : (field : Nat) → Nat

/-- Which parameter (its ID, R146) stands at a word of the pages of a slot that holds the objects listed (R147): the layout
of the P banks is open. -/
opaque pageParam : (objs : List Nat) → (word : Nat) → Nat

/-- The shelves of the cascade's link buffer: the spec states no number (R223). -/
opaque linkShelves : Nat

end Sys2Proof.Config
end

