-- ==== Sys2Proof/Machine/RegFields.lean ====
section
/-! DEFINITION. The name of every field of every BAR0 register (R435 gives the offsets, the rule named
beside each block its fields). Written from the register tables of the spec. -/

namespace Sys2Proof.Machine

/-- A field of a BAR0 register: the register's offset in BAR0, the lowest bit and the width. -/
structure Fld where
  off : Nat
  lo : Nat
  width : Nat
  deriving DecidableEq, Repr

end Sys2Proof.Machine

namespace Sys2Proof.Machine.Reg

-- GLB block, R416 (21_startup_reset_power.md)
def GLB_ID_id : Fld := ⟨0x0, 0, 32⟩
def GLB_STEP_step : Fld := ⟨0x4, 0, 32⟩
def GLB_CFG_auto_start : Fld := ⟨0x8, 0, 1⟩
def GLB_PWR_cmd : Fld := ⟨0xC, 0, 3⟩
def GLB_PWR_STATUS_state : Fld := ⟨0x10, 0, 3⟩
def GLB_PWR_STATUS_reason : Fld := ⟨0x10, 4, 4⟩
def GLB_EVENT_ev : Fld := ⟨0x14, 0, 3⟩
def GLB_EVENT_EN_en : Fld := ⟨0x18, 0, 3⟩
def GLB_INT_SUM_blocks : Fld := ⟨0x1C, 0, 21⟩
def GLB_RESET_CAUSE_por : Fld := ⟨0x20, 0, 1⟩
def GLB_RESET_CAUSE_chip : Fld := ⟨0x20, 1, 1⟩
def GLB_RESET_CAUSE_perst : Fld := ⟨0x20, 2, 1⟩
def GLB_RESET_CAUSE_flr : Fld := ⟨0x20, 3, 1⟩

-- SYN block, R334 (16_clock_synthesis.md)
def SYN_CFG_lock_win : Fld := ⟨0x1000, 0, 2⟩
def SYN_CFG_takeover_en : Fld := ⟨0x1000, 2, 1⟩
def SYN_CFG_sync_en : Fld := ⟨0x1000, 3, 1⟩
def SYN_CFG_settle_us : Fld := ⟨0x1000, 16, 12⟩
def SYN_STATUS_active : Fld := ⟨0x1004, 0, 1⟩
def SYN_STATUS_lock_a : Fld := ⟨0x1004, 1, 1⟩
def SYN_STATUS_lock_b : Fld := ⟨0x1004, 2, 1⟩
def SYN_STATUS_spare_ok : Fld := ⟨0x1004, 3, 1⟩
def SYN_STATUS_gated : Fld := ⟨0x1004, 4, 1⟩
def SYN_STATUS_prog : Fld := ⟨0x1004, 5, 3⟩
def SYN_STATUS_band_a : Fld := ⟨0x1004, 8, 6⟩
def SYN_STATUS_band_b : Fld := ⟨0x1004, 16, 6⟩
def SYN_EVENT_ev : Fld := ⟨0x1008, 0, 10⟩
def SYN_EVENT_EN_en : Fld := ⟨0x100C, 0, 10⟩
def SYN_RATE_fam : Fld := ⟨0x1010, 0, 1⟩
def SYN_RATE_mult : Fld := ⟨0x1010, 1, 2⟩
def SYN_RATE_CMD_cmd : Fld := ⟨0x1014, 0, 1⟩
def SYN_RATE_CMD_reason : Fld := ⟨0x1014, 4, 2⟩
def SYN_MNOM_LO_frac : Fld := ⟨0x1018, 0, 32⟩
def SYN_MNOM_HI_frac : Fld := ⟨0x101C, 0, 8⟩
def SYN_MNOM_HI_int : Fld := ⟨0x101C, 8, 8⟩
def SYN_MEFF_LO_frac : Fld := ⟨0x1020, 0, 32⟩
def SYN_MEFF_HI_frac : Fld := ⟨0x1024, 0, 8⟩
def SYN_MEFF_HI_int : Fld := ⟨0x1024, 8, 8⟩
def SYN_RAMP_CTL_cmd : Fld := ⟨0x1028, 0, 2⟩
def SYN_RAMP_CTL_nseg_m1 : Fld := ⟨0x1028, 2, 3⟩
def SYN_RAMP_CTL_ret_laps : Fld := ⟨0x1028, 8, 24⟩
def SYN_RAMP_STAT_state : Fld := ⟨0x102C, 0, 2⟩
def SYN_RAMP_STAT_seg : Fld := ⟨0x102C, 2, 3⟩
def SYN_RAMP_NOW_y : Fld := ⟨0x1030, 0, 32⟩
def SYN_SYNC_COUNT_accepted : Fld := ⟨0x1034, 0, 16⟩
def SYN_SYNC_COUNT_ignored : Fld := ⟨0x1034, 16, 16⟩
def SYN_RAMP_Y_y (n : Nat) : Fld := ⟨0x1040 + 0x8 * n, 0, 32⟩
def SYN_RAMP_D_laps (n : Nat) : Fld := ⟨0x1044 + 0x8 * n, 0, 24⟩
def SYN_BANDA_lo (n : Nat) : Fld := ⟨0x1100 + 0x4 * n, 0, 16⟩
def SYN_BANDA_hi (n : Nat) : Fld := ⟨0x1100 + 0x4 * n, 16, 16⟩
def SYN_BANDB_lo (n : Nat) : Fld := ⟨0x1200 + 0x4 * n, 0, 16⟩
def SYN_BANDB_hi (n : Nat) : Fld := ⟨0x1200 + 0x4 * n, 16, 16⟩

-- DPL block, R321 (15_reference_selection.md)
def DPL_CFG_mode : Fld := ⟨0x2000, 0, 2⟩
def DPL_CFG_revertive : Fld := ⟨0x2000, 2, 1⟩
def DPL_CFG_witness : Fld := ⟨0x2000, 4, 4⟩
def DPL_CFG_force_slot : Fld := ⟨0x2000, 8, 3⟩
def DPL_CFG_acq_bw : Fld := ⟨0x2000, 16, 5⟩
def DPL_CFG_trk_bw : Fld := ⟨0x2000, 21, 5⟩
def DPL_QUAL_qual_s : Fld := ⟨0x2004, 0, 12⟩
def DPL_QUAL_freq_tol : Fld := ⟨0x2004, 12, 4⟩
def DPL_QUAL_freq_win : Fld := ⟨0x2004, 16, 3⟩
def DPL_DRIFT_drift_thr : Fld := ⟨0x2008, 0, 16⟩
def DPL_DRIFT_drift_win : Fld := ⟨0x2008, 16, 16⟩
def DPL_HOLD_guard_s : Fld := ⟨0x200C, 0, 12⟩
def DPL_HOLD_avg_s : Fld := ⟨0x200C, 16, 12⟩
def DPL_LOCK_lock_thr : Fld := ⟨0x2010, 0, 16⟩
def DPL_LOCK_lock_s : Fld := ⟨0x2010, 16, 8⟩
def DPL_SLEW_slew : Fld := ⟨0x2014, 0, 16⟩
def DPL_EQ_eq_thr : Fld := ⟨0x2018, 0, 16⟩
def DPL_STATUS_state : Fld := ⟨0x201C, 0, 3⟩
def DPL_STATUS_sel_valid : Fld := ⟨0x201C, 3, 1⟩
def DPL_STATUS_sel : Fld := ⟨0x201C, 4, 3⟩
def DPL_STATUS_hold_valid : Fld := ⟨0x201C, 7, 1⟩
def DPL_STATUS_bw_eff : Fld := ⟨0x201C, 8, 5⟩
def DPL_STATUS_qualified : Fld := ⟨0x201C, 16, 8⟩
def DPL_STATUS_outvoted : Fld := ⟨0x201C, 24, 8⟩
def DPL_EVENT_ev : Fld := ⟨0x2020, 0, 14⟩
def DPL_EVENT_EN_en : Fld := ⟨0x2024, 0, 14⟩
def DPL_YOUT_y : Fld := ⟨0x2028, 0, 32⟩
def DPL_HOLD_Y_y : Fld := ⟨0x202C, 0, 32⟩
def DPL_PSTEP_ns : Fld := ⟨0x2030, 0, 32⟩
def DPL_PSTEP_REM_ns : Fld := ⟨0x2034, 0, 32⟩
def DPL_WCMP_SLOT_slot : Fld := ⟨0x2038, 0, 3⟩
def DPL_WCMP_SLOT_xo : Fld := ⟨0x2038, 3, 1⟩
def DPL_WCMP_SLOT_valid : Fld := ⟨0x2038, 4, 1⟩
def DPL_WCMP_SLOT_no_witness : Fld := ⟨0x2038, 5, 1⟩
def DPL_WCMP_REF_ns : Fld := ⟨0x203C, 0, 32⟩
def DPL_WCMP_WIT_ns : Fld := ⟨0x2040, 0, 32⟩
def DPL_REF_CFG_rank (n : Nat) : Fld := ⟨0x2100 + 0x40 * n, 0, 4⟩
def DPL_REF_CFG_follow (n : Nat) : Fld := ⟨0x2100 + 0x40 * n, 4, 1⟩
def DPL_REF_CFG_falling (n : Nat) : Fld := ⟨0x2100 + 0x40 * n, 5, 1⟩
def DPL_REF_CFG_act_to (n : Nat) : Fld := ⟨0x2100 + 0x40 * n, 8, 4⟩
def DPL_REF_NUM_num (n : Nat) : Fld := ⟨0x2104 + 0x40 * n, 0, 32⟩
def DPL_REF_DEN_den (n : Nat) : Fld := ⟨0x2108 + 0x40 * n, 0, 16⟩
def DPL_REF_OFS_ofs (n : Nat) : Fld := ⟨0x210C + 0x40 * n, 0, 30⟩
def DPL_REF_JUMP_thr (n : Nat) : Fld := ⟨0x2110 + 0x40 * n, 0, 16⟩
def DPL_REF_STAT_state (n : Nat) : Fld := ⟨0x2114 + 0x40 * n, 0, 3⟩
def DPL_REF_STAT_outvoted (n : Nat) : Fld := ⟨0x2114 + 0x40 * n, 3, 1⟩
def DPL_REF_STAT_clean_s (n : Nat) : Fld := ⟨0x2114 + 0x40 * n, 8, 12⟩
def DPL_REF_FREQ_y (n : Nat) : Fld := ⟨0x2118 + 0x40 * n, 0, 32⟩
def DPL_REF_PHASE_ns (n : Nat) : Fld := ⟨0x211C + 0x40 * n, 0, 32⟩
def DPL_REF_BO_ns (n : Nat) : Fld := ⟨0x2120 + 0x40 * n, 0, 32⟩
def DPL_REF_GLITCH_count (n : Nat) : Fld := ⟨0x2124 + 0x40 * n, 0, 32⟩
def DPL_REF_DISQ_count (n : Nat) : Fld := ⟨0x2128 + 0x40 * n, 0, 32⟩
def DPL_FP_CFG_en (n : Nat) : Fld := ⟨0x2300 + 0x20 * n, 0, 1⟩
def DPL_FP_CFG_pol (n : Nat) : Fld := ⟨0x2300 + 0x20 * n, 1, 1⟩
def DPL_FP_CFG_width (n : Nat) : Fld := ⟨0x2300 + 0x20 * n, 8, 24⟩
def DPL_FP_NUM_num (n : Nat) : Fld := ⟨0x2304 + 0x20 * n, 0, 32⟩
def DPL_FP_DEN_den (n : Nat) : Fld := ⟨0x2308 + 0x20 * n, 0, 16⟩
def DPL_FP_OFS_ofs (n : Nat) : Fld := ⟨0x230C + 0x20 * n, 0, 30⟩
def DPL_FP_CTL_align (n : Nat) : Fld := ⟨0x2310 + 0x20 * n, 0, 1⟩
def DPL_FP_CTL_state (n : Nat) : Fld := ⟨0x2310 + 0x20 * n, 8, 2⟩

-- TIM block, R298 (14_network_time.md)
def TIM_CFG_no_autoset : Fld := ⟨0x3000, 0, 1⟩
def TIM_CFG_xcmp_thr : Fld := ⟨0x3000, 16, 16⟩
def TIM_STATUS_run : Fld := ⟨0x3004, 0, 1⟩
def TIM_STATUS_epoch_pending : Fld := ⟨0x3004, 1, 1⟩
def TIM_EVENT_ev : Fld := ⟨0x3008, 0, 9⟩
def TIM_EVENT_EN_en : Fld := ⟨0x300C, 0, 9⟩
def TIM_NOW_NS_ns : Fld := ⟨0x3010, 0, 30⟩
def TIM_NOW_SEC_LO_sec : Fld := ⟨0x3014, 0, 32⟩
def TIM_NOW_SEC_HI_sec : Fld := ⟨0x3018, 0, 16⟩
def TIM_NOW_FNS_fns : Fld := ⟨0x301C, 0, 32⟩
def TIM_INC_LO_frac : Fld := ⟨0x3020, 0, 32⟩
def TIM_INC_HI_ns : Fld := ⟨0x3024, 0, 4⟩
def TIM_SET_NS_ns : Fld := ⟨0x3028, 0, 30⟩
def TIM_SET_SEC_LO_sec : Fld := ⟨0x302C, 0, 32⟩
def TIM_SET_SEC_HI_sec : Fld := ⟨0x3030, 0, 16⟩
def TIM_CMD_cmd : Fld := ⟨0x3034, 0, 2⟩
def TIM_CMD_inst : Fld := ⟨0x3034, 2, 1⟩
def TIM_ANCHOR_LO_k : Fld := ⟨0x3038, 0, 32⟩
def TIM_ANCHOR_HI_k : Fld := ⟨0x303C, 0, 32⟩
def TIM_XCMP_ns : Fld := ⟨0x3040, 0, 32⟩
def TIM_TEV_fired : Fld := ⟨0x3044, 0, 8⟩
def TIM_TEV_ovf : Fld := ⟨0x3044, 8, 8⟩
def TIM_TEV_EN_en : Fld := ⟨0x3048, 0, 16⟩
def TIM_PTP_CFG_role (n : Nat) : Fld := ⟨0x3100 + 0x80 * n, 0, 2⟩
def TIM_PTP_CFG_profile (n : Nat) : Fld := ⟨0x3100 + 0x80 * n, 2, 1⟩
def TIM_PTP_CFG_dmech (n : Nat) : Fld := ⟨0x3100 + 0x80 * n, 3, 1⟩
def TIM_PTP_CFG_transport (n : Nat) : Fld := ⟨0x3100 + 0x80 * n, 4, 1⟩
def TIM_PTP_CFG_domain (n : Nat) : Fld := ⟨0x3100 + 0x80 * n, 8, 8⟩
def TIM_PTP_CFG_davg (n : Nat) : Fld := ⟨0x3100 + 0x80 * n, 16, 4⟩
def TIM_PTP_INTV_log_sync (n : Nat) : Fld := ⟨0x3104 + 0x80 * n, 0, 4⟩
def TIM_PTP_INTV_log_ann (n : Nat) : Fld := ⟨0x3104 + 0x80 * n, 4, 4⟩
def TIM_PTP_INTV_log_dreq (n : Nat) : Fld := ⟨0x3104 + 0x80 * n, 8, 4⟩
def TIM_PTP_INTV_ann_to (n : Nat) : Fld := ⟨0x3104 + 0x80 * n, 12, 4⟩
def TIM_PTP_DS_prio1 (n : Nat) : Fld := ⟨0x3108 + 0x80 * n, 0, 8⟩
def TIM_PTP_DS_prio2 (n : Nat) : Fld := ⟨0x3108 + 0x80 * n, 8, 8⟩
def TIM_PTP_DS_class_lock (n : Nat) : Fld := ⟨0x3108 + 0x80 * n, 16, 8⟩
def TIM_PTP_DS_class_hold (n : Nat) : Fld := ⟨0x3108 + 0x80 * n, 24, 8⟩
def TIM_PTP_THR_step_thr (n : Nat) : Fld := ⟨0x310C + 0x80 * n, 0, 16⟩
def TIM_PTP_THR_asym_thr (n : Nat) : Fld := ⟨0x310C + 0x80 * n, 16, 16⟩
def TIM_PTP_CORR_tx (n : Nat) : Fld := ⟨0x3110 + 0x80 * n, 0, 16⟩
def TIM_PTP_CORR_rx (n : Nat) : Fld := ⟨0x3110 + 0x80 * n, 16, 16⟩
def TIM_PTP_LAT_tx (n : Nat) : Fld := ⟨0x3114 + 0x80 * n, 0, 16⟩
def TIM_PTP_LAT_rx (n : Nat) : Fld := ⟨0x3114 + 0x80 * n, 16, 16⟩
def TIM_PTP_STATE_state (n : Nat) : Fld := ⟨0x3118 + 0x80 * n, 0, 4⟩
def TIM_PTP_STATE_valid (n : Nat) : Fld := ⟨0x3118 + 0x80 * n, 4, 1⟩
def TIM_PTP_STATE_stepped (n : Nat) : Fld := ⟨0x3118 + 0x80 * n, 5, 1⟩
def TIM_PTP_STATE_foreign (n : Nat) : Fld := ⟨0x3118 + 0x80 * n, 8, 4⟩
def TIM_PTP_OFS_ns (n : Nat) : Fld := ⟨0x311C + 0x80 * n, 0, 32⟩
def TIM_PTP_MPD_ns (n : Nat) : Fld := ⟨0x3120 + 0x80 * n, 0, 32⟩
def TIM_PTP_GM_LO_id (n : Nat) : Fld := ⟨0x3124 + 0x80 * n, 0, 32⟩
def TIM_PTP_GM_HI_id (n : Nat) : Fld := ⟨0x3128 + 0x80 * n, 0, 32⟩
def TIM_PTP_STEP_ns (n : Nat) : Fld := ⟨0x312C + 0x80 * n, 0, 32⟩
def TIM_PTP_DSTEP_ns (n : Nat) : Fld := ⟨0x3130 + 0x80 * n, 0, 32⟩
def TIM_PTP_DROP_count (n : Nat) : Fld := ⟨0x3134 + 0x80 * n, 0, 32⟩
def TIM_TOUT_CFG_arm (n : Nat) : Fld := ⟨0x3200 + 0x20 * n, 0, 1⟩
def TIM_TOUT_CFG_periodic (n : Nat) : Fld := ⟨0x3200 + 0x20 * n, 1, 1⟩
def TIM_TOUT_CFG_oe (n : Nat) : Fld := ⟨0x3200 + 0x20 * n, 2, 1⟩
def TIM_TOUT_CFG_pol (n : Nat) : Fld := ⟨0x3200 + 0x20 * n, 3, 1⟩
def TIM_TOUT_CFG_shape (n : Nat) : Fld := ⟨0x3200 + 0x20 * n, 4, 2⟩
def TIM_TOUT_NS_ns (n : Nat) : Fld := ⟨0x3204 + 0x20 * n, 0, 30⟩
def TIM_TOUT_SEC_LO_sec (n : Nat) : Fld := ⟨0x3208 + 0x20 * n, 0, 32⟩
def TIM_TOUT_SEC_HI_sec (n : Nat) : Fld := ⟨0x320C + 0x20 * n, 0, 16⟩
def TIM_TOUT_PER_NS_ns (n : Nat) : Fld := ⟨0x3210 + 0x20 * n, 0, 32⟩
def TIM_TOUT_PER_FRAC_frac (n : Nat) : Fld := ⟨0x3214 + 0x20 * n, 0, 32⟩
def TIM_TOUT_WIDTH_cycles (n : Nat) : Fld := ⟨0x3218 + 0x20 * n, 0, 24⟩
def TIM_TOUT_STAT_late (n : Nat) : Fld := ⟨0x321C + 0x20 * n, 0, 1⟩
def TIM_TOUT_STAT_refused (n : Nat) : Fld := ⟨0x321C + 0x20 * n, 1, 1⟩
def TIM_TOUT_STAT_skipped (n : Nat) : Fld := ⟨0x321C + 0x20 * n, 16, 16⟩
def TIM_TCAP_CFG_edge (n : Nat) : Fld := ⟨0x3300 + 0x10 * n, 0, 2⟩
def TIM_TCAP_CFG_filt (n : Nat) : Fld := ⟨0x3300 + 0x10 * n, 2, 1⟩
def TIM_TCAP_NS_ns (n : Nat) : Fld := ⟨0x3304 + 0x10 * n, 0, 30⟩
def TIM_TCAP_NS_rising (n : Nat) : Fld := ⟨0x3304 + 0x10 * n, 30, 1⟩
def TIM_TCAP_NS_valid (n : Nat) : Fld := ⟨0x3304 + 0x10 * n, 31, 1⟩
def TIM_TCAP_SEC_LO_sec (n : Nat) : Fld := ⟨0x3308 + 0x10 * n, 0, 32⟩
def TIM_TCAP_SEC_HI_sec (n : Nat) : Fld := ⟨0x330C + 0x10 * n, 0, 16⟩
def TIM_TCAP_SEC_HI_depth (n : Nat) : Fld := ⟨0x330C + 0x10 * n, 16, 3⟩

-- NT block, R280 (13_network_streams.md)
def NT_CFG_mode (n : Nat) : Fld := ⟨0x4000 + 0x1000 * n, 0, 2⟩
def NT_CFG_jumbo (n : Nat) : Fld := ⟨0x4000 + 0x1000 * n, 2, 1⟩
def NT_CFG_tx_disable (n : Nat) : Fld := ⟨0x4000 + 0x1000 * n, 3, 1⟩
def NT_CFG_bcast (n : Nat) : Fld := ⟨0x4000 + 0x1000 * n, 4, 1⟩
def NT_CFG_mcast (n : Nat) : Fld := ⟨0x4000 + 0x1000 * n, 5, 2⟩
def NT_CFG_rx_ring (n : Nat) : Fld := ⟨0x4000 + 0x1000 * n, 7, 6⟩
def NT_STATUS_link (n : Nat) : Fld := ⟨0x4004 + 0x1000 * n, 0, 1⟩
def NT_STATUS_los (n : Nat) : Fld := ⟨0x4004 + 0x1000 * n, 1, 1⟩
def NT_STATUS_mod_abs (n : Nat) : Fld := ⟨0x4004 + 0x1000 * n, 2, 1⟩
def NT_EVENT_ev (n : Nat) : Fld := ⟨0x4008 + 0x1000 * n, 0, 5⟩
def NT_EVENT_EN_en (n : Nat) : Fld := ⟨0x400C + 0x1000 * n, 0, 5⟩
def NT_MAC_LO_mac (n : Nat) : Fld := ⟨0x4010 + 0x1000 * n, 0, 32⟩
def NT_MAC_HI_mac (n : Nat) : Fld := ⟨0x4014 + 0x1000 * n, 0, 16⟩
def NT_IPV4_addr (n : Nat) : Fld := ⟨0x4018 + 0x1000 * n, 0, 32⟩
def NT_VLAN_vid (n : Nat) : Fld := ⟨0x401C + 0x1000 * n, 0, 12⟩
def NT_VLAN_pcp (n : Nat) : Fld := ⟨0x401C + 0x1000 * n, 12, 3⟩
def NT_VLAN_en (n : Nat) : Fld := ⟨0x401C + 0x1000 * n, 15, 1⟩
def NT_I2C_dev (n : Nat) : Fld := ⟨0x4020 + 0x1000 * n, 0, 7⟩
def NT_I2C_read (n : Nat) : Fld := ⟨0x4020 + 0x1000 * n, 7, 1⟩
def NT_I2C_reg (n : Nat) : Fld := ⟨0x4020 + 0x1000 * n, 8, 8⟩
def NT_I2C_wdata (n : Nat) : Fld := ⟨0x4020 + 0x1000 * n, 16, 8⟩
def NT_I2C_go (n : Nat) : Fld := ⟨0x4020 + 0x1000 * n, 24, 1⟩
def NT_I2C_STAT_rdata (n : Nat) : Fld := ⟨0x4024 + 0x1000 * n, 0, 8⟩
def NT_I2C_STAT_busy (n : Nat) : Fld := ⟨0x4024 + 0x1000 * n, 8, 1⟩
def NT_I2C_STAT_nack (n : Nat) : Fld := ⟨0x4024 + 0x1000 * n, 9, 1⟩
def NT_MCAST_SEL_entry (n : Nat) : Fld := ⟨0x4028 + 0x1000 * n, 0, 4⟩
def NT_MCAST_LO_mac (n : Nat) : Fld := ⟨0x402C + 0x1000 * n, 0, 32⟩
def NT_MCAST_HI_mac (n : Nat) : Fld := ⟨0x4030 + 0x1000 * n, 0, 16⟩
def NT_MCAST_HI_valid (n : Nat) : Fld := ⟨0x4030 + 0x1000 * n, 16, 1⟩
def NT_RX_FRAMES_count (n : Nat) : Fld := ⟨0x4040 + 0x1000 * n, 0, 32⟩
def NT_RX_DROP_count (n : Nat) : Fld := ⟨0x4044 + 0x1000 * n, 0, 32⟩
def NT_TX_FRAMES_count (n : Nat) : Fld := ⟨0x4048 + 0x1000 * n, 0, 32⟩
def NT_EGRESS_MAX_ns (n : Nat) : Fld := ⟨0x404C + 0x1000 * n, 0, 32⟩

-- STM block, R281 (13_network_streams.md)
def STM_GCFG_rx_timeout : Fld := ⟨0x6000, 0, 16⟩
def STM_GCFG_skew_max : Fld := ⟨0x6000, 16, 5⟩
def STM_EVENT_ev : Fld := ⟨0x6004, 0, 9⟩
def STM_EVENT_EN_en : Fld := ⟨0x6008, 0, 9⟩
def STM_EVT_CTX_ctx : Fld := ⟨0x600C, 0, 9⟩
def STM_EVT_CTX_dir : Fld := ⟨0x600C, 9, 1⟩
def STM_EVT_CTX_valid : Fld := ⟨0x600C, 10, 1⟩
def STM_SEL_ctx : Fld := ⟨0x6010, 0, 9⟩
def STM_SEL_dir : Fld := ⟨0x6010, 9, 1⟩
def STM_CMD_cmd : Fld := ⟨0x6014, 0, 3⟩
def STM_STATUS_state : Fld := ⟨0x6018, 0, 3⟩
def STM_STATUS_reason : Fld := ⟨0x6018, 4, 4⟩
def STM_STATUS_path_a : Fld := ⟨0x6018, 8, 1⟩
def STM_STATUS_path_b : Fld := ⟨0x6018, 9, 1⟩
def STM_STATUS_k : Fld := ⟨0x6018, 16, 6⟩
def STM_CFG_enc : Fld := ⟨0x6040, 0, 2⟩
def STM_CFG_nch_m1 : Fld := ⟨0x6040, 2, 6⟩
def STM_CFG_ptime : Fld := ⟨0x6040, 8, 3⟩
def STM_CFG_paths : Fld := ⟨0x6040, 11, 2⟩
def STM_CFG_mirror : Fld := ⟨0x6040, 13, 1⟩
def STM_CFG_ssrc_en : Fld := ⟨0x6040, 14, 1⟩
def STM_CFG_v_zero : Fld := ⟨0x6040, 15, 1⟩
def STM_CFG_cs_src : Fld := ⟨0x6040, 16, 1⟩
def STM_CFG_v_mode : Fld := ⟨0x6040, 17, 2⟩
def STM_CHAN_chan_base : Fld := ⟨0x6044, 0, 11⟩
def STM_DST_A_addr : Fld := ⟨0x6048, 0, 32⟩
def STM_DST_B_addr : Fld := ⟨0x604C, 0, 32⟩
def STM_SRC_A_addr : Fld := ⟨0x6050, 0, 32⟩
def STM_SRC_B_addr : Fld := ⟨0x6054, 0, 32⟩
def STM_UDP_dst_port : Fld := ⟨0x6058, 0, 16⟩
def STM_UDP_src_port : Fld := ⟨0x6058, 16, 16⟩
def STM_RTP_pt : Fld := ⟨0x605C, 0, 7⟩
def STM_RTP_dscp : Fld := ⟨0x605C, 8, 6⟩
def STM_SSRC_ssrc : Fld := ⟨0x6060, 0, 32⟩
def STM_RTP_OFS_ofs : Fld := ⟨0x6064, 0, 32⟩
def STM_DRX_d_rx : Fld := ⟨0x6068, 0, 16⟩
def STM_DRX_len64 : Fld := ⟨0x6068, 16, 11⟩
def STM_DMAC_LO_mac : Fld := ⟨0x606C, 0, 32⟩
def STM_DMAC_HI_mac : Fld := ⟨0x6070, 0, 16⟩
def STM_PKTS_A_count : Fld := ⟨0x6080, 0, 32⟩
def STM_PKTS_B_count : Fld := ⟨0x6084, 0, 32⟩
def STM_LATE_count : Fld := ⟨0x6088, 0, 32⟩
def STM_EARLY_count : Fld := ⟨0x608C, 0, 32⟩
def STM_DUP_count : Fld := ⟨0x6090, 0, 32⟩
def STM_FORM_count : Fld := ⟨0x6094, 0, 32⟩
def STM_CONCEAL_count : Fld := ⟨0x6098, 0, 32⟩
def STM_SLIP_count : Fld := ⟨0x609C, 0, 32⟩
def STM_SKEW_us : Fld := ⟨0x60A0, 0, 16⟩
def STM_SKEW_valid : Fld := ⟨0x60A0, 16, 1⟩
def STM_CS_ADDR_byte : Fld := ⟨0x60C0, 0, 5⟩
def STM_CS_ADDR_chan : Fld := ⟨0x60C0, 5, 6⟩
def STM_CS_ADDR_user : Fld := ⟨0x60C0, 11, 1⟩
def STM_CS_DATA_data : Fld := ⟨0x60C4, 0, 8⟩

-- APT block, R254 (12_audio_ports.md)
def APT_GCFG_start_laps : Fld := ⟨0x8000, 0, 8⟩
def APT_GCFG_unmute_to : Fld := ⟨0x8000, 8, 7⟩
def APT_GCFG_tol_ppm : Fld := ⟨0x8000, 16, 2⟩
def APT_GCFG_glitch_tol : Fld := ⟨0x8000, 18, 2⟩
def APT_EVENT_ev : Fld := ⟨0x8004, 0, 9⟩
def APT_EVENT_EN_en : Fld := ⟨0x8008, 0, 9⟩
def APT_CS_ADDR_byte : Fld := ⟨0x800C, 0, 5⟩
def APT_CS_ADDR_chan : Fld := ⟨0x800C, 5, 1⟩
def APT_CS_ADDR_user : Fld := ⟨0x800C, 6, 1⟩
def APT_CS_ADDR_port : Fld := ⟨0x800C, 8, 5⟩
def APT_CS_DATA_data : Fld := ⟨0x8010, 0, 8⟩
def APT_AES_REF_sel : Fld := ⟨0x8014, 0, 3⟩
def APT_CG_mode (n : Nat) : Fld := ⟨0x8020 + 0x4 * n, 0, 2⟩
def APT_CG_mclk_oe (n : Nat) : Fld := ⟨0x8020 + 0x4 * n, 4, 1⟩
def APT_CG_leader (n : Nat) : Fld := ⟨0x8020 + 0x4 * n, 8, 4⟩
def APT_FMT_fmt (n : Nat) : Fld := ⟨0x8100 + 0x20 * n, 0, 2⟩
def APT_FMT_slots (n : Nat) : Fld := ⟨0x8100 + 0x20 * n, 2, 3⟩
def APT_FMT_slot_w (n : Nat) : Fld := ⟨0x8100 + 0x20 * n, 5, 2⟩
def APT_FMT_word_w (n : Nat) : Fld := ⟨0x8100 + 0x20 * n, 8, 2⟩
def APT_FMT_fs_width (n : Nat) : Fld := ⟨0x8100 + 0x20 * n, 10, 1⟩
def APT_FMT_fs_delay (n : Nat) : Fld := ⟨0x8100 + 0x20 * n, 11, 1⟩
def APT_FMT_fs_inv (n : Nat) : Fld := ⟨0x8100 + 0x20 * n, 12, 1⟩
def APT_FMT_sck_inv (n : Nat) : Fld := ⟨0x8100 + 0x20 * n, 13, 1⟩
def APT_FMT_clk (n : Nat) : Fld := ⟨0x8100 + 0x20 * n, 16, 3⟩
def APT_RXFMT_word_w (n : Nat) : Fld := ⟨0x8300 + 0x20 * n, 8, 2⟩
def APT_RXFMT_v_mode (n : Nat) : Fld := ⟨0x8300 + 0x20 * n, 20, 2⟩
def APT_RXFMT_cs_crc (n : Nat) : Fld := ⟨0x8300 + 0x20 * n, 22, 1⟩
def APT_TXFMT_word_w (n : Nat) : Fld := ⟨0x8400 + 0x20 * n, 8, 2⟩
def APT_TXFMT_v_mode (n : Nat) : Fld := ⟨0x8400 + 0x20 * n, 20, 2⟩
def APT_TXFMT_cs_crc (n : Nat) : Fld := ⟨0x8400 + 0x20 * n, 22, 1⟩
def APT_CTL_cmd (n : Nat) : Fld := ⟨0x8104 + 0x20 * n, 0, 3⟩
def APT_CTL_in_en (n : Nat) : Fld := ⟨0x8104 + 0x20 * n, 4, 1⟩
def APT_CTL_out_en (n : Nat) : Fld := ⟨0x8104 + 0x20 * n, 5, 1⟩
def APT_CTL_auto_acq (n : Nat) : Fld := ⟨0x8104 + 0x20 * n, 6, 1⟩
def APT_PSTAT_state (n : Nat) : Fld := ⟨0x8108 + 0x20 * n, 0, 3⟩
def APT_PSTAT_reason (n : Nat) : Fld := ⟨0x8108 + 0x20 * n, 4, 4⟩
def APT_PSTAT_zsync (n : Nat) : Fld := ⟨0x8108 + 0x20 * n, 8, 1⟩
def APT_PSTAT_cs_valid (n : Nat) : Fld := ⟨0x8108 + 0x20 * n, 9, 1⟩
def APT_PHASE_ph_in (n : Nat) : Fld := ⟨0x810C + 0x20 * n, 0, 16⟩
def APT_PHASE_ph_out (n : Nat) : Fld := ⟨0x810C + 0x20 * n, 16, 16⟩
def APT_SLIP_count (n : Nat) : Fld := ⟨0x8110 + 0x20 * n, 0, 32⟩
def APT_GLITCH_count (n : Nat) : Fld := ⟨0x8114 + 0x20 * n, 0, 32⟩
def APT_AESERR_sample (n : Nat) : Fld := ⟨0x8318 + 0x20 * n, 0, 16⟩
def APT_AESERR_crc (n : Nat) : Fld := ⟨0x8318 + 0x20 * n, 16, 16⟩

-- EXL block, R348 (17_cascade_and_bypass.md)
def EXL_CFG_pos : Fld := ⟨0xA000, 0, 3⟩
def EXL_CFG_master : Fld := ⟨0xA000, 3, 1⟩
def EXL_CFG_backup : Fld := ⟨0xA000, 4, 1⟩
def EXL_CFG_ref_port : Fld := ⟨0xA000, 5, 2⟩
def EXL_CTL_cmd : Fld := ⟨0xA004, 0, 3⟩
def EXL_STATUS_state : Fld := ⟨0xA008, 0, 3⟩
def EXL_STATUS_thru : Fld := ⟨0xA008, 3, 1⟩
def EXL_STATUS_topo : Fld := ⟨0xA008, 4, 1⟩
def EXL_STATUS_master_pos : Fld := ⟨0xA008, 5, 3⟩
def EXL_STATUS_master_ok : Fld := ⟨0xA008, 8, 1⟩
def EXL_STATUS_h_need : Fld := ⟨0xA008, 9, 3⟩
def EXL_STATUS_members : Fld := ⟨0xA008, 12, 4⟩
def EXL_EVENT_ev : Fld := ⟨0xA00C, 0, 12⟩
def EXL_EVENT_EN_en : Fld := ⟨0xA010, 0, 12⟩
def EXL_PORT_lock (n : Nat) : Fld := ⟨0xA020 + 0x4 * n, 0, 3⟩
def EXL_PORT_protected (n : Nat) : Fld := ⟨0xA020 + 0x4 * n, 3, 1⟩
def EXL_PORT_failed_lane (n : Nat) : Fld := ⟨0xA020 + 0x4 * n, 4, 2⟩
def EXL_PORT_link (n : Nat) : Fld := ⟨0xA020 + 0x4 * n, 6, 1⟩
def EXL_PORT_nbr_pos (n : Nat) : Fld := ⟨0xA020 + 0x4 * n, 8, 3⟩
def EXL_PORT_nbr_valid (n : Nat) : Fld := ⟨0xA020 + 0x4 * n, 11, 1⟩
def EXL_HOP_ns (n : Nat) : Fld := ⟨0xA028 + 0x4 * n, 0, 16⟩
def EXL_CRC_count (n : Nat) : Fld := ⟨0xA030 + 0x4 * n, 0, 32⟩
def EXL_LATE_count (n : Nat) : Fld := ⟨0xA038 + 0x4 * n, 0, 32⟩
def EXL_MAP_east (n : Nat) : Fld := ⟨0xA040 + 0x4 * n, 0, 3⟩
def EXL_MAP_west (n : Nat) : Fld := ⟨0xA040 + 0x4 * n, 3, 3⟩
def EXL_MAP_east_ok (n : Nat) : Fld := ⟨0xA040 + 0x4 * n, 6, 1⟩
def EXL_MAP_west_ok (n : Nat) : Fld := ⟨0xA040 + 0x4 * n, 7, 1⟩
def EXL_CHOWN_owner0 (n : Nat) : Fld := ⟨0xA060 + 0x4 * n, 0, 3⟩
def EXL_CHOWN_en0 (n : Nat) : Fld := ⟨0xA060 + 0x4 * n, 3, 1⟩
def EXL_CHOWN_owner1 (n : Nat) : Fld := ⟨0xA060 + 0x4 * n, 4, 3⟩
def EXL_CHOWN_en1 (n : Nat) : Fld := ⟨0xA060 + 0x4 * n, 7, 1⟩
def EXL_CHOWN_owner2 (n : Nat) : Fld := ⟨0xA060 + 0x4 * n, 8, 3⟩
def EXL_CHOWN_en2 (n : Nat) : Fld := ⟨0xA060 + 0x4 * n, 11, 1⟩
def EXL_CHOWN_owner3 (n : Nat) : Fld := ⟨0xA060 + 0x4 * n, 12, 3⟩
def EXL_CHOWN_en3 (n : Nat) : Fld := ⟨0xA060 + 0x4 * n, 15, 1⟩
def EXL_CHOWN_owner4 (n : Nat) : Fld := ⟨0xA060 + 0x4 * n, 16, 3⟩
def EXL_CHOWN_en4 (n : Nat) : Fld := ⟨0xA060 + 0x4 * n, 19, 1⟩
def EXL_CHOWN_owner5 (n : Nat) : Fld := ⟨0xA060 + 0x4 * n, 20, 3⟩
def EXL_CHOWN_en5 (n : Nat) : Fld := ⟨0xA060 + 0x4 * n, 23, 1⟩
def EXL_CHOWN_owner6 (n : Nat) : Fld := ⟨0xA060 + 0x4 * n, 24, 3⟩
def EXL_CHOWN_en6 (n : Nat) : Fld := ⟨0xA060 + 0x4 * n, 27, 1⟩
def EXL_CHOWN_owner7 (n : Nat) : Fld := ⟨0xA060 + 0x4 * n, 28, 3⟩
def EXL_CHOWN_en7 (n : Nat) : Fld := ⟨0xA060 + 0x4 * n, 31, 1⟩

-- HST block, R204 (09_host_interface_and_rings.md)
def HST_CFG_cto : Fld := ⟨0xC000, 0, 3⟩
def HST_CFG_pol_bar0 : Fld := ⟨0xC000, 8, 1⟩
def HST_CFG_pol_bar2 : Fld := ⟨0xC000, 9, 1⟩
def HST_CFG_pol_bar4 : Fld := ⟨0xC000, 10, 1⟩
def HST_STATUS_speed : Fld := ⟨0xC004, 0, 4⟩
def HST_STATUS_width : Fld := ⟨0xC004, 4, 5⟩
def HST_STATUS_bme : Fld := ⟨0xC004, 9, 1⟩
def HST_STATUS_mse : Fld := ⟨0xC004, 10, 1⟩
def HST_EVENT_ev : Fld := ⟨0xC008, 0, 7⟩
def HST_EVENT_EN_en : Fld := ⟨0xC00C, 0, 7⟩
def HST_EVT_CFG_ring : Fld := ⟨0xC010, 0, 6⟩
def HST_EVT_CFG_ring_en : Fld := ⟨0xC010, 6, 1⟩
def HST_EVT_CFG_vec : Fld := ⟨0xC010, 8, 6⟩
def HST_EVT_DROP_count : Fld := ⟨0xC014, 0, 32⟩
def HST_MISS_INFO_bar : Fld := ⟨0xC018, 0, 2⟩
def HST_MISS_INFO_write : Fld := ⟨0xC018, 2, 1⟩
def HST_MISS_INFO_valid : Fld := ⟨0xC018, 3, 1⟩
def HST_MISS_OFF_offset : Fld := ⟨0xC01C, 0, 28⟩
def HST_MISS_COUNT_count : Fld := ⟨0xC020, 0, 32⟩
def HST_PLAY_UNDER_count : Fld := ⟨0xC024, 0, 32⟩
def HST_REC_LOST_count : Fld := ⟨0xC028, 0, 32⟩
def HST_WIN_BASE_base (n : Nat) : Fld := ⟨0xC100 + 0x10 * n, 16, 12⟩
def HST_WIN_TGT_tgt (n : Nat) : Fld := ⟨0xC104 + 0x10 * n, 0, 15⟩
def HST_WIN_CTL_en (n : Nat) : Fld := ⟨0xC108 + 0x10 * n, 0, 1⟩
def HST_WIN_CTL_wr (n : Nat) : Fld := ⟨0xC108 + 0x10 * n, 1, 1⟩
def HST_WIN_CTL_size (n : Nat) : Fld := ⟨0xC108 + 0x10 * n, 2, 4⟩
def HST_WIN_CTL_region (n : Nat) : Fld := ⟨0xC108 + 0x10 * n, 8, 2⟩
def HST_RBASE_LO_base (n : Nat) : Fld := ⟨0xC400 + 0x20 * n, 0, 32⟩
def HST_RBASE_HI_base (n : Nat) : Fld := ⟨0xC404 + 0x20 * n, 0, 32⟩
def HST_RCFG_size (n : Nat) : Fld := ⟨0xC408 + 0x20 * n, 0, 4⟩
def HST_RCFG_dir (n : Nat) : Fld := ⟨0xC408 + 0x20 * n, 4, 1⟩
def HST_RCFG_func (n : Nat) : Fld := ⟨0xC408 + 0x20 * n, 8, 4⟩
def HST_RCFG_vec (n : Nat) : Fld := ⟨0xC408 + 0x20 * n, 16, 6⟩
def HST_RCTRL_en (n : Nat) : Fld := ⟨0xC40C + 0x20 * n, 0, 1⟩
def HST_RSTAT_eidx (n : Nat) : Fld := ⟨0xC410 + 0x20 * n, 0, 16⟩
def HST_RSTAT_state (n : Nat) : Fld := ⟨0xC410 + 0x20 * n, 16, 2⟩
def HST_RSTAT_reason (n : Nat) : Fld := ⟨0xC410 + 0x20 * n, 20, 4⟩
def HST_RMOD_cnt (n : Nat) : Fld := ⟨0xC414 + 0x20 * n, 0, 8⟩
def HST_RMOD_laps (n : Nat) : Fld := ⟨0xC414 + 0x20 * n, 8, 8⟩
def HST_RMOD_irq_en (n : Nat) : Fld := ⟨0xC414 + 0x20 * n, 16, 1⟩
def HST_RAUD_c0 (n : Nat) : Fld := ⟨0xC418 + 0x20 * n, 0, 8⟩
def HST_RAUD_nc_m1 (n : Nat) : Fld := ⟨0xC418 + 0x20 * n, 8, 8⟩
def HST_RAUD_fmt (n : Nat) : Fld := ⟨0xC418 + 0x20 * n, 16, 2⟩
def HST_RAUD_lead (n : Nat) : Fld := ⟨0xC418 + 0x20 * n, 20, 8⟩

-- XBR block, R235 (11_cellar_and_crossbar.md)
def XBR_DPOL0_pol : Fld := ⟨0xE000, 0, 26⟩
def XBR_DPOL0_pol28 : Fld := ⟨0xE000, 28, 4⟩
def XBR_DPOL1_pol : Fld := ⟨0xE004, 0, 4⟩
def XBR_EVENT_ev : Fld := ⟨0xE008, 0, 4⟩
def XBR_EVENT_EN_en : Fld := ⟨0xE00C, 0, 4⟩
def XBR_ERR_INFO_master : Fld := ⟨0xE010, 0, 6⟩
def XBR_ERR_INFO_kind : Fld := ⟨0xE010, 6, 2⟩
def XBR_ERR_INFO_write : Fld := ⟨0xE010, 8, 1⟩
def XBR_ERR_INFO_valid : Fld := ⟨0xE010, 9, 1⟩
def XBR_ERR_INFO_target : Fld := ⟨0xE010, 10, 6⟩
def XBR_ERR_ADDR_addr : Fld := ⟨0xE014, 0, 32⟩
def XBR_ERR_COUNT_count : Fld := ⟨0xE018, 0, 32⟩
def XBR_RESET_BURSTS_count : Fld := ⟨0xE01C, 0, 32⟩
def XBR_CONF_count (n : Nat) : Fld := ⟨0xE020 + 0x4 * n, 0, 32⟩
def XBR_RWIN_BASE_shelf (n : Nat) : Fld := ⟨0xE100 + 0x8 * n, 0, 15⟩
def XBR_RWIN_CTL_en (n : Nat) : Fld := ⟨0xE104 + 0x8 * n, 0, 1⟩
def XBR_RWIN_CTL_wr (n : Nat) : Fld := ⟨0xE104 + 0x8 * n, 1, 1⟩
def XBR_RWIN_CTL_count (n : Nat) : Fld := ⟨0xE104 + 0x8 * n, 16, 15⟩

-- CEL block, R234 (11_cellar_and_crossbar.md)
def CEL_STATUS_free : Fld := ⟨0xF000, 0, 15⟩
def CEL_STATUS_run : Fld := ⟨0xF000, 16, 15⟩
def CEL_EVENT_ev : Fld := ⟨0xF004, 0, 5⟩
def CEL_EVENT_EN_en : Fld := ⟨0xF008, 0, 5⟩
def CEL_ALLOC_OWNER_index : Fld := ⟨0xF010, 0, 20⟩
def CEL_ALLOC_OWNER_kind : Fld := ⟨0xF010, 20, 4⟩
def CEL_ALLOC_REQ_count : Fld := ⟨0xF014, 0, 15⟩
def CEL_ALLOC_REQ_first : Fld := ⟨0xF014, 16, 15⟩
def CEL_ALLOC_CMD_cmd : Fld := ⟨0xF018, 0, 3⟩
def CEL_ALLOC_CMD_mirror : Fld := ⟨0xF018, 4, 1⟩
def CEL_ALLOC_CMD_host_wr : Fld := ⟨0xF018, 5, 1⟩
def CEL_ALLOC_CMD_first_fit : Fld := ⟨0xF018, 6, 1⟩
def CEL_ALLOC_STATUS_state : Fld := ⟨0xF01C, 0, 2⟩
def CEL_ALLOC_STATUS_reason : Fld := ⟨0xF01C, 4, 4⟩
def CEL_ALLOC_INFO_first : Fld := ⟨0xF020, 0, 15⟩
def CEL_ALLOC_INFO_mirror : Fld := ⟨0xF020, 15, 1⟩
def CEL_ALLOC_INFO_count : Fld := ⟨0xF020, 16, 15⟩
def CEL_ALLOC_INFO_host_wr : Fld := ⟨0xF020, 31, 1⟩
def CEL_ALLOC_TWIN_first : Fld := ⟨0xF024, 0, 15⟩
def CEL_DBE_INFO_shelf : Fld := ⟨0xF028, 0, 15⟩
def CEL_DBE_INFO_valid : Fld := ⟨0xF028, 15, 1⟩
def CEL_DBE_INFO_master : Fld := ⟨0xF028, 16, 6⟩
def CEL_DBE_COUNT_count : Fld := ⟨0xF02C, 0, 32⟩
def CEL_MIRROR_FIX_count : Fld := ⟨0xF030, 0, 32⟩
def CEL_PBANK_owner (n : Nat) : Fld := ⟨0xF100 + 0x4 * n, 0, 2⟩
def CEL_PBANK_logical (n : Nat) : Fld := ⟨0xF100 + 0x4 * n, 8, 7⟩

-- MOV block, R220 (10_movers.md)
def MOV_LOCK_mov_lim : Fld := ⟨0x10000, 0, 5⟩
def MOV_LOCK_pmem_lim : Fld := ⟨0x10000, 16, 12⟩
def MOV_FAULT_EVT_ev : Fld := ⟨0x10008, 0, 16⟩
def MOV_HALT_EVT_ev : Fld := ⟨0x1000C, 0, 16⟩
def MOV_TICK_EVT_ev : Fld := ⟨0x10010, 0, 16⟩
def MOV_FAULT_EN_en : Fld := ⟨0x10018, 0, 16⟩
def MOV_HALT_EN_en : Fld := ⟨0x1001C, 0, 16⟩
def MOV_TICK_EN_en : Fld := ⟨0x10020, 0, 16⟩
def MOV_CTL_cmd (n : Nat) : Fld := ⟨0x10100 + 0x40 * n, 0, 2⟩
def MOV_CTL_start_lap (n : Nat) : Fld := ⟨0x10100 + 0x40 * n, 3, 1⟩
def MOV_CTL_entry (n : Nat) : Fld := ⟨0x10100 + 0x40 * n, 16, 11⟩
def MOV_STAT_state (n : Nat) : Fld := ⟨0x10104 + 0x40 * n, 0, 2⟩
def MOV_STAT_fault (n : Nat) : Fld := ⟨0x10104 + 0x40 * n, 4, 4⟩
def MOV_STAT_pc (n : Nat) : Fld := ⟨0x10104 + 0x40 * n, 8, 11⟩
def MOV_STAT_fill (n : Nat) : Fld := ⟨0x10104 + 0x40 * n, 24, 8⟩
def MOV_BUDGET_budget (n : Nat) : Fld := ⟨0x10108 + 0x40 * n, 0, 16⟩
def MOV_INBOX_inbox (n : Nat) : Fld := ⟨0x1010C + 0x40 * n, 0, 16⟩
def MOV_WITHDRAW_count (n : Nat) : Fld := ⟨0x10110 + 0x40 * n, 0, 32⟩
def MOV_OVR_count (n : Nat) : Fld := ⟨0x10114 + 0x40 * n, 0, 32⟩
def MOV_ARCFG_space (n : Nat) : Fld := ⟨0x10800 + 0x20 * n, 0, 4⟩
def MOV_ARCFG_step (n : Nat) : Fld := ⟨0x10800 + 0x20 * n, 16, 16⟩
def MOV_ARBASE_base (n : Nat) : Fld := ⟨0x10804 + 0x20 * n, 0, 27⟩
def MOV_ARLEN_len (n : Nat) : Fld := ⟨0x10808 + 0x20 * n, 0, 27⟩
def MOV_ARPTR_ptr (n : Nat) : Fld := ⟨0x1080C + 0x20 * n, 0, 27⟩

-- VLT block, R176 (08_scene_vault_and_coherence.md)
def VLT_CFG_store_mirror : Fld := ⟨0x18000, 0, 1⟩
def VLT_CFG_commit_en : Fld := ⟨0x18000, 1, 1⟩
def VLT_STATUS_armed : Fld := ⟨0x18004, 0, 4⟩
def VLT_STATUS_refreshing : Fld := ⟨0x18004, 4, 1⟩
def VLT_STATUS_master : Fld := ⟨0x18004, 5, 1⟩
def VLT_STATUS_unsynced : Fld := ⟨0x18004, 6, 1⟩
def VLT_STATUS_store_ok : Fld := ⟨0x18004, 7, 1⟩
def VLT_STATUS_waiting : Fld := ⟨0x18004, 8, 7⟩
def VLT_GEN_LO_gen : Fld := ⟨0x18008, 0, 32⟩
def VLT_GEN_HI_gen : Fld := ⟨0x1800C, 0, 32⟩
def VLT_COMMIT_STATUS_code : Fld := ⟨0x18010, 0, 8⟩
def VLT_COMMIT_STATUS_ring : Fld := ⟨0x18010, 8, 6⟩
def VLT_COMMIT_STATUS_op : Fld := ⟨0x18010, 14, 2⟩
def VLT_COMMIT_STATUS_valid : Fld := ⟨0x18010, 16, 1⟩
def VLT_EVENT_ev : Fld := ⟨0x18014, 0, 9⟩
def VLT_EVENT_EN_en : Fld := ⟨0x18018, 0, 9⟩
def VLT_LATE_COUNT_count : Fld := ⟨0x1801C, 0, 32⟩
def VLT_REFUSED_COUNT_count : Fld := ⟨0x18020, 0, 32⟩
def VLT_SNAP_DROP_count : Fld := ⟨0x18024, 0, 32⟩
def VLT_GROUP_ADDR_sub : Fld := ⟨0x18028, 0, 12⟩
def VLT_GROUP_ADDR_index : Fld := ⟨0x18028, 12, 12⟩
def VLT_GROUP_ADDR_class : Fld := ⟨0x18028, 24, 8⟩
def VLT_GROUP_DATA_group : Fld := ⟨0x1802C, 0, 6⟩
def VLT_GGEN_SEL_group : Fld := ⟨0x18030, 0, 6⟩
def VLT_GGEN_LO_gen : Fld := ⟨0x18034, 0, 32⟩
def VLT_GGEN_HI_gen : Fld := ⟨0x18038, 0, 32⟩
def VLT_ARM_SEL_slot : Fld := ⟨0x1803C, 0, 3⟩
def VLT_ARM_INFO_valid : Fld := ⟨0x18040, 0, 1⟩
def VLT_ARM_INFO_issuer : Fld := ⟨0x18040, 1, 3⟩
def VLT_ARM_INFO_strict : Fld := ⟨0x18040, 4, 1⟩
def VLT_ARM_INFO_late : Fld := ⟨0x18040, 5, 1⟩
def VLT_ARM_INFO_profile : Fld := ⟨0x18040, 6, 4⟩
def VLT_ARM_MASK_LO_mask : Fld := ⟨0x18044, 0, 32⟩
def VLT_ARM_MASK_HI_mask : Fld := ⟨0x18048, 0, 32⟩
def VLT_ARM_LAP_LO_lap : Fld := ⟨0x1804C, 0, 32⟩
def VLT_ARM_LAP_HI_lap : Fld := ⟨0x18050, 0, 32⟩
def VLT_STORE_base_shelf : Fld := ⟨0x18054, 0, 15⟩
def VLT_STORE_mirrored : Fld := ⟨0x18054, 15, 1⟩
def VLT_STORE_shelves : Fld := ⟨0x18054, 16, 13⟩
def VLT_STORE_ERR_valid : Fld := ⟨0x18058, 0, 1⟩
def VLT_STORE_ERR_index : Fld := ⟨0x18058, 12, 12⟩
def VLT_STORE_ERR_class : Fld := ⟨0x18058, 24, 8⟩
def VLT_PROF_A_gain_len (n : Nat) : Fld := ⟨0x18100 + 0x8 * n, 0, 14⟩
def VLT_PROF_A_filt_len (n : Nat) : Fld := ⟨0x18100 + 0x8 * n, 16, 14⟩
def VLT_PROF_B_route_len (n : Nat) : Fld := ⟨0x18104 + 0x8 * n, 0, 14⟩
def VLT_PROF_B_route_kind (n : Nat) : Fld := ⟨0x18104 + 0x8 * n, 16, 1⟩

-- TIL block, R71 (03_tiles_heats_and_spine.md)
def TIL_CHK_CFG_window : Fld := ⟨0x19000, 0, 16⟩
def TIL_CHK_CFG_chk_en : Fld := ⟨0x19000, 16, 1⟩
def TIL_CHK_CFG_takeover_en : Fld := ⟨0x19000, 17, 1⟩
def TIL_RAMP_warm_ms : Fld := ⟨0x19004, 0, 10⟩
def TIL_RAMP_resume_samples : Fld := ⟨0x19004, 16, 10⟩
def TIL_EVENT_ev : Fld := ⟨0x19008, 0, 9⟩
def TIL_EVENT_EN_en : Fld := ⟨0x1900C, 0, 9⟩
def TIL_PLACE_ADDR_index : Fld := ⟨0x19010, 0, 11⟩
def TIL_PLACE_DATA_slot : Fld := ⟨0x19014, 0, 5⟩
def TIL_PLACE_DATA_valid : Fld := ⟨0x19014, 31, 1⟩
def TIL_PLACE_LAP_LO_lap : Fld := ⟨0x19018, 0, 32⟩
def TIL_PLACE_LAP_HI_lap : Fld := ⟨0x1901C, 0, 32⟩
def TIL_PLACE_CMD_cmd : Fld := ⟨0x19020, 0, 2⟩
def TIL_PLACE_STATUS_state : Fld := ⟨0x19024, 0, 2⟩
def TIL_PLACE_STATUS_reason : Fld := ⟨0x19024, 4, 4⟩
def TIL_PLACE_STATUS_slot : Fld := ⟨0x19024, 8, 5⟩
def TIL_TGEN_SEL_tile : Fld := ⟨0x19028, 0, 6⟩
def TIL_TGEN_LO_gen : Fld := ⟨0x1902C, 0, 32⟩
def TIL_TGEN_HI_gen : Fld := ⟨0x19030, 0, 32⟩
def TIL_CHK_MISMATCH_count : Fld := ⟨0x19034, 0, 32⟩
def TIL_SPINE_MISSING_count : Fld := ⟨0x19038, 0, 32⟩
def TIL_HEAT_spare_tile (n : Nat) : Fld := ⟨0x19040 + 0x4 * n, 0, 6⟩
def TIL_HEAT_checked_tile (n : Nat) : Fld := ⟨0x19040 + 0x4 * n, 8, 6⟩
def TIL_HEAT_chk_state (n : Nat) : Fld := ⟨0x19040 + 0x4 * n, 16, 3⟩
def TIL_HEAT_takeovers (n : Nat) : Fld := ⟨0x19040 + 0x4 * n, 24, 8⟩
def TIL_TILE_state (n : Nat) : Fld := ⟨0x19100 + 0x4 * n, 0, 3⟩
def TIL_TILE_slot (n : Nat) : Fld := ⟨0x19100 + 0x4 * n, 8, 5⟩
def TIL_TILE_no_slot (n : Nat) : Fld := ⟨0x19100 + 0x4 * n, 13, 1⟩
def TIL_SLOT_cost16 (n : Nat) : Fld := ⟨0x19200 + 0x4 * n, 0, 12⟩
def TIL_SLOT_safe16 (n : Nat) : Fld := ⟨0x19200 + 0x4 * n, 16, 12⟩

-- GRF block, R93 (04_signal_flow_graph.md)
def GRF_LAYOUT_in_ins : Fld := ⟨0x1A000, 0, 1⟩
def GRF_LAYOUT_bus_head : Fld := ⟨0x1A000, 1, 1⟩
def GRF_LAYOUT_bus_tail : Fld := ⟨0x1A000, 2, 1⟩
def GRF_LAYOUT_mtx_head : Fld := ⟨0x1A000, 3, 1⟩
def GRF_LAYOUT_mtx_tail : Fld := ⟨0x1A000, 4, 1⟩
def GRF_LAYOUT_ring_depth : Fld := ⟨0x1A000, 8, 3⟩
def GRF_LAYOUT_LIVE_in_ins : Fld := ⟨0x1A004, 0, 1⟩
def GRF_LAYOUT_LIVE_bus_head : Fld := ⟨0x1A004, 1, 1⟩
def GRF_LAYOUT_LIVE_bus_tail : Fld := ⟨0x1A004, 2, 1⟩
def GRF_LAYOUT_LIVE_mtx_head : Fld := ⟨0x1A004, 3, 1⟩
def GRF_LAYOUT_LIVE_mtx_tail : Fld := ⟨0x1A004, 4, 1⟩
def GRF_LAYOUT_LIVE_ring_depth : Fld := ⟨0x1A004, 8, 3⟩
def GRF_LAYOUT_LAP_LO_lap : Fld := ⟨0x1A008, 0, 32⟩
def GRF_LAYOUT_LAP_HI_lap : Fld := ⟨0x1A00C, 0, 32⟩
def GRF_LAYOUT_CMD_cmd : Fld := ⟨0x1A010, 0, 2⟩
def GRF_LAYOUT_STATUS_state : Fld := ⟨0x1A014, 0, 3⟩
def GRF_LAYOUT_STATUS_reason : Fld := ⟨0x1A014, 4, 4⟩
def GRF_LAYOUT_STATUS_mismatch : Fld := ⟨0x1A014, 8, 1⟩
def GRF_STAGES_s_direct : Fld := ⟨0x1A018, 0, 4⟩
def GRF_STAGES_s_bus : Fld := ⟨0x1A018, 8, 4⟩
def GRF_STAGES_s_mtx : Fld := ⟨0x1A018, 16, 4⟩
def GRF_EVENT_ev : Fld := ⟨0x1A01C, 0, 8⟩
def GRF_EVENT_EN_en : Fld := ⟨0x1A020, 0, 8⟩
def GRF_AB_IDX_strip : Fld := ⟨0x1A024, 0, 10⟩
def GRF_AB_STATE_sel : Fld := ⟨0x1A028, 0, 1⟩
def GRF_AB_STATE_fading : Fld := ⟨0x1A028, 1, 1⟩
def GRF_AB_STATE_a_health : Fld := ⟨0x1A028, 2, 2⟩
def GRF_AB_STATE_b_health : Fld := ⟨0x1A028, 4, 2⟩
def GRF_AB_STATE_pad : Fld := ⟨0x1A028, 6, 14⟩
def GRF_FAILOVERS_count : Fld := ⟨0x1A02C, 0, 32⟩
def GRF_ROUTE_DEFER_count : Fld := ⟨0x1A030, 0, 32⟩

-- SCH block, R369 (18_cores_trust_and_scheduler.md)
def SCH_CFG_window : Fld := ⟨0x1B000, 0, 16⟩
def SCH_STATUS_tasks : Fld := ⟨0x1B004, 0, 13⟩
def SCH_STATUS_blocked : Fld := ⟨0x1B004, 16, 9⟩
def SCH_EVENT_ev : Fld := ⟨0x1B008, 0, 3⟩
def SCH_EVENT_EN_en : Fld := ⟨0x1B00C, 0, 3⟩
def SCH_STAT_SEL_prio : Fld := ⟨0x1B010, 0, 6⟩
def SCH_STAT_DEPTH_cur : Fld := ⟨0x1B014, 0, 13⟩
def SCH_STAT_DEPTH_max : Fld := ⟨0x1B014, 16, 13⟩
def SCH_STAT_WAIT_MAX_cycles : Fld := ⟨0x1B018, 0, 32⟩
def SCH_STAT_WAIT_MEAN_cycles : Fld := ⟨0x1B01C, 0, 32⟩
def SCH_CANCEL_ARR_count : Fld := ⟨0x1B020, 0, 32⟩
def SCH_LOCK_BROKEN_count : Fld := ⟨0x1B024, 0, 32⟩
def SCH_STAT_LAP_LO_lap : Fld := ⟨0x1B028, 0, 32⟩
def SCH_STAT_LAP_HI_lap : Fld := ⟨0x1B02C, 0, 32⟩
def SCH_BUSY_busy (n : Nat) : Fld := ⟨0x1B040 + 0x4 * n, 0, 16⟩
def SCH_SVC_prio (n : Nat) : Fld := ⟨0x1B080 + 0x4 * n, 0, 6⟩
def SCH_SVC_affinity (n : Nat) : Fld := ⟨0x1B080 + 0x4 * n, 16, 9⟩

-- COR block, R368 (18_cores_trust_and_scheduler.md)
def COR_BOOT_state : Fld := ⟨0x1C000, 0, 3⟩
def COR_BOOT_slot : Fld := ⟨0x1C000, 3, 2⟩
def COR_BOOT_reason : Fld := ⟨0x1C000, 8, 4⟩
def COR_FW_VER_ver : Fld := ⟨0x1C004, 0, 32⟩
def COR_SV_fuse : Fld := ⟨0x1C008, 0, 8⟩
def COR_SV_image : Fld := ⟨0x1C008, 8, 8⟩
def COR_CMD_cmd : Fld := ⟨0x1C00C, 0, 3⟩
def COR_RECOV_SRC_index : Fld := ⟨0x1C010, 0, 8⟩
def COR_LOCK_locked : Fld := ⟨0x1C014, 0, 1⟩
def COR_RUNNER_state : Fld := ⟨0x1C018, 0, 18⟩
def COR_RUNNER_spare_for : Fld := ⟨0x1C018, 18, 4⟩
def COR_EVENT_ev : Fld := ⟨0x1C01C, 0, 7⟩
def COR_EVENT_EN_en : Fld := ⟨0x1C020, 0, 7⟩
def COR_RFAULTS_count : Fld := ⟨0x1C024, 0, 32⟩
def COR_KEY_programmed : Fld := ⟨0x1C028, 0, 4⟩
def COR_KEY_revoked : Fld := ⟨0x1C028, 4, 4⟩
def COR_KEY_used : Fld := ⟨0x1C028, 8, 2⟩

-- HLT block, R401 (20_endurance_and_faults.md)
def HLT_CFG_period_s : Fld := ⟨0x1D000, 0, 12⟩
def HLT_CFG_rec_en : Fld := ⟨0x1D000, 12, 1⟩
def HLT_CFG_auto_bank : Fld := ⟨0x1D000, 13, 1⟩
def HLT_CFG_auto_repair : Fld := ⟨0x1D000, 14, 1⟩
def HLT_CFG_auto_tile : Fld := ⟨0x1D000, 15, 1⟩
def HLT_CFG_ring : Fld := ⟨0x1D000, 16, 6⟩
def HLT_STATUS_keeper_ok : Fld := ⟨0x1D004, 0, 1⟩
def HLT_STATUS_subst : Fld := ⟨0x1D004, 1, 1⟩
def HLT_STATUS_subst_bank : Fld := ⟨0x1D004, 2, 7⟩
def HLT_STATUS_repair_pending : Fld := ⟨0x1D004, 9, 1⟩
def HLT_EVENT_ev : Fld := ⟨0x1D008, 0, 11⟩
def HLT_EVENT_EN_en : Fld := ⟨0x1D00C, 0, 11⟩
def HLT_CMD_cmd : Fld := ⟨0x1D010, 0, 2⟩
def HLT_CMD_target : Fld := ⟨0x1D010, 8, 7⟩
def HLT_THR_margin_thr : Fld := ⟨0x1D014, 0, 8⟩
def HLT_THR_bank_ce : Fld := ⟨0x1D014, 8, 8⟩
def HLT_THR_col_ce : Fld := ⟨0x1D014, 16, 8⟩
def HLT_SCRUB_period_s : Fld := ⟨0x1D018, 0, 12⟩
def HLT_SCRUB_progress : Fld := ⟨0x1D018, 16, 7⟩
def HLT_SCRUB_PASSES_count : Fld := ⟨0x1D01C, 0, 32⟩
def HLT_TEMP_now : Fld := ⟨0x1D020, 0, 16⟩
def HLT_TEMP_peak : Fld := ⟨0x1D020, 16, 16⟩
def HLT_LIFE_LO_sec : Fld := ⟨0x1D024, 0, 32⟩
def HLT_LIFE_HI_sec : Fld := ⟨0x1D028, 0, 32⟩
def HLT_LIFE_BASE_LO_sec : Fld := ⟨0x1D02C, 0, 32⟩
def HLT_LIFE_BASE_HI_sec : Fld := ⟨0x1D030, 0, 32⟩
def HLT_ATTIC_tiles : Fld := ⟨0x1D034, 0, 3⟩
def HLT_ATTIC_banks : Fld := ⟨0x1D034, 3, 3⟩
def HLT_ATTIC_runner : Fld := ⟨0x1D034, 6, 1⟩
def HLT_ATTIC_synth : Fld := ⟨0x1D034, 7, 1⟩
def HLT_ATTIC_lane_e : Fld := ⟨0x1D034, 8, 1⟩
def HLT_ATTIC_lane_w : Fld := ⟨0x1D034, 9, 1⟩
def HLT_REPAIR_used : Fld := ⟨0x1D038, 0, 10⟩
def HLT_REC_LOST_count : Fld := ⟨0x1D03C, 0, 32⟩
def HLT_ERR_SEL_domain : Fld := ⟨0x1D040, 0, 2⟩
def HLT_ERR_SEL_index : Fld := ⟨0x1D040, 8, 7⟩
def HLT_ERR_CE_count : Fld := ⟨0x1D044, 0, 32⟩
def HLT_ERR_UE_count : Fld := ⟨0x1D048, 0, 32⟩
def HLT_MARGIN_now (n : Nat) : Fld := ⟨0x1D100 + 0x4 * n, 0, 8⟩
def HLT_MARGIN_min (n : Nat) : Fld := ⟨0x1D100 + 0x4 * n, 8, 8⟩

-- SLM block, R386 (19_sealed_level_meter.md)
def SLM_STATUS_seal : Fld := ⟨0x1E000, 0, 2⟩
def SLM_STATUS_running : Fld := ⟨0x1E000, 2, 1⟩
def SLM_STATUS_mirror_sync : Fld := ⟨0x1E000, 3, 1⟩
def SLM_STATUS_overload : Fld := ⟨0x1E000, 4, 2⟩
def SLM_STATUS_no_signal : Fld := ⟨0x1E000, 6, 2⟩
def SLM_STATUS_exhausted : Fld := ⟨0x1E000, 8, 1⟩
def SLM_SEALCNT_count : Fld := ⟨0x1E004, 0, 7⟩
def SLM_SEQ_LO_seq : Fld := ⟨0x1E008, 0, 32⟩
def SLM_SEQ_HI_seq : Fld := ⟨0x1E00C, 0, 32⟩
def SLM_PERIOD_t : Fld := ⟨0x1E010, 0, 12⟩
def SLM_LEVEL_laeq (n : Nat) : Fld := ⟨0x1E014 + 0x4 * n, 0, 16⟩
def SLM_LEVEL_laeq15 (n : Nat) : Fld := ⟨0x1E014 + 0x4 * n, 16, 16⟩
def SLM_EVENT_ev : Fld := ⟨0x1E01C, 0, 4⟩
def SLM_EVENT_EN_en : Fld := ⟨0x1E020, 0, 4⟩

-- PAD block, R434 (22_pins_electrical_package.md)
def PAD_GPIO_DIR_dir : Fld := ⟨0x1F000, 0, 16⟩
def PAD_GPIO_OUT_out : Fld := ⟨0x1F004, 0, 16⟩
def PAD_GPIO_IN_in : Fld := ⟨0x1F008, 0, 16⟩
def PAD_GPIO_EDGE_edge : Fld := ⟨0x1F00C, 0, 32⟩
def PAD_GPIO_PULL_pull0 : Fld := ⟨0x1F010, 0, 2⟩
def PAD_GPIO_PULL_pull1 : Fld := ⟨0x1F010, 2, 2⟩
def PAD_GPIO_PULL_pull2 : Fld := ⟨0x1F010, 4, 2⟩
def PAD_GPIO_PULL_pull3 : Fld := ⟨0x1F010, 6, 2⟩
def PAD_GPIO_PULL_pull4 : Fld := ⟨0x1F010, 8, 2⟩
def PAD_GPIO_PULL_pull5 : Fld := ⟨0x1F010, 10, 2⟩
def PAD_GPIO_PULL_pull6 : Fld := ⟨0x1F010, 12, 2⟩
def PAD_GPIO_PULL_pull7 : Fld := ⟨0x1F010, 14, 2⟩
def PAD_GPIO_PULL_pull8 : Fld := ⟨0x1F010, 16, 2⟩
def PAD_GPIO_PULL_pull9 : Fld := ⟨0x1F010, 18, 2⟩
def PAD_GPIO_PULL_pull10 : Fld := ⟨0x1F010, 20, 2⟩
def PAD_GPIO_PULL_pull11 : Fld := ⟨0x1F010, 22, 2⟩
def PAD_GPIO_PULL_pull12 : Fld := ⟨0x1F010, 24, 2⟩
def PAD_GPIO_PULL_pull13 : Fld := ⟨0x1F010, 26, 2⟩
def PAD_GPIO_PULL_pull14 : Fld := ⟨0x1F010, 28, 2⟩
def PAD_GPIO_PULL_pull15 : Fld := ⟨0x1F010, 30, 2⟩
def PAD_EVENT_ev : Fld := ⟨0x1F014, 0, 16⟩
def PAD_EVENT_EN_en : Fld := ⟨0x1F018, 0, 16⟩
def PAD_DRIVE_tdm : Fld := ⟨0x1F01C, 0, 2⟩
def PAD_DRIVE_aes : Fld := ⟨0x1F01C, 2, 2⟩
def PAD_DRIVE_timing : Fld := ⟨0x1F01C, 4, 2⟩
def PAD_DRIVE_gpio : Fld := ⟨0x1F01C, 6, 2⟩
def PAD_DRIVE_boot : Fld := ⟨0x1F01C, 8, 2⟩

end Sys2Proof.Machine.Reg
end

