-- ==== Sys2Proof/Machine/RegTable.lean ====
section
/-! DEFINITION. The register table of BAR0: every register with its offset, its run, its fields' access
codes (R9), reset values and permitted values (R11), as the tables of the spec give them (R435). -/

namespace Sys2Proof.Machine

/-- The access codes of R9. -/
inductive Access where
  | ro | rw | w1c | w1s | wo | rwl
  deriving DecidableEq, Repr

/-- One field: its bits, access code, reset value, whether a write of it is a row of its own, and the
ranges of its values that are not reserved (none listed: every value is permitted). -/
structure FieldDef where
  lo : Nat
  width : Nat
  acc : Access
  reset : Nat
  own : Bool
  ok : List (Nat × Nat)
  deriving DecidableEq, Repr

/-- A run of registers: the offset in the block of the first, how many and how far apart, a reset value
added per register where the registers of a run differ, and the fields. -/
structure RegDef where
  off : Nat
  count : Nat
  stride : Nat
  resets : List Nat
  fields : List FieldDef
  deriving DecidableEq, Repr

/-- GLB: R416. -/
def regsGLB0 : List RegDef := [
  -- GLB_ID
  ⟨0x0, 1, 0x4, [], [⟨0, 32, .ro, 0x5c0a9648, false, []⟩]⟩,
  -- GLB_STEP
  ⟨0x4, 1, 0x4, [], [⟨0, 32, .ro, 176, false, []⟩]⟩,
  -- GLB_CFG
  ⟨0x8, 1, 0x4, [], [⟨0, 1, .rw, 0, false, []⟩]⟩,
  -- GLB_PWR
  ⟨0xC, 1, 0x4, [], [⟨0, 3, .wo, 0, true, []⟩]⟩,
  -- GLB_PWR_STATUS
  ⟨0x10, 1, 0x4, [], [⟨0, 3, .ro, 0, false, []⟩, ⟨4, 4, .ro, 0, false, []⟩]⟩,
  -- GLB_EVENT
  ⟨0x14, 1, 0x4, [], [⟨0, 3, .w1c, 0, false, []⟩]⟩,
  -- GLB_EVENT_EN
  ⟨0x18, 1, 0x4, [], [⟨0, 3, .rw, 0, true, []⟩]⟩,
  -- GLB_INT_SUM
  ⟨0x1C, 1, 0x4, [], [⟨0, 21, .ro, 0, false, []⟩]⟩,
  -- GLB_RESET_CAUSE
  ⟨0x20, 1, 0x4, [], [⟨0, 1, .w1c, 1, false, []⟩, ⟨1, 1, .w1c, 0, false, []⟩, ⟨2, 1, .w1c, 0, false, []⟩, ⟨3, 1, .w1c, 0, false, []⟩]⟩]

/-- SYN: R334. -/
def regsSYN0 : List RegDef := [
  -- SYN_CFG
  ⟨0x0, 1, 0x4, [], [⟨0, 2, .rw, 1, false, []⟩, ⟨2, 1, .rwl, 1, false, []⟩, ⟨3, 1, .rw, 0, false, []⟩, ⟨16, 12, .rw, 200, false, [(10, 4095)]⟩]⟩,
  -- SYN_STATUS
  ⟨0x4, 1, 0x4, [], [⟨0, 1, .ro, 0, false, []⟩, ⟨1, 1, .ro, 0, false, []⟩, ⟨2, 1, .ro, 0, false, []⟩, ⟨3, 1, .ro, 0, false, []⟩, ⟨4, 1, .ro, 1, false, []⟩, ⟨5, 3, .ro, 0, false, []⟩, ⟨8, 6, .ro, 0, false, []⟩, ⟨16, 6, .ro, 0, false, []⟩]⟩,
  -- SYN_EVENT
  ⟨0x8, 1, 0x4, [], [⟨0, 10, .w1c, 0, false, []⟩]⟩,
  -- SYN_EVENT_EN
  ⟨0xC, 1, 0x4, [], [⟨0, 10, .rw, 0, true, []⟩]⟩,
  -- SYN_RATE
  ⟨0x10, 1, 0x4, [], [⟨0, 1, .rw, 1, false, []⟩, ⟨1, 2, .rw, 0, false, [(0, 2)]⟩]⟩,
  -- SYN_RATE_CMD
  ⟨0x14, 1, 0x4, [], [⟨0, 1, .wo, 0, true, []⟩, ⟨4, 2, .ro, 0, false, []⟩]⟩,
  -- SYN_MNOM_LO
  ⟨0x18, 1, 0x4, [], [⟨0, 32, .ro, 0, false, []⟩]⟩,
  -- SYN_MNOM_HI
  ⟨0x1C, 1, 0x4, [], [⟨0, 8, .ro, 0, false, []⟩, ⟨8, 8, .ro, 100, false, []⟩]⟩,
  -- SYN_MEFF_LO
  ⟨0x20, 1, 0x4, [], [⟨0, 32, .ro, 0, false, []⟩]⟩,
  -- SYN_MEFF_HI
  ⟨0x24, 1, 0x4, [], [⟨0, 8, .ro, 0, false, []⟩, ⟨8, 8, .ro, 100, false, []⟩]⟩,
  -- SYN_RAMP_CTL
  ⟨0x28, 1, 0x4, [], [⟨0, 2, .wo, 0, true, []⟩, ⟨2, 3, .rw, 0, false, []⟩, ⟨8, 24, .rw, 65536, false, [(1, 16777215)]⟩]⟩,
  -- SYN_RAMP_STAT
  ⟨0x2C, 1, 0x4, [], [⟨0, 2, .ro, 0, false, []⟩, ⟨2, 3, .ro, 0, false, []⟩]⟩,
  -- SYN_RAMP_NOW
  ⟨0x30, 1, 0x4, [], [⟨0, 32, .ro, 0, false, []⟩]⟩,
  -- SYN_SYNC_COUNT
  ⟨0x34, 1, 0x4, [], [⟨0, 16, .ro, 0, false, []⟩, ⟨16, 16, .ro, 0, false, []⟩]⟩,
  -- SYN_RAMP_Y
  ⟨0x40, 8, 0x8, [], [⟨0, 32, .rw, 0, false, []⟩]⟩,
  -- SYN_RAMP_D
  ⟨0x44, 8, 0x8, [], [⟨0, 24, .rw, 1, false, [(1, 16777215)]⟩]⟩]

/-- SYN: R334. -/
def regsSYN1 : List RegDef := [
  -- SYN_BANDA
  ⟨0x100, 64, 0x4, [], [⟨0, 16, .rw, 0, false, []⟩, ⟨16, 16, .rw, 0, false, []⟩]⟩,
  -- SYN_BANDB
  ⟨0x200, 64, 0x4, [], [⟨0, 16, .rw, 0, false, []⟩, ⟨16, 16, .rw, 0, false, []⟩]⟩]

/-- DPL: R321. -/
def regsDPL0 : List RegDef := [
  -- DPL_CFG
  ⟨0x0, 1, 0x4, [], [⟨0, 2, .rw, 0, false, []⟩, ⟨2, 1, .rw, 0, false, []⟩, ⟨4, 4, .rw, 8, false, [(0, 8), (15, 15)]⟩, ⟨8, 3, .rw, 0, false, []⟩, ⟨16, 5, .rw, 10, false, [(0, 20)]⟩, ⟨21, 5, .rw, 7, false, [(0, 20)]⟩]⟩,
  -- DPL_QUAL
  ⟨0x4, 1, 0x4, [], [⟨0, 12, .rw, 10, false, [(1, 4095)]⟩, ⟨12, 4, .rw, 5, false, [(0, 7)]⟩, ⟨16, 3, .rw, 1, false, [(0, 3)]⟩]⟩,
  -- DPL_DRIFT
  ⟨0x8, 1, 0x4, [], [⟨0, 16, .rw, 100, false, [(1, 65535)]⟩, ⟨16, 16, .rw, 600, false, [(10, 3600)]⟩]⟩,
  -- DPL_HOLD
  ⟨0xC, 1, 0x4, [], [⟨0, 12, .rw, 60, false, [(0, 3600)]⟩, ⟨16, 12, .rw, 300, false, [(1, 3600)]⟩]⟩,
  -- DPL_LOCK
  ⟨0x10, 1, 0x4, [], [⟨0, 16, .rw, 100, false, [(1, 65535)]⟩, ⟨16, 8, .rw, 2, false, [(1, 255)]⟩]⟩,
  -- DPL_SLEW
  ⟨0x14, 1, 0x4, [], [⟨0, 16, .rw, 200, false, [(1, 2000)]⟩]⟩,
  -- DPL_EQ
  ⟨0x18, 1, 0x4, [], [⟨0, 16, .rw, 100, false, [(1, 65535)]⟩]⟩,
  -- DPL_STATUS
  ⟨0x1C, 1, 0x4, [], [⟨0, 3, .ro, 0, false, []⟩, ⟨3, 1, .ro, 0, false, []⟩, ⟨4, 3, .ro, 0, false, []⟩, ⟨7, 1, .ro, 0, false, []⟩, ⟨8, 5, .ro, 0, false, []⟩, ⟨16, 8, .ro, 0, false, []⟩, ⟨24, 8, .ro, 0, false, []⟩]⟩,
  -- DPL_EVENT
  ⟨0x20, 1, 0x4, [], [⟨0, 14, .w1c, 0, false, []⟩]⟩,
  -- DPL_EVENT_EN
  ⟨0x24, 1, 0x4, [], [⟨0, 14, .rw, 0, true, []⟩]⟩,
  -- DPL_YOUT
  ⟨0x28, 1, 0x4, [], [⟨0, 32, .ro, 0, false, []⟩]⟩,
  -- DPL_HOLD_Y
  ⟨0x2C, 1, 0x4, [], [⟨0, 32, .ro, 0, false, []⟩]⟩,
  -- DPL_PSTEP
  ⟨0x30, 1, 0x4, [], [⟨0, 32, .wo, 0, true, []⟩]⟩,
  -- DPL_PSTEP_REM
  ⟨0x34, 1, 0x4, [], [⟨0, 32, .ro, 0, false, []⟩]⟩,
  -- DPL_WCMP_SLOT
  ⟨0x38, 1, 0x4, [], [⟨0, 3, .ro, 0, false, []⟩, ⟨3, 1, .ro, 0, false, []⟩, ⟨4, 1, .w1c, 0, false, []⟩, ⟨5, 1, .ro, 0, false, []⟩]⟩,
  -- DPL_WCMP_REF
  ⟨0x3C, 1, 0x4, [], [⟨0, 32, .ro, 0, false, []⟩]⟩]

/-- DPL: R321. -/
def regsDPL1 : List RegDef := [
  -- DPL_WCMP_WIT
  ⟨0x40, 1, 0x4, [], [⟨0, 32, .ro, 0, false, []⟩]⟩,
  -- DPL_REF_CFG
  ⟨0x100, 8, 0x40, [], [⟨0, 4, .rw, 15, true, []⟩, ⟨4, 1, .rw, 0, false, []⟩, ⟨5, 1, .rw, 0, true, []⟩, ⟨8, 4, .rw, 2, false, [(2, 15)]⟩]⟩,
  -- DPL_REF_NUM
  ⟨0x104, 8, 0x40, [0, 0, 48000, 48000, 25, 10000000, 1, 0], [⟨0, 32, .rw, 0, true, []⟩]⟩,
  -- DPL_REF_DEN
  ⟨0x108, 8, 0x40, [], [⟨0, 16, .rw, 1, true, []⟩]⟩,
  -- DPL_REF_OFS
  ⟨0x10C, 8, 0x40, [], [⟨0, 30, .rw, 0, true, [(0, 999999999)]⟩]⟩,
  -- DPL_REF_JUMP
  ⟨0x110, 8, 0x40, [], [⟨0, 16, .rw, 500, false, [(1, 65535)]⟩]⟩,
  -- DPL_REF_STAT
  ⟨0x114, 8, 0x40, [], [⟨0, 3, .ro, 0, false, []⟩, ⟨3, 1, .ro, 0, false, []⟩, ⟨8, 12, .ro, 0, false, []⟩]⟩,
  -- DPL_REF_FREQ
  ⟨0x118, 8, 0x40, [], [⟨0, 32, .ro, 0, false, []⟩]⟩,
  -- DPL_REF_PHASE
  ⟨0x11C, 8, 0x40, [], [⟨0, 32, .ro, 0, false, []⟩]⟩,
  -- DPL_REF_BO
  ⟨0x120, 8, 0x40, [], [⟨0, 32, .ro, 0, false, []⟩]⟩,
  -- DPL_REF_GLITCH
  ⟨0x124, 8, 0x40, [], [⟨0, 32, .ro, 0, false, []⟩]⟩,
  -- DPL_REF_DISQ
  ⟨0x128, 8, 0x40, [], [⟨0, 32, .ro, 0, false, []⟩]⟩,
  -- DPL_FP_CFG
  ⟨0x300, 4, 0x20, [], [⟨0, 1, .rw, 0, false, []⟩, ⟨1, 1, .rw, 0, false, []⟩, ⟨8, 24, .rw, 1, false, [(1, 16777215)]⟩]⟩,
  -- DPL_FP_NUM
  ⟨0x304, 4, 0x20, [], [⟨0, 32, .rw, 1, false, []⟩]⟩,
  -- DPL_FP_DEN
  ⟨0x308, 4, 0x20, [], [⟨0, 16, .rw, 1, false, []⟩]⟩,
  -- DPL_FP_OFS
  ⟨0x30C, 4, 0x20, [], [⟨0, 30, .rw, 0, false, [(0, 999999999)]⟩]⟩]

/-- DPL: R321. -/
def regsDPL2 : List RegDef := [
  -- DPL_FP_CTL
  ⟨0x310, 4, 0x20, [], [⟨0, 1, .wo, 0, true, []⟩, ⟨8, 2, .ro, 0, false, []⟩]⟩]

/-- TIM: R298. -/
def regsTIM0 : List RegDef := [
  -- TIM_CFG
  ⟨0x0, 1, 0x4, [], [⟨0, 1, .rw, 0, false, []⟩, ⟨16, 16, .rw, 10, false, [(1, 65535)]⟩]⟩,
  -- TIM_STATUS
  ⟨0x4, 1, 0x4, [], [⟨0, 1, .ro, 0, false, []⟩, ⟨1, 1, .ro, 0, false, []⟩]⟩,
  -- TIM_EVENT
  ⟨0x8, 1, 0x4, [], [⟨0, 9, .w1c, 0, false, []⟩]⟩,
  -- TIM_EVENT_EN
  ⟨0xC, 1, 0x4, [], [⟨0, 9, .rw, 0, true, []⟩]⟩,
  -- TIM_NOW_NS
  ⟨0x10, 1, 0x4, [], [⟨0, 30, .ro, 0, false, []⟩]⟩,
  -- TIM_NOW_SEC_LO
  ⟨0x14, 1, 0x4, [], [⟨0, 32, .ro, 0, false, []⟩]⟩,
  -- TIM_NOW_SEC_HI
  ⟨0x18, 1, 0x4, [], [⟨0, 16, .ro, 0, false, []⟩]⟩,
  -- TIM_NOW_FNS
  ⟨0x1C, 1, 0x4, [], [⟨0, 32, .ro, 0, false, []⟩]⟩,
  -- TIM_INC_LO
  ⟨0x20, 1, 0x4, [], [⟨0, 32, .ro, 0x11aaaaaa, false, []⟩]⟩,
  -- TIM_INC_HI
  ⟨0x24, 1, 0x4, [], [⟨0, 4, .ro, 4, false, []⟩]⟩,
  -- TIM_SET_NS
  ⟨0x28, 1, 0x4, [], [⟨0, 30, .rw, 0, false, [(0, 999999999)]⟩]⟩,
  -- TIM_SET_SEC_LO
  ⟨0x2C, 1, 0x4, [], [⟨0, 32, .rw, 0, false, []⟩]⟩,
  -- TIM_SET_SEC_HI
  ⟨0x30, 1, 0x4, [], [⟨0, 16, .rw, 0, false, []⟩]⟩,
  -- TIM_CMD
  ⟨0x34, 1, 0x4, [], [⟨0, 2, .wo, 0, true, []⟩, ⟨2, 1, .wo, 0, true, []⟩]⟩,
  -- TIM_ANCHOR_LO
  ⟨0x38, 1, 0x4, [], [⟨0, 32, .ro, 0, false, []⟩]⟩,
  -- TIM_ANCHOR_HI
  ⟨0x3C, 1, 0x4, [], [⟨0, 32, .ro, 0, false, []⟩]⟩]

/-- TIM: R298. -/
def regsTIM1 : List RegDef := [
  -- TIM_XCMP
  ⟨0x40, 1, 0x4, [], [⟨0, 32, .ro, 0, false, []⟩]⟩,
  -- TIM_TEV
  ⟨0x44, 1, 0x4, [], [⟨0, 8, .w1c, 0, false, []⟩, ⟨8, 8, .w1c, 0, false, []⟩]⟩,
  -- TIM_TEV_EN
  ⟨0x48, 1, 0x4, [], [⟨0, 16, .rw, 0, true, []⟩]⟩,
  -- TIM_PTP_CFG
  ⟨0x100, 2, 0x80, [], [⟨0, 2, .rw, 0, false, [(0, 2)]⟩, ⟨2, 1, .rw, 0, false, []⟩, ⟨3, 1, .rw, 0, false, []⟩, ⟨4, 1, .rw, 0, false, []⟩, ⟨8, 8, .rw, 0, false, [(0, 127)]⟩, ⟨16, 4, .rw, 4, false, [(0, 8)]⟩]⟩,
  -- TIM_PTP_INTV
  ⟨0x104, 2, 0x80, [], [⟨0, 4, .rw, 13, false, [(9, 15), (0, 1)]⟩, ⟨4, 4, .rw, 1, false, [(13, 15), (0, 3)]⟩, ⟨8, 4, .rw, 13, false, [(9, 15), (0, 5)]⟩, ⟨12, 4, .rw, 3, false, [(2, 10)]⟩]⟩,
  -- TIM_PTP_DS
  ⟨0x108, 2, 0x80, [], [⟨0, 8, .rw, 128, false, []⟩, ⟨8, 8, .rw, 128, false, []⟩, ⟨16, 8, .rw, 248, false, []⟩, ⟨24, 8, .rw, 248, false, []⟩]⟩,
  -- TIM_PTP_THR
  ⟨0x10C, 2, 0x80, [], [⟨0, 16, .rw, 20, false, [(1, 65535)]⟩, ⟨16, 16, .rw, 500, false, [(1, 65535)]⟩]⟩,
  -- TIM_PTP_CORR
  ⟨0x110, 2, 0x80, [], [⟨0, 16, .rw, 0, false, []⟩, ⟨16, 16, .rw, 0, false, []⟩]⟩,
  -- TIM_PTP_LAT
  ⟨0x114, 2, 0x80, [], [⟨0, 16, .ro, 0, false, []⟩, ⟨16, 16, .ro, 0, false, []⟩]⟩,
  -- TIM_PTP_STATE
  ⟨0x118, 2, 0x80, [], [⟨0, 4, .ro, 0, false, []⟩, ⟨4, 1, .ro, 0, false, []⟩, ⟨5, 1, .ro, 0, false, []⟩, ⟨8, 4, .ro, 0, false, []⟩]⟩,
  -- TIM_PTP_OFS
  ⟨0x11C, 2, 0x80, [], [⟨0, 32, .ro, 0, false, []⟩]⟩,
  -- TIM_PTP_MPD
  ⟨0x120, 2, 0x80, [], [⟨0, 32, .ro, 0, false, []⟩]⟩,
  -- TIM_PTP_GM_LO
  ⟨0x124, 2, 0x80, [], [⟨0, 32, .ro, 0, false, []⟩]⟩,
  -- TIM_PTP_GM_HI
  ⟨0x128, 2, 0x80, [], [⟨0, 32, .ro, 0, false, []⟩]⟩,
  -- TIM_PTP_STEP
  ⟨0x12C, 2, 0x80, [], [⟨0, 32, .ro, 0, false, []⟩]⟩,
  -- TIM_PTP_DSTEP
  ⟨0x130, 2, 0x80, [], [⟨0, 32, .ro, 0, false, []⟩]⟩]

/-- TIM: R298. -/
def regsTIM2 : List RegDef := [
  -- TIM_PTP_DROP
  ⟨0x134, 2, 0x80, [], [⟨0, 32, .ro, 0, false, []⟩]⟩,
  -- TIM_TOUT_CFG
  ⟨0x200, 8, 0x20, [], [⟨0, 1, .rw, 0, true, []⟩, ⟨1, 1, .rw, 0, false, []⟩, ⟨2, 1, .rw, 0, false, []⟩, ⟨3, 1, .rw, 0, false, []⟩, ⟨4, 2, .rw, 0, false, [(0, 2)]⟩]⟩,
  -- TIM_TOUT_NS
  ⟨0x204, 8, 0x20, [], [⟨0, 30, .rw, 0, false, []⟩]⟩,
  -- TIM_TOUT_SEC_LO
  ⟨0x208, 8, 0x20, [], [⟨0, 32, .rw, 0, false, []⟩]⟩,
  -- TIM_TOUT_SEC_HI
  ⟨0x20C, 8, 0x20, [], [⟨0, 16, .rw, 0, false, []⟩]⟩,
  -- TIM_TOUT_PER_NS
  ⟨0x210, 8, 0x20, [], [⟨0, 32, .rw, 0, false, []⟩]⟩,
  -- TIM_TOUT_PER_FRAC
  ⟨0x214, 8, 0x20, [], [⟨0, 32, .rw, 0, false, []⟩]⟩,
  -- TIM_TOUT_WIDTH
  ⟨0x218, 8, 0x20, [], [⟨0, 24, .rw, 1, false, [(1, 16777215)]⟩]⟩,
  -- TIM_TOUT_STAT
  ⟨0x21C, 8, 0x20, [], [⟨0, 1, .ro, 0, false, []⟩, ⟨1, 1, .ro, 0, false, []⟩, ⟨16, 16, .ro, 0, false, []⟩]⟩,
  -- TIM_TCAP_CFG
  ⟨0x300, 8, 0x10, [], [⟨0, 2, .rw, 0, false, []⟩, ⟨2, 1, .rw, 0, false, []⟩]⟩,
  -- TIM_TCAP_NS
  ⟨0x304, 8, 0x10, [], [⟨0, 30, .ro, 0, false, []⟩, ⟨30, 1, .ro, 0, false, []⟩, ⟨31, 1, .ro, 0, false, []⟩]⟩,
  -- TIM_TCAP_SEC_LO
  ⟨0x308, 8, 0x10, [], [⟨0, 32, .ro, 0, false, []⟩]⟩,
  -- TIM_TCAP_SEC_HI
  ⟨0x30C, 8, 0x10, [], [⟨0, 16, .ro, 0, false, []⟩, ⟨16, 3, .ro, 0, false, []⟩]⟩]

/-- NT: R280. -/
def regsNT0 : List RegDef := [
  -- NT_CFG
  ⟨0x0, 2, 0x1000, [], [⟨0, 2, .rw, 0, false, [(0, 2)]⟩, ⟨2, 1, .rw, 0, false, []⟩, ⟨3, 1, .rw, 1, false, []⟩, ⟨4, 1, .rw, 1, false, []⟩, ⟨5, 2, .rw, 0, false, [(0, 2)]⟩, ⟨7, 6, .rw, 0, false, []⟩]⟩,
  -- NT_STATUS
  ⟨0x4, 2, 0x1000, [], [⟨0, 1, .ro, 0, false, []⟩, ⟨1, 1, .ro, 0, false, []⟩, ⟨2, 1, .ro, 0, false, []⟩]⟩,
  -- NT_EVENT
  ⟨0x8, 2, 0x1000, [], [⟨0, 5, .w1c, 0, false, []⟩]⟩,
  -- NT_EVENT_EN
  ⟨0xC, 2, 0x1000, [], [⟨0, 5, .rw, 0, true, []⟩]⟩,
  -- NT_MAC_LO
  ⟨0x10, 2, 0x1000, [], [⟨0, 32, .rw, 0, false, []⟩]⟩,
  -- NT_MAC_HI
  ⟨0x14, 2, 0x1000, [], [⟨0, 16, .rw, 0, false, []⟩]⟩,
  -- NT_IPV4
  ⟨0x18, 2, 0x1000, [], [⟨0, 32, .rw, 0, false, []⟩]⟩,
  -- NT_VLAN
  ⟨0x1C, 2, 0x1000, [], [⟨0, 12, .rw, 0, false, []⟩, ⟨12, 3, .rw, 0, false, []⟩, ⟨15, 1, .rw, 0, false, []⟩]⟩,
  -- NT_I2C
  ⟨0x20, 2, 0x1000, [], [⟨0, 7, .rw, 0, false, []⟩, ⟨7, 1, .rw, 0, false, []⟩, ⟨8, 8, .rw, 0, false, []⟩, ⟨16, 8, .rw, 0, false, []⟩, ⟨24, 1, .wo, 0, true, []⟩]⟩,
  -- NT_I2C_STAT
  ⟨0x24, 2, 0x1000, [], [⟨0, 8, .ro, 0, false, []⟩, ⟨8, 1, .ro, 0, false, []⟩, ⟨9, 1, .ro, 0, false, []⟩]⟩,
  -- NT_MCAST_SEL
  ⟨0x28, 2, 0x1000, [], [⟨0, 4, .rw, 0, false, []⟩]⟩,
  -- NT_MCAST_LO
  ⟨0x2C, 2, 0x1000, [], [⟨0, 32, .rw, 0, false, []⟩]⟩,
  -- NT_MCAST_HI
  ⟨0x30, 2, 0x1000, [], [⟨0, 16, .rw, 0, false, []⟩, ⟨16, 1, .rw, 0, false, []⟩]⟩,
  -- NT_RX_FRAMES
  ⟨0x40, 2, 0x1000, [], [⟨0, 32, .ro, 0, false, []⟩]⟩,
  -- NT_RX_DROP
  ⟨0x44, 2, 0x1000, [], [⟨0, 32, .ro, 0, false, []⟩]⟩,
  -- NT_TX_FRAMES
  ⟨0x48, 2, 0x1000, [], [⟨0, 32, .ro, 0, false, []⟩]⟩]

/-- NT: R280. -/
def regsNT1 : List RegDef := [
  -- NT_EGRESS_MAX
  ⟨0x4C, 2, 0x1000, [], [⟨0, 32, .rw, 0, false, []⟩]⟩]

/-- STM: R281. -/
def regsSTM0 : List RegDef := [
  -- STM_GCFG
  ⟨0x0, 1, 0x4, [], [⟨0, 16, .rw, 240, false, [(1, 65535)]⟩, ⟨16, 5, .rw, 20, false, [(1, 20)]⟩]⟩,
  -- STM_EVENT
  ⟨0x4, 1, 0x4, [], [⟨0, 9, .w1c, 0, false, []⟩]⟩,
  -- STM_EVENT_EN
  ⟨0x8, 1, 0x4, [], [⟨0, 9, .rw, 0, true, []⟩]⟩,
  -- STM_EVT_CTX
  ⟨0xC, 1, 0x4, [], [⟨0, 9, .ro, 0, false, []⟩, ⟨9, 1, .ro, 0, false, []⟩, ⟨10, 1, .w1c, 0, false, []⟩]⟩,
  -- STM_SEL
  ⟨0x10, 1, 0x4, [], [⟨0, 9, .rw, 0, false, []⟩, ⟨9, 1, .rw, 0, false, []⟩]⟩,
  -- STM_CMD
  ⟨0x14, 1, 0x4, [], [⟨0, 3, .wo, 0, true, []⟩]⟩,
  -- STM_STATUS
  ⟨0x18, 1, 0x4, [], [⟨0, 3, .ro, 0, false, []⟩, ⟨4, 4, .ro, 0, false, []⟩, ⟨8, 1, .ro, 0, false, []⟩, ⟨9, 1, .ro, 0, false, []⟩, ⟨16, 6, .ro, 0, false, []⟩]⟩,
  -- STM_CFG
  ⟨0x40, 1, 0x4, [], [⟨0, 2, .rw, 1, false, [(0, 2)]⟩, ⟨2, 6, .rw, 0, false, []⟩, ⟨8, 3, .rw, 3, false, [(0, 4)]⟩, ⟨11, 2, .rw, 1, false, [(1, 3)]⟩, ⟨13, 1, .rw, 0, false, []⟩, ⟨14, 1, .rw, 0, false, []⟩, ⟨15, 1, .rw, 0, false, []⟩, ⟨16, 1, .rw, 0, false, []⟩, ⟨17, 2, .rw, 0, false, [(0, 2)]⟩]⟩,
  -- STM_CHAN
  ⟨0x44, 1, 0x4, [], [⟨0, 11, .rw, 0, false, []⟩]⟩,
  -- STM_DST_A
  ⟨0x48, 1, 0x4, [], [⟨0, 32, .rw, 0, false, []⟩]⟩,
  -- STM_DST_B
  ⟨0x4C, 1, 0x4, [], [⟨0, 32, .rw, 0, false, []⟩]⟩,
  -- STM_SRC_A
  ⟨0x50, 1, 0x4, [], [⟨0, 32, .rw, 0, false, []⟩]⟩,
  -- STM_SRC_B
  ⟨0x54, 1, 0x4, [], [⟨0, 32, .rw, 0, false, []⟩]⟩,
  -- STM_UDP
  ⟨0x58, 1, 0x4, [], [⟨0, 16, .rw, 5004, false, []⟩, ⟨16, 16, .rw, 5004, false, []⟩]⟩,
  -- STM_RTP
  ⟨0x5C, 1, 0x4, [], [⟨0, 7, .rw, 96, false, [(96, 127)]⟩, ⟨8, 6, .rw, 46, false, []⟩]⟩,
  -- STM_SSRC
  ⟨0x60, 1, 0x4, [], [⟨0, 32, .rw, 0, false, []⟩]⟩]

/-- STM: R281. -/
def regsSTM1 : List RegDef := [
  -- STM_RTP_OFS
  ⟨0x64, 1, 0x4, [], [⟨0, 32, .rw, 0, false, []⟩]⟩,
  -- STM_DRX
  ⟨0x68, 1, 0x4, [], [⟨0, 16, .rw, 48, false, []⟩, ⟨16, 11, .rw, 2, false, [(1, 1024)]⟩]⟩,
  -- STM_DMAC_LO
  ⟨0x6C, 1, 0x4, [], [⟨0, 32, .rw, 0, false, []⟩]⟩,
  -- STM_DMAC_HI
  ⟨0x70, 1, 0x4, [], [⟨0, 16, .rw, 0, false, []⟩]⟩,
  -- STM_PKTS_A
  ⟨0x80, 1, 0x4, [], [⟨0, 32, .ro, 0, false, []⟩]⟩,
  -- STM_PKTS_B
  ⟨0x84, 1, 0x4, [], [⟨0, 32, .ro, 0, false, []⟩]⟩,
  -- STM_LATE
  ⟨0x88, 1, 0x4, [], [⟨0, 32, .ro, 0, false, []⟩]⟩,
  -- STM_EARLY
  ⟨0x8C, 1, 0x4, [], [⟨0, 32, .ro, 0, false, []⟩]⟩,
  -- STM_DUP
  ⟨0x90, 1, 0x4, [], [⟨0, 32, .ro, 0, false, []⟩]⟩,
  -- STM_FORM
  ⟨0x94, 1, 0x4, [], [⟨0, 32, .ro, 0, false, []⟩]⟩,
  -- STM_CONCEAL
  ⟨0x98, 1, 0x4, [], [⟨0, 32, .ro, 0, false, []⟩]⟩,
  -- STM_SLIP
  ⟨0x9C, 1, 0x4, [], [⟨0, 32, .ro, 0, false, []⟩]⟩,
  -- STM_SKEW
  ⟨0xA0, 1, 0x4, [], [⟨0, 16, .ro, 0, false, []⟩, ⟨16, 1, .ro, 0, false, []⟩]⟩,
  -- STM_CS_ADDR
  ⟨0xC0, 1, 0x4, [], [⟨0, 5, .rw, 0, false, [(0, 23)]⟩, ⟨5, 6, .rw, 0, false, []⟩, ⟨11, 1, .rw, 0, false, []⟩]⟩,
  -- STM_CS_DATA
  ⟨0xC4, 1, 0x4, [], [⟨0, 8, .rw, 0, true, []⟩]⟩]

/-- APT: R254. -/
def regsAPT0 : List RegDef := [
  -- APT_GCFG
  ⟨0x0, 1, 0x4, [], [⟨0, 8, .rw, 16, false, [(1, 255)]⟩, ⟨8, 7, .rw, 5, false, [(1, 100)]⟩, ⟨16, 2, .rw, 2, false, []⟩, ⟨18, 2, .rw, 1, false, [(0, 2)]⟩]⟩,
  -- APT_EVENT
  ⟨0x4, 1, 0x4, [], [⟨0, 9, .w1c, 0, false, []⟩]⟩,
  -- APT_EVENT_EN
  ⟨0x8, 1, 0x4, [], [⟨0, 9, .rw, 0, true, []⟩]⟩,
  -- APT_CS_ADDR
  ⟨0xC, 1, 0x4, [], [⟨0, 5, .rw, 0, false, [(0, 23)]⟩, ⟨5, 1, .rw, 0, false, []⟩, ⟨6, 1, .rw, 0, false, []⟩, ⟨8, 5, .rw, 16, false, [(16, 31)]⟩]⟩,
  -- APT_CS_DATA
  ⟨0x10, 1, 0x4, [], [⟨0, 8, .rw, 0, true, []⟩]⟩,
  -- APT_AES_REF
  ⟨0x14, 1, 0x4, [], [⟨0, 3, .rw, 0, false, []⟩]⟩,
  -- APT_CG
  ⟨0x20, 4, 0x4, [], [⟨0, 2, .rw, 0, false, [(0, 2)]⟩, ⟨4, 1, .rw, 0, false, []⟩, ⟨8, 4, .rw, 0, false, []⟩]⟩,
  -- APT_FMT
  ⟨0x100, 16, 0x20, [], [⟨0, 2, .rw, 0, false, [(0, 2)]⟩, ⟨2, 3, .rw, 0, false, [(0, 4)]⟩, ⟨5, 2, .rw, 2, false, [(0, 2)]⟩, ⟨8, 2, .rw, 2, false, []⟩, ⟨10, 1, .rw, 0, false, []⟩, ⟨11, 1, .rw, 0, false, []⟩, ⟨12, 1, .rw, 0, false, []⟩, ⟨13, 1, .rw, 0, false, []⟩, ⟨16, 3, .rw, 0, false, [(0, 5)]⟩]⟩,
  -- APT_RXFMT
  ⟨0x300, 8, 0x20, [], [⟨8, 2, .rw, 2, false, [(1, 2)]⟩, ⟨20, 2, .rw, 0, false, [(0, 1)]⟩, ⟨22, 1, .rw, 1, false, []⟩]⟩,
  -- APT_TXFMT
  ⟨0x400, 8, 0x20, [], [⟨8, 2, .rw, 2, false, [(1, 2)]⟩, ⟨20, 2, .rw, 0, false, [(0, 2)]⟩, ⟨22, 1, .rw, 1, false, []⟩]⟩,
  -- APT_CTL
  ⟨0x104, 32, 0x20, [], [⟨0, 3, .wo, 0, true, []⟩, ⟨4, 1, .rw, 0, false, []⟩, ⟨5, 1, .rw, 0, false, []⟩, ⟨6, 1, .rw, 1, false, []⟩]⟩,
  -- APT_PSTAT
  ⟨0x108, 32, 0x20, [], [⟨0, 3, .ro, 0, false, []⟩, ⟨4, 4, .ro, 0, false, []⟩, ⟨8, 1, .ro, 0, false, []⟩, ⟨9, 1, .ro, 0, false, []⟩]⟩,
  -- APT_PHASE
  ⟨0x10C, 32, 0x20, [], [⟨0, 16, .ro, 0, false, []⟩, ⟨16, 16, .ro, 0, false, []⟩]⟩,
  -- APT_SLIP
  ⟨0x110, 32, 0x20, [], [⟨0, 32, .ro, 0, false, []⟩]⟩,
  -- APT_GLITCH
  ⟨0x114, 32, 0x20, [], [⟨0, 32, .ro, 0, false, []⟩]⟩,
  -- APT_AESERR
  ⟨0x318, 8, 0x20, [], [⟨0, 16, .ro, 0, false, []⟩, ⟨16, 16, .ro, 0, false, []⟩]⟩]

/-- EXL: R348. -/
def regsEXL0 : List RegDef := [
  -- EXL_CFG
  ⟨0x0, 1, 0x4, [], [⟨0, 3, .rw, 0, false, []⟩, ⟨3, 1, .rw, 0, false, []⟩, ⟨4, 1, .rw, 0, false, []⟩, ⟨5, 2, .rw, 0, false, [(0, 2)]⟩]⟩,
  -- EXL_CTL
  ⟨0x4, 1, 0x4, [], [⟨0, 3, .wo, 0, true, []⟩]⟩,
  -- EXL_STATUS
  ⟨0x8, 1, 0x4, [], [⟨0, 3, .ro, 0, false, []⟩, ⟨3, 1, .ro, 0, false, []⟩, ⟨4, 1, .ro, 0, false, []⟩, ⟨5, 3, .ro, 0, false, []⟩, ⟨8, 1, .ro, 0, false, []⟩, ⟨9, 3, .ro, 0, false, []⟩, ⟨12, 4, .ro, 0, false, []⟩]⟩,
  -- EXL_EVENT
  ⟨0xC, 1, 0x4, [], [⟨0, 12, .w1c, 0, false, []⟩]⟩,
  -- EXL_EVENT_EN
  ⟨0x10, 1, 0x4, [], [⟨0, 12, .rw, 0, true, []⟩]⟩,
  -- EXL_PORT
  ⟨0x20, 2, 0x4, [], [⟨0, 3, .ro, 0, false, []⟩, ⟨3, 1, .ro, 0, false, []⟩, ⟨4, 2, .ro, 3, false, []⟩, ⟨6, 1, .ro, 0, false, []⟩, ⟨8, 3, .ro, 0, false, []⟩, ⟨11, 1, .ro, 0, false, []⟩]⟩,
  -- EXL_HOP
  ⟨0x28, 2, 0x4, [], [⟨0, 16, .ro, 0, false, []⟩]⟩,
  -- EXL_CRC
  ⟨0x30, 2, 0x4, [], [⟨0, 32, .ro, 0, false, []⟩]⟩,
  -- EXL_LATE
  ⟨0x38, 2, 0x4, [], [⟨0, 32, .ro, 0, false, []⟩]⟩,
  -- EXL_MAP
  ⟨0x40, 8, 0x4, [], [⟨0, 3, .ro, 0, false, []⟩, ⟨3, 3, .ro, 0, false, []⟩, ⟨6, 1, .ro, 0, false, []⟩, ⟨7, 1, .ro, 0, false, []⟩]⟩,
  -- EXL_CHOWN
  ⟨0x60, 4, 0x4, [], [⟨0, 3, .rw, 0, false, []⟩, ⟨3, 1, .rw, 0, false, []⟩, ⟨4, 3, .rw, 0, false, []⟩, ⟨7, 1, .rw, 0, false, []⟩, ⟨8, 3, .rw, 0, false, []⟩, ⟨11, 1, .rw, 0, false, []⟩, ⟨12, 3, .rw, 0, false, []⟩, ⟨15, 1, .rw, 0, false, []⟩, ⟨16, 3, .rw, 0, false, []⟩, ⟨19, 1, .rw, 0, false, []⟩, ⟨20, 3, .rw, 0, false, []⟩, ⟨23, 1, .rw, 0, false, []⟩, ⟨24, 3, .rw, 0, false, []⟩, ⟨27, 1, .rw, 0, false, []⟩, ⟨28, 3, .rw, 0, false, []⟩, ⟨31, 1, .rw, 0, false, []⟩]⟩]

/-- HST: R204. -/
def regsHST0 : List RegDef := [
  -- HST_CFG
  ⟨0x0, 1, 0x4, [], [⟨0, 3, .rw, 4, false, [(0, 4)]⟩, ⟨8, 1, .rw, 0, false, []⟩, ⟨9, 1, .rw, 0, false, []⟩, ⟨10, 1, .rw, 0, false, []⟩]⟩,
  -- HST_STATUS
  ⟨0x4, 1, 0x4, [], [⟨0, 4, .ro, 0, false, []⟩, ⟨4, 5, .ro, 0, false, []⟩, ⟨9, 1, .ro, 0, false, []⟩, ⟨10, 1, .ro, 0, false, []⟩]⟩,
  -- HST_EVENT
  ⟨0x8, 1, 0x4, [], [⟨0, 7, .w1c, 0, false, []⟩]⟩,
  -- HST_EVENT_EN
  ⟨0xC, 1, 0x4, [], [⟨0, 7, .rw, 0, true, []⟩]⟩,
  -- HST_EVT_CFG
  ⟨0x10, 1, 0x4, [], [⟨0, 6, .rw, 0, false, []⟩, ⟨6, 1, .rw, 0, false, []⟩, ⟨8, 6, .rw, 0, false, []⟩]⟩,
  -- HST_EVT_DROP
  ⟨0x14, 1, 0x4, [], [⟨0, 32, .ro, 0, false, []⟩]⟩,
  -- HST_MISS_INFO
  ⟨0x18, 1, 0x4, [], [⟨0, 2, .ro, 0, false, []⟩, ⟨2, 1, .ro, 0, false, []⟩, ⟨3, 1, .w1c, 0, false, []⟩]⟩,
  -- HST_MISS_OFF
  ⟨0x1C, 1, 0x4, [], [⟨0, 28, .ro, 0, false, []⟩]⟩,
  -- HST_MISS_COUNT
  ⟨0x20, 1, 0x4, [], [⟨0, 32, .ro, 0, false, []⟩]⟩,
  -- HST_PLAY_UNDER
  ⟨0x24, 1, 0x4, [], [⟨0, 32, .ro, 0, false, []⟩]⟩,
  -- HST_REC_LOST
  ⟨0x28, 1, 0x4, [], [⟨0, 32, .ro, 0, false, []⟩]⟩,
  -- HST_WIN_BASE
  ⟨0x100, 8, 0x10, [], [⟨16, 12, .rw, 0, false, []⟩]⟩,
  -- HST_WIN_TGT
  ⟨0x104, 8, 0x10, [], [⟨0, 15, .rw, 0, false, []⟩]⟩,
  -- HST_WIN_CTL
  ⟨0x108, 8, 0x10, [], [⟨0, 1, .rw, 0, false, []⟩, ⟨1, 1, .rw, 0, false, []⟩, ⟨2, 4, .rw, 0, false, [(0, 12)]⟩, ⟨8, 2, .rw, 0, false, []⟩]⟩,
  -- HST_RBASE_LO
  ⟨0x400, 64, 0x20, [], [⟨0, 32, .rw, 0, false, []⟩]⟩,
  -- HST_RBASE_HI
  ⟨0x404, 64, 0x20, [], [⟨0, 32, .rw, 0, false, []⟩]⟩]

/-- HST: R204. -/
def regsHST1 : List RegDef := [
  -- HST_RCFG
  ⟨0x408, 64, 0x20, [], [⟨0, 4, .rw, 0, false, [(0, 10)]⟩, ⟨4, 1, .rw, 0, false, []⟩, ⟨8, 4, .rw, 0, false, [(0, 9)]⟩, ⟨16, 6, .rw, 0, false, []⟩]⟩,
  -- HST_RCTRL
  ⟨0x40C, 64, 0x20, [], [⟨0, 1, .rw, 0, true, []⟩]⟩,
  -- HST_RSTAT
  ⟨0x410, 64, 0x20, [], [⟨0, 16, .ro, 0, false, []⟩, ⟨16, 2, .ro, 0, false, []⟩, ⟨20, 4, .ro, 0, false, []⟩]⟩,
  -- HST_RMOD
  ⟨0x414, 64, 0x20, [], [⟨0, 8, .rw, 0, false, []⟩, ⟨8, 8, .rw, 0, false, []⟩, ⟨16, 1, .rw, 0, false, []⟩]⟩,
  -- HST_RAUD
  ⟨0x418, 64, 0x20, [], [⟨0, 8, .rw, 0, false, []⟩, ⟨8, 8, .rw, 0, false, []⟩, ⟨16, 2, .rw, 2, false, [(0, 2)]⟩, ⟨20, 8, .rw, 16, false, [(2, 255)]⟩]⟩]

/-- XBR: R235. -/
def regsXBR0 : List RegDef := [
  -- XBR_DPOL0
  ⟨0x0, 1, 0x4, [], [⟨0, 26, .rwl, 0, false, []⟩, ⟨28, 4, .rwl, 0, false, []⟩]⟩,
  -- XBR_DPOL1
  ⟨0x4, 1, 0x4, [], [⟨0, 4, .rwl, 0, false, []⟩]⟩,
  -- XBR_EVENT
  ⟨0x8, 1, 0x4, [], [⟨0, 4, .w1c, 0, false, []⟩]⟩,
  -- XBR_EVENT_EN
  ⟨0xC, 1, 0x4, [], [⟨0, 4, .rw, 0, true, []⟩]⟩,
  -- XBR_ERR_INFO
  ⟨0x10, 1, 0x4, [], [⟨0, 6, .ro, 0, false, []⟩, ⟨6, 2, .ro, 0, false, []⟩, ⟨8, 1, .ro, 0, false, []⟩, ⟨9, 1, .w1c, 0, false, []⟩, ⟨10, 6, .ro, 0, false, []⟩]⟩,
  -- XBR_ERR_ADDR
  ⟨0x14, 1, 0x4, [], [⟨0, 32, .ro, 0, false, []⟩]⟩,
  -- XBR_ERR_COUNT
  ⟨0x18, 1, 0x4, [], [⟨0, 32, .ro, 0, false, []⟩]⟩,
  -- XBR_RESET_BURSTS
  ⟨0x1C, 1, 0x4, [], [⟨0, 32, .ro, 0, false, []⟩]⟩,
  -- XBR_CONF
  ⟨0x20, 5, 0x4, [], [⟨0, 32, .ro, 0, false, []⟩]⟩,
  -- XBR_RWIN_BASE
  ⟨0x100, 8, 0x8, [], [⟨0, 15, .rwl, 0, false, []⟩]⟩,
  -- XBR_RWIN_CTL
  ⟨0x104, 8, 0x8, [], [⟨0, 1, .rwl, 0, false, []⟩, ⟨1, 1, .rwl, 0, false, []⟩, ⟨16, 15, .rwl, 0, false, [(0, 24576)]⟩]⟩]

/-- CEL: R234. -/
def regsCEL0 : List RegDef := [
  -- CEL_STATUS
  ⟨0x0, 1, 0x4, [], [⟨0, 15, .ro, 24576, false, []⟩, ⟨16, 15, .ro, 24576, false, []⟩]⟩,
  -- CEL_EVENT
  ⟨0x4, 1, 0x4, [], [⟨0, 5, .w1c, 0, false, []⟩]⟩,
  -- CEL_EVENT_EN
  ⟨0x8, 1, 0x4, [], [⟨0, 5, .rw, 0, true, []⟩]⟩,
  -- CEL_ALLOC_OWNER
  ⟨0x10, 1, 0x4, [], [⟨0, 20, .rw, 0, false, []⟩, ⟨20, 4, .rw, 0, false, [(0, 8)]⟩]⟩,
  -- CEL_ALLOC_REQ
  ⟨0x14, 1, 0x4, [], [⟨0, 15, .rw, 1, false, []⟩, ⟨16, 15, .rw, 0, false, []⟩]⟩,
  -- CEL_ALLOC_CMD
  ⟨0x18, 1, 0x4, [], [⟨0, 3, .wo, 0, true, []⟩, ⟨4, 1, .wo, 0, true, []⟩, ⟨5, 1, .wo, 0, true, []⟩, ⟨6, 1, .wo, 0, true, []⟩]⟩,
  -- CEL_ALLOC_STATUS
  ⟨0x1C, 1, 0x4, [], [⟨0, 2, .ro, 0, false, []⟩, ⟨4, 4, .ro, 0, false, []⟩]⟩,
  -- CEL_ALLOC_INFO
  ⟨0x20, 1, 0x4, [], [⟨0, 15, .ro, 0, false, []⟩, ⟨15, 1, .ro, 0, false, []⟩, ⟨16, 15, .ro, 0, false, []⟩, ⟨31, 1, .ro, 0, false, []⟩]⟩,
  -- CEL_ALLOC_TWIN
  ⟨0x24, 1, 0x4, [], [⟨0, 15, .ro, 0, false, []⟩]⟩,
  -- CEL_DBE_INFO
  ⟨0x28, 1, 0x4, [], [⟨0, 15, .ro, 0, false, []⟩, ⟨15, 1, .w1c, 0, false, []⟩, ⟨16, 6, .ro, 0, false, []⟩]⟩,
  -- CEL_DBE_COUNT
  ⟨0x2C, 1, 0x4, [], [⟨0, 32, .ro, 0, false, []⟩]⟩,
  -- CEL_MIRROR_FIX
  ⟨0x30, 1, 0x4, [], [⟨0, 32, .ro, 0, false, []⟩]⟩,
  -- CEL_PBANKA
  ⟨0x100, 64, 0x4, (List.range 64).map (fun i => i * 256), [⟨0, 2, .rwl, 0, true, []⟩, ⟨8, 7, .ro, 0, false, []⟩]⟩,
  -- CEL_PBANKB
  ⟨0x200, 4, 0x4, [], [⟨0, 2, .rwl, 0, true, []⟩, ⟨8, 7, .ro, 127, false, []⟩]⟩]

/-- MOV: R220. -/
def regsMOV0 : List RegDef := [
  -- MOV_LOCK
  ⟨0x0, 1, 0x4, [], [⟨0, 5, .ro, 0, false, []⟩, ⟨16, 12, .ro, 0, false, []⟩]⟩,
  -- MOV_FAULT_EVT
  ⟨0x8, 1, 0x4, [], [⟨0, 16, .w1c, 0, false, []⟩]⟩,
  -- MOV_HALT_EVT
  ⟨0xC, 1, 0x4, [], [⟨0, 16, .w1c, 0, false, []⟩]⟩,
  -- MOV_TICK_EVT
  ⟨0x10, 1, 0x4, [], [⟨0, 16, .w1c, 0, false, []⟩]⟩,
  -- MOV_FAULT_EN
  ⟨0x18, 1, 0x4, [], [⟨0, 16, .rw, 0, true, []⟩]⟩,
  -- MOV_HALT_EN
  ⟨0x1C, 1, 0x4, [], [⟨0, 16, .rw, 0, true, []⟩]⟩,
  -- MOV_TICK_EN
  ⟨0x20, 1, 0x4, [], [⟨0, 16, .rw, 0, true, []⟩]⟩,
  -- MOV_CTL
  ⟨0x100, 16, 0x40, [], [⟨0, 2, .wo, 0, true, []⟩, ⟨3, 1, .rwl, 0, false, []⟩, ⟨16, 11, .rwl, 0, false, []⟩]⟩,
  -- MOV_STAT
  ⟨0x104, 16, 0x40, [], [⟨0, 2, .ro, 0, false, []⟩, ⟨4, 4, .ro, 0, false, []⟩, ⟨8, 11, .ro, 0, false, []⟩, ⟨24, 8, .ro, 0, false, []⟩]⟩,
  -- MOV_BUDGET
  ⟨0x108, 16, 0x40, [], [⟨0, 16, .rwl, 4096, false, [(16, 65535)]⟩]⟩,
  -- MOV_INBOX
  ⟨0x10C, 16, 0x40, [], [⟨0, 16, .w1s, 0, true, []⟩]⟩,
  -- MOV_WITHDRAW
  ⟨0x110, 16, 0x40, [], [⟨0, 32, .ro, 0, false, []⟩]⟩,
  -- MOV_OVR
  ⟨0x114, 16, 0x40, [], [⟨0, 32, .ro, 0, false, []⟩]⟩,
  -- MOV_ARCFG
  ⟨0x800, 128, 0x20, [], [⟨0, 4, .rwl, 0, false, []⟩, ⟨16, 16, .rwl, 0, false, []⟩]⟩,
  -- MOV_ARBASE
  ⟨0x804, 128, 0x20, [], [⟨0, 27, .rwl, 0, false, []⟩]⟩,
  -- MOV_ARLEN
  ⟨0x808, 128, 0x20, [], [⟨0, 27, .rwl, 0, true, []⟩]⟩]

/-- MOV: R220. -/
def regsMOV1 : List RegDef := [
  -- MOV_ARPTR
  ⟨0x80C, 128, 0x20, [], [⟨0, 27, .rwl, 0, false, []⟩]⟩]

/-- VLT: R176. -/
def regsVLT0 : List RegDef := [
  -- VLT_CFG
  ⟨0x0, 1, 0x4, [], [⟨0, 1, .rw, 0, false, []⟩, ⟨1, 1, .rwl, 1, false, []⟩]⟩,
  -- VLT_STATUS
  ⟨0x4, 1, 0x4, [], [⟨0, 4, .ro, 0, false, []⟩, ⟨4, 1, .ro, 0, false, []⟩, ⟨5, 1, .ro, 0, false, []⟩, ⟨6, 1, .ro, 0, false, []⟩, ⟨7, 1, .ro, 0, false, []⟩, ⟨8, 7, .ro, 0, false, []⟩]⟩,
  -- VLT_GEN_LO
  ⟨0x8, 1, 0x4, [], [⟨0, 32, .ro, 0, false, []⟩]⟩,
  -- VLT_GEN_HI
  ⟨0xC, 1, 0x4, [], [⟨0, 32, .ro, 0, false, []⟩]⟩,
  -- VLT_COMMIT_STATUS
  ⟨0x10, 1, 0x4, [], [⟨0, 8, .ro, 0, false, []⟩, ⟨8, 6, .ro, 0, false, []⟩, ⟨14, 2, .ro, 0, false, []⟩, ⟨16, 1, .ro, 0, false, []⟩]⟩,
  -- VLT_EVENT
  ⟨0x14, 1, 0x4, [], [⟨0, 9, .w1c, 0, false, []⟩]⟩,
  -- VLT_EVENT_EN
  ⟨0x18, 1, 0x4, [], [⟨0, 9, .rw, 0, true, []⟩]⟩,
  -- VLT_LATE_COUNT
  ⟨0x1C, 1, 0x4, [], [⟨0, 32, .ro, 0, false, []⟩]⟩,
  -- VLT_REFUSED_COUNT
  ⟨0x20, 1, 0x4, [], [⟨0, 32, .ro, 0, false, []⟩]⟩,
  -- VLT_SNAP_DROP
  ⟨0x24, 1, 0x4, [], [⟨0, 32, .ro, 0, false, []⟩]⟩,
  -- VLT_GROUP_ADDR
  ⟨0x28, 1, 0x4, [], [⟨0, 12, .rw, 0, false, []⟩, ⟨12, 12, .rw, 0, false, []⟩, ⟨24, 8, .rw, 0, false, []⟩]⟩,
  -- VLT_GROUP_DATA
  ⟨0x2C, 1, 0x4, [], [⟨0, 6, .rw, 0, true, []⟩]⟩,
  -- VLT_GGEN_SEL
  ⟨0x30, 1, 0x4, [], [⟨0, 6, .rw, 0, false, []⟩]⟩,
  -- VLT_GGEN_LO
  ⟨0x34, 1, 0x4, [], [⟨0, 32, .ro, 0, false, []⟩]⟩,
  -- VLT_GGEN_HI
  ⟨0x38, 1, 0x4, [], [⟨0, 32, .ro, 0, false, []⟩]⟩,
  -- VLT_ARM_SEL
  ⟨0x3C, 1, 0x4, [], [⟨0, 3, .rw, 0, false, []⟩]⟩]

/-- VLT: R176. -/
def regsVLT1 : List RegDef := [
  -- VLT_ARM_INFO
  ⟨0x40, 1, 0x4, [], [⟨0, 1, .ro, 0, false, []⟩, ⟨1, 3, .ro, 0, false, []⟩, ⟨4, 1, .ro, 0, false, []⟩, ⟨5, 1, .ro, 0, false, []⟩, ⟨6, 4, .ro, 0, false, []⟩]⟩,
  -- VLT_ARM_MASK_LO
  ⟨0x44, 1, 0x4, [], [⟨0, 32, .ro, 0, false, []⟩]⟩,
  -- VLT_ARM_MASK_HI
  ⟨0x48, 1, 0x4, [], [⟨0, 32, .ro, 0, false, []⟩]⟩,
  -- VLT_ARM_LAP_LO
  ⟨0x4C, 1, 0x4, [], [⟨0, 32, .ro, 0, false, []⟩]⟩,
  -- VLT_ARM_LAP_HI
  ⟨0x50, 1, 0x4, [], [⟨0, 32, .ro, 0, false, []⟩]⟩,
  -- VLT_STORE
  ⟨0x54, 1, 0x4, [], [⟨0, 15, .ro, 0, false, []⟩, ⟨15, 1, .ro, 0, false, []⟩, ⟨16, 13, .ro, 0, false, []⟩]⟩,
  -- VLT_STORE_ERR
  ⟨0x58, 1, 0x4, [], [⟨0, 1, .ro, 0, false, []⟩, ⟨12, 12, .ro, 0, false, []⟩, ⟨24, 8, .ro, 0, false, []⟩]⟩,
  -- VLT_PROF_A
  ⟨0x100, 16, 0x8, [], [⟨0, 14, .rw, 480, false, []⟩, ⟨16, 14, .rw, 256, false, []⟩]⟩,
  -- VLT_PROF_B
  ⟨0x104, 16, 0x8, [], [⟨0, 14, .rw, 256, false, []⟩, ⟨16, 1, .rw, 1, false, []⟩]⟩]

/-- TIL: R71. -/
def regsTIL0 : List RegDef := [
  -- TIL_CHK_CFG
  ⟨0x0, 1, 0x4, [], [⟨0, 16, .rw, 256, false, [(16, 65535)]⟩, ⟨16, 1, .rw, 1, false, []⟩, ⟨17, 1, .rwl, 1, false, []⟩]⟩,
  -- TIL_RAMP
  ⟨0x4, 1, 0x4, [], [⟨0, 10, .rw, 10, false, [(1, 1000)]⟩, ⟨16, 10, .rw, 32, false, [(1, 1023)]⟩]⟩,
  -- TIL_EVENT
  ⟨0x8, 1, 0x4, [], [⟨0, 9, .w1c, 0, false, []⟩]⟩,
  -- TIL_EVENT_EN
  ⟨0xC, 1, 0x4, [], [⟨0, 9, .rw, 0, true, []⟩]⟩,
  -- TIL_PLACE_ADDR
  ⟨0x10, 1, 0x4, [], [⟨0, 11, .rw, 0, false, []⟩]⟩,
  -- TIL_PLACE_DATA
  ⟨0x14, 1, 0x4, [], [⟨0, 5, .rw, 0, true, []⟩, ⟨31, 1, .rw, 0, true, []⟩]⟩,
  -- TIL_PLACE_LAP_LO
  ⟨0x18, 1, 0x4, [], [⟨0, 32, .rw, 0, false, []⟩]⟩,
  -- TIL_PLACE_LAP_HI
  ⟨0x1C, 1, 0x4, [], [⟨0, 32, .rw, 0, false, []⟩]⟩,
  -- TIL_PLACE_CMD
  ⟨0x20, 1, 0x4, [], [⟨0, 2, .wo, 0, true, []⟩]⟩,
  -- TIL_PLACE_STATUS
  ⟨0x24, 1, 0x4, [], [⟨0, 2, .ro, 0, false, []⟩, ⟨4, 4, .ro, 0, false, []⟩, ⟨8, 5, .ro, 0, false, []⟩]⟩,
  -- TIL_TGEN_SEL
  ⟨0x28, 1, 0x4, [], [⟨0, 6, .rw, 0, false, [(0, 35)]⟩]⟩,
  -- TIL_TGEN_LO
  ⟨0x2C, 1, 0x4, [], [⟨0, 32, .ro, 0, false, []⟩]⟩,
  -- TIL_TGEN_HI
  ⟨0x30, 1, 0x4, [], [⟨0, 32, .ro, 0, false, []⟩]⟩,
  -- TIL_CHK_MISMATCH
  ⟨0x34, 1, 0x4, [], [⟨0, 32, .ro, 0, false, []⟩]⟩,
  -- TIL_SPINE_MISSING
  ⟨0x38, 1, 0x4, [], [⟨0, 32, .ro, 0, false, []⟩]⟩,
  -- TIL_HEAT
  ⟨0x40, 4, 0x4, [8, 17, 26, 35], [⟨0, 6, .ro, 0, false, []⟩, ⟨8, 6, .ro, 63, false, []⟩, ⟨16, 3, .ro, 0, false, []⟩, ⟨24, 8, .ro, 0, false, []⟩]⟩]

/-- TIL: R71. -/
def regsTIL1 : List RegDef := [
  -- TIL_TILE
  ⟨0x100, 36, 0x4, [], [⟨0, 3, .ro, 7, false, []⟩, ⟨8, 5, .ro, 0, false, []⟩, ⟨13, 1, .ro, 1, false, []⟩]⟩,
  -- TIL_SLOT
  ⟨0x200, 32, 0x4, [], [⟨0, 12, .ro, 0, false, []⟩, ⟨16, 12, .ro, 0, false, []⟩]⟩]

/-- GRF: R93. -/
def regsGRF0 : List RegDef := [
  -- GRF_LAYOUT
  ⟨0x0, 1, 0x4, [], [⟨0, 1, .rw, 0, false, []⟩, ⟨1, 1, .rw, 0, false, []⟩, ⟨2, 1, .rw, 0, false, []⟩, ⟨3, 1, .rw, 0, false, []⟩, ⟨4, 1, .rw, 0, false, []⟩, ⟨8, 3, .rw, 0, false, []⟩]⟩,
  -- GRF_LAYOUT_LIVE
  ⟨0x4, 1, 0x4, [], [⟨0, 1, .ro, 0, false, []⟩, ⟨1, 1, .ro, 0, false, []⟩, ⟨2, 1, .ro, 0, false, []⟩, ⟨3, 1, .ro, 0, false, []⟩, ⟨4, 1, .ro, 0, false, []⟩, ⟨8, 3, .ro, 0, false, []⟩]⟩,
  -- GRF_LAYOUT_LAP_LO
  ⟨0x8, 1, 0x4, [], [⟨0, 32, .rw, 0, false, []⟩]⟩,
  -- GRF_LAYOUT_LAP_HI
  ⟨0xC, 1, 0x4, [], [⟨0, 32, .rw, 0, false, []⟩]⟩,
  -- GRF_LAYOUT_CMD
  ⟨0x10, 1, 0x4, [], [⟨0, 2, .wo, 0, true, []⟩]⟩,
  -- GRF_LAYOUT_STATUS
  ⟨0x14, 1, 0x4, [], [⟨0, 3, .ro, 0, false, []⟩, ⟨4, 4, .ro, 0, false, []⟩, ⟨8, 1, .ro, 0, false, []⟩]⟩,
  -- GRF_STAGES
  ⟨0x18, 1, 0x4, [], [⟨0, 4, .ro, 1, false, []⟩, ⟨8, 4, .ro, 2, false, []⟩, ⟨16, 4, .ro, 3, false, []⟩]⟩,
  -- GRF_EVENT
  ⟨0x1C, 1, 0x4, [], [⟨0, 8, .w1c, 0, false, []⟩]⟩,
  -- GRF_EVENT_EN
  ⟨0x20, 1, 0x4, [], [⟨0, 8, .rw, 0, true, []⟩]⟩,
  -- GRF_AB_IDX
  ⟨0x24, 1, 0x4, [], [⟨0, 10, .rw, 0, false, []⟩]⟩,
  -- GRF_AB_STATE
  ⟨0x28, 1, 0x4, [], [⟨0, 1, .ro, 0, false, []⟩, ⟨1, 1, .ro, 0, false, []⟩, ⟨2, 2, .ro, 2, false, []⟩, ⟨4, 2, .ro, 2, false, []⟩, ⟨6, 14, .ro, 0, false, []⟩]⟩,
  -- GRF_FAILOVERS
  ⟨0x2C, 1, 0x4, [], [⟨0, 32, .ro, 0, false, []⟩]⟩,
  -- GRF_ROUTE_DEFER
  ⟨0x30, 1, 0x4, [], [⟨0, 32, .ro, 0, false, []⟩]⟩]

/-- SCH: R369. -/
def regsSCH0 : List RegDef := [
  -- SCH_CFG
  ⟨0x0, 1, 0x4, [], [⟨0, 16, .rw, 24000, false, [(1, 65535)]⟩]⟩,
  -- SCH_STATUS
  ⟨0x4, 1, 0x4, [], [⟨0, 13, .ro, 0, false, []⟩, ⟨16, 9, .ro, 0, false, []⟩]⟩,
  -- SCH_EVENT
  ⟨0x8, 1, 0x4, [], [⟨0, 3, .w1c, 0, false, []⟩]⟩,
  -- SCH_EVENT_EN
  ⟨0xC, 1, 0x4, [], [⟨0, 3, .rw, 0, true, []⟩]⟩,
  -- SCH_STAT_SEL
  ⟨0x10, 1, 0x4, [], [⟨0, 6, .rw, 0, false, []⟩]⟩,
  -- SCH_STAT_DEPTH
  ⟨0x14, 1, 0x4, [], [⟨0, 13, .ro, 0, false, []⟩, ⟨16, 13, .ro, 0, false, []⟩]⟩,
  -- SCH_STAT_WAIT_MAX
  ⟨0x18, 1, 0x4, [], [⟨0, 32, .ro, 0, false, []⟩]⟩,
  -- SCH_STAT_WAIT_MEAN
  ⟨0x1C, 1, 0x4, [], [⟨0, 32, .ro, 0, false, []⟩]⟩,
  -- SCH_CANCEL_ARR
  ⟨0x20, 1, 0x4, [], [⟨0, 32, .ro, 0, false, []⟩]⟩,
  -- SCH_LOCK_BROKEN
  ⟨0x24, 1, 0x4, [], [⟨0, 32, .ro, 0, false, []⟩]⟩,
  -- SCH_STAT_LAP_LO
  ⟨0x28, 1, 0x4, [], [⟨0, 32, .ro, 0, false, []⟩]⟩,
  -- SCH_STAT_LAP_HI
  ⟨0x2C, 1, 0x4, [], [⟨0, 32, .ro, 0, false, []⟩]⟩,
  -- SCH_BUSY
  ⟨0x40, 9, 0x4, [], [⟨0, 16, .ro, 0, false, []⟩]⟩,
  -- SCH_SVCA
  ⟨0x80, 3, 0x4, [2, 2, 4], [⟨0, 6, .rw, 0, false, [(0, 15)]⟩, ⟨16, 9, .rw, 255, false, []⟩]⟩,
  -- SCH_SVCB
  ⟨0x8C, 13, 0x4, [8, 16, 32, 10, 40, 48, 56, 56, 56, 56, 56, 56, 56], [⟨0, 6, .rw, 0, false, []⟩, ⟨16, 9, .rw, 255, false, []⟩]⟩]

/-- COR: R368. -/
def regsCOR0 : List RegDef := [
  -- COR_BOOT
  ⟨0x0, 1, 0x4, [], [⟨0, 3, .ro, 0, false, []⟩, ⟨3, 2, .ro, 0, false, []⟩, ⟨8, 4, .ro, 0, false, []⟩]⟩,
  -- COR_FW_VER
  ⟨0x4, 1, 0x4, [], [⟨0, 32, .ro, 0, false, []⟩]⟩,
  -- COR_SV
  ⟨0x8, 1, 0x4, [], [⟨0, 8, .ro, 0, false, []⟩, ⟨8, 8, .ro, 0, false, []⟩]⟩,
  -- COR_CMD
  ⟨0xC, 1, 0x4, [], [⟨0, 3, .wo, 0, true, []⟩]⟩,
  -- COR_RECOV_SRC
  ⟨0x10, 1, 0x4, [], [⟨0, 8, .rw, 0, false, []⟩]⟩,
  -- COR_LOCK
  ⟨0x14, 1, 0x4, [], [⟨0, 1, .ro, 0, false, []⟩]⟩,
  -- COR_RUNNER
  ⟨0x18, 1, 0x4, [], [⟨0, 18, .ro, 0, false, []⟩, ⟨18, 4, .ro, 15, false, []⟩]⟩,
  -- COR_EVENT
  ⟨0x1C, 1, 0x4, [], [⟨0, 7, .w1c, 0, false, []⟩]⟩,
  -- COR_EVENT_EN
  ⟨0x20, 1, 0x4, [], [⟨0, 7, .rw, 0, true, []⟩]⟩,
  -- COR_RFAULTS
  ⟨0x24, 1, 0x4, [], [⟨0, 32, .ro, 0, false, []⟩]⟩,
  -- COR_KEY
  ⟨0x28, 1, 0x4, [], [⟨0, 4, .ro, 0, false, []⟩, ⟨4, 4, .ro, 0, false, []⟩, ⟨8, 2, .ro, 0, false, []⟩]⟩]

/-- HLT: R401. -/
def regsHLT0 : List RegDef := [
  -- HLT_CFG
  ⟨0x0, 1, 0x4, [], [⟨0, 12, .rw, 10, false, [(1, 3600)]⟩, ⟨12, 1, .rw, 0, false, []⟩, ⟨13, 1, .rw, 1, false, []⟩, ⟨14, 1, .rw, 1, false, []⟩, ⟨15, 1, .rw, 0, false, []⟩, ⟨16, 6, .rw, 0, false, []⟩]⟩,
  -- HLT_STATUS
  ⟨0x4, 1, 0x4, [], [⟨0, 1, .ro, 1, false, []⟩, ⟨1, 1, .ro, 0, false, []⟩, ⟨2, 7, .ro, 127, false, []⟩, ⟨9, 1, .ro, 0, false, []⟩]⟩,
  -- HLT_EVENT
  ⟨0x8, 1, 0x4, [], [⟨0, 11, .w1c, 0, false, []⟩]⟩,
  -- HLT_EVENT_EN
  ⟨0xC, 1, 0x4, [], [⟨0, 11, .rw, 0, true, []⟩]⟩,
  -- HLT_CMD
  ⟨0x10, 1, 0x4, [], [⟨0, 2, .wo, 0, true, []⟩, ⟨8, 7, .wo, 0, true, []⟩]⟩,
  -- HLT_THR
  ⟨0x14, 1, 0x4, [], [⟨0, 8, .rw, 20, false, [(1, 255)]⟩, ⟨8, 8, .rw, 16, false, [(1, 255)]⟩, ⟨16, 8, .rw, 16, false, [(1, 255)]⟩]⟩,
  -- HLT_SCRUB
  ⟨0x18, 1, 0x4, [], [⟨0, 12, .rw, 600, false, [(60, 4095)]⟩, ⟨16, 7, .ro, 0, false, []⟩]⟩,
  -- HLT_SCRUB_PASSES
  ⟨0x1C, 1, 0x4, [], [⟨0, 32, .ro, 0, false, []⟩]⟩,
  -- HLT_TEMP
  ⟨0x20, 1, 0x4, [], [⟨0, 16, .ro, 0, false, []⟩, ⟨16, 16, .ro, 0, false, []⟩]⟩,
  -- HLT_LIFE_LO
  ⟨0x24, 1, 0x4, [], [⟨0, 32, .ro, 0, false, []⟩]⟩,
  -- HLT_LIFE_HI
  ⟨0x28, 1, 0x4, [], [⟨0, 32, .ro, 0, false, []⟩]⟩,
  -- HLT_LIFE_BASE_LO
  ⟨0x2C, 1, 0x4, [], [⟨0, 32, .rw, 0, false, []⟩]⟩,
  -- HLT_LIFE_BASE_HI
  ⟨0x30, 1, 0x4, [], [⟨0, 32, .rw, 0, false, []⟩]⟩,
  -- HLT_ATTIC
  ⟨0x34, 1, 0x4, [], [⟨0, 3, .ro, 4, false, []⟩, ⟨3, 3, .ro, 4, false, []⟩, ⟨6, 1, .ro, 0, false, []⟩, ⟨7, 1, .ro, 0, false, []⟩, ⟨8, 1, .ro, 0, false, []⟩, ⟨9, 1, .ro, 0, false, []⟩]⟩,
  -- HLT_REPAIR
  ⟨0x38, 1, 0x4, [], [⟨0, 10, .ro, 0, false, []⟩]⟩,
  -- HLT_REC_LOST
  ⟨0x3C, 1, 0x4, [], [⟨0, 32, .ro, 0, false, []⟩]⟩]

/-- HLT: R401. -/
def regsHLT1 : List RegDef := [
  -- HLT_ERR_SEL
  ⟨0x40, 1, 0x4, [], [⟨0, 2, .rw, 0, false, [(0, 2)]⟩, ⟨8, 7, .rw, 0, false, []⟩]⟩,
  -- HLT_ERR_CE
  ⟨0x44, 1, 0x4, [], [⟨0, 32, .ro, 0, false, []⟩]⟩,
  -- HLT_ERR_UE
  ⟨0x48, 1, 0x4, [], [⟨0, 32, .ro, 0, false, []⟩]⟩,
  -- HLT_MARGIN
  ⟨0x100, 40, 0x4, [], [⟨0, 8, .ro, 0, false, []⟩, ⟨8, 8, .ro, 255, false, []⟩]⟩]

/-- SLM: R386. -/
def regsSLM0 : List RegDef := [
  -- SLM_STATUS
  ⟨0x0, 1, 0x4, [], [⟨0, 2, .ro, 0, false, []⟩, ⟨2, 1, .ro, 0, false, []⟩, ⟨3, 1, .ro, 0, false, []⟩, ⟨4, 2, .ro, 0, false, []⟩, ⟨6, 2, .ro, 0, false, []⟩, ⟨8, 1, .ro, 0, false, []⟩]⟩,
  -- SLM_SEALCNT
  ⟨0x4, 1, 0x4, [], [⟨0, 7, .ro, 0, false, []⟩]⟩,
  -- SLM_SEQ_LO
  ⟨0x8, 1, 0x4, [], [⟨0, 32, .ro, 0, false, []⟩]⟩,
  -- SLM_SEQ_HI
  ⟨0xC, 1, 0x4, [], [⟨0, 32, .ro, 0, false, []⟩]⟩,
  -- SLM_PERIOD
  ⟨0x10, 1, 0x4, [], [⟨0, 12, .ro, 0, false, []⟩]⟩,
  -- SLM_LEVEL
  ⟨0x14, 2, 0x4, [], [⟨0, 16, .ro, 0, false, []⟩, ⟨16, 16, .ro, 0, false, []⟩]⟩,
  -- SLM_EVENT
  ⟨0x1C, 1, 0x4, [], [⟨0, 4, .w1c, 0, false, []⟩]⟩,
  -- SLM_EVENT_EN
  ⟨0x20, 1, 0x4, [], [⟨0, 4, .rw, 0, true, []⟩]⟩]

/-- PAD: R434. -/
def regsPAD0 : List RegDef := [
  -- PAD_GPIO_DIR
  ⟨0x0, 1, 0x4, [], [⟨0, 16, .rw, 0, false, []⟩]⟩,
  -- PAD_GPIO_OUT
  ⟨0x4, 1, 0x4, [], [⟨0, 16, .rw, 0, false, []⟩]⟩,
  -- PAD_GPIO_IN
  ⟨0x8, 1, 0x4, [], [⟨0, 16, .ro, 0, false, []⟩]⟩,
  -- PAD_GPIO_EDGE
  ⟨0xC, 1, 0x4, [], [⟨0, 32, .rw, 0, false, []⟩]⟩,
  -- PAD_GPIO_PULL
  ⟨0x10, 1, 0x4, [], [⟨0, 2, .rw, 1, false, [(0, 2)]⟩, ⟨2, 2, .rw, 1, false, [(0, 2)]⟩, ⟨4, 2, .rw, 1, false, [(0, 2)]⟩, ⟨6, 2, .rw, 1, false, [(0, 2)]⟩, ⟨8, 2, .rw, 1, false, [(0, 2)]⟩, ⟨10, 2, .rw, 1, false, [(0, 2)]⟩, ⟨12, 2, .rw, 1, false, [(0, 2)]⟩, ⟨14, 2, .rw, 1, false, [(0, 2)]⟩, ⟨16, 2, .rw, 1, false, [(0, 2)]⟩, ⟨18, 2, .rw, 1, false, [(0, 2)]⟩, ⟨20, 2, .rw, 1, false, [(0, 2)]⟩, ⟨22, 2, .rw, 1, false, [(0, 2)]⟩, ⟨24, 2, .rw, 1, false, [(0, 2)]⟩, ⟨26, 2, .rw, 1, false, [(0, 2)]⟩, ⟨28, 2, .rw, 1, false, [(0, 2)]⟩, ⟨30, 2, .rw, 1, false, [(0, 2)]⟩]⟩,
  -- PAD_EVENT
  ⟨0x14, 1, 0x4, [], [⟨0, 16, .w1c, 0, false, []⟩]⟩,
  -- PAD_EVENT_EN
  ⟨0x18, 1, 0x4, [], [⟨0, 16, .rw, 0, true, []⟩]⟩,
  -- PAD_DRIVE
  ⟨0x1C, 1, 0x4, [], [⟨0, 2, .rw, 1, false, [(0, 2)]⟩, ⟨2, 2, .rw, 1, false, [(0, 2)]⟩, ⟨4, 2, .rw, 1, false, [(0, 2)]⟩, ⟨6, 2, .rw, 1, false, [(0, 2)]⟩, ⟨8, 2, .rw, 1, false, [(0, 2)]⟩]⟩]

/-- The registers of the block that holds a BAR0 offset, with the block's base (R435). -/
def blockRegs (off : Nat) : Nat × List RegDef :=
  if 0x0 ≤ off ∧ off < 0x1000 then (0x0, regsGLB0)
  else if 0x1000 ≤ off ∧ off < 0x2000 then (0x1000, regsSYN0 ++ regsSYN1)
  else if 0x2000 ≤ off ∧ off < 0x3000 then (0x2000, regsDPL0 ++ regsDPL1 ++ regsDPL2)
  else if 0x3000 ≤ off ∧ off < 0x4000 then (0x3000, regsTIM0 ++ regsTIM1 ++ regsTIM2)
  else if 0x4000 ≤ off ∧ off < 0x6000 then (0x4000, regsNT0 ++ regsNT1)
  else if 0x6000 ≤ off ∧ off < 0x8000 then (0x6000, regsSTM0 ++ regsSTM1)
  else if 0x8000 ≤ off ∧ off < 0xA000 then (0x8000, regsAPT0)
  else if 0xA000 ≤ off ∧ off < 0xC000 then (0xA000, regsEXL0)
  else if 0xC000 ≤ off ∧ off < 0xE000 then (0xC000, regsHST0 ++ regsHST1)
  else if 0xE000 ≤ off ∧ off < 0xF000 then (0xE000, regsXBR0)
  else if 0xF000 ≤ off ∧ off < 0x10000 then (0xF000, regsCEL0)
  else if 0x10000 ≤ off ∧ off < 0x18000 then (0x10000, regsMOV0 ++ regsMOV1)
  else if 0x18000 ≤ off ∧ off < 0x19000 then (0x18000, regsVLT0 ++ regsVLT1)
  else if 0x19000 ≤ off ∧ off < 0x1A000 then (0x19000, regsTIL0 ++ regsTIL1)
  else if 0x1A000 ≤ off ∧ off < 0x1B000 then (0x1A000, regsGRF0)
  else if 0x1B000 ≤ off ∧ off < 0x1C000 then (0x1B000, regsSCH0)
  else if 0x1C000 ≤ off ∧ off < 0x1D000 then (0x1C000, regsCOR0)
  else if 0x1D000 ≤ off ∧ off < 0x1E000 then (0x1D000, regsHLT0 ++ regsHLT1)
  else if 0x1E000 ≤ off ∧ off < 0x1F000 then (0x1E000, regsSLM0)
  else if 0x1F000 ≤ off ∧ off < 0x20000 then (0x1F000, regsPAD0)
  else (0, [])

end Sys2Proof.Machine
end

