-- ==== Sys2Proof/Machine/TypesFabric.lean ====
section
/-! DEFINITION. The state of the movers (chapter 10) and of the cellar and the crossbar (chapter 11). -/

namespace Sys2Proof.Machine

/-- A loop counter with its armed bit (R205). -/
structure LoopCtr where
  n : Nat
  armed : Bool
  deriving DecidableEq, Repr

/-- A counter that is not armed. -/
def LoopCtr.reset : LoopCtr := ⟨0, false⟩

/-- A paced MOVE whose bursts are not all issued (R216): the elements of source still to read, and whether
its ranges overlap, so that what it writes is undefined (R213). -/
structure MoveRun where
  left : Nat
  overlap : Bool
  deriving DecidableEq, Repr

/-- A mover beyond what its registers show (R205): the state, fault, pc and fill count are in
MOV_STATm, the inbox in MOV_INBOXm and the address registers in MOV_AR*. -/
structure Mover where
  ctr : Tbl LoopCtr
  h : BitVec 128
  tick : Bool
  timedOut : Bool
  /-- instructions of the current activation (R212) -/
  used : Nat
  /-- a start with start_lap: 0 none, 1 waits for the next lap boundary, 2 the boundary has passed (R217) -/
  startWait : Nat
  /-- lap boundaries since a WAIT began (R211) or since a fault (R218) -/
  waited : Nat
  run : Option MoveRun
  /-- held lengths of address registers: register to length + 1 (R207) -/
  pendLen : Tbl Nat
  /-- address registers whose pending length was rejected: the next access faults (R207) -/
  badLen : Tbl Bool
  scratch : Tbl Byte
  /-- the instruction fetched last: a WAIT and a paced MOVE go on with it, whatever is written meanwhile (R220) -/
  ir : Nat
  deriving DecidableEq, Repr

/-- A mover as POR_N leaves it (R219). -/
def Mover.reset : Mover := ⟨[], 0, false, false, 0, 0, 0, none, [], [], [], 0⟩

/-- An allocation of the cellar (R223 to R226). -/
structure Alloc where
  kind : Nat
  index : Nat
  first : Nat
  count : Nat
  twin : Option Nat
  hostWr : Bool
  deriving DecidableEq, Repr

/-- A command of CEL_ALLOC_CMD whose shelves are still being cleared or copied (R224, R225): its owner may use the shelves
below the number `from_` of its run. -/
structure AllocBusy where
  cmd : Nat
  kind : Nat
  index : Nat
  from_ : Nat
  deriving DecidableEq, Repr

/-- A delay line's relocation (R225): the run it moves to, whether both lines are written, and whether
the copy of the old entries is complete. -/
structure Reloc where
  kind : Nat
  index : Nat
  first : Nat
  count : Nat
  twin : Option Nat
  both : Bool
  firstBoth : Nat
  copied : Bool
  /-- the lap that began with the boundary at which the copy was made -/
  lap : Nat
  deriving DecidableEq, Repr

/-- A bank's owner change that waits for its lap boundary (R222), with the lap in which it was written. -/
structure Handover where
  bank : Nat
  owner : Nat
  lap : Nat
  deriving DecidableEq, Repr

/-- Movers, cellar and crossbar. The cellar's bytes are keyed by cellar byte address (R221). -/
structure FabricSt where
  movers : Tbl Mover
  pmem : Tbl (BitVec 64)
  /-- time-event lines set and not yet taken (R211), by line -/
  tev : Tbl Bool
  cellar : Tbl Byte
  allocs : List Alloc
  busy : Option AllocBusy
  relocs : List Reloc
  handover : List Handover
  /-- bytes of the network buffer memory (R228, target 5) -/
  netBuf : Tbl Byte
  /-- cellar words that the running exchange window reads as zero: uncorrectable in every copy (R227) -/
  zeroWords : List Nat
  /-- bytes of the runner RAM and of the keeper RAM (R228, targets 6 and 7) -/
  runnerRam : Tbl Byte
  keeperRam : Tbl Byte
  /-- the keeper's patch area (R349, R354) -/
  keeperPatch : Tbl Byte
  deriving DecidableEq, Repr

/-- Movers, cellar and crossbar as POR_N leaves them. -/
def FabricSt.reset : FabricSt where
  movers := []
  pmem := []
  tev := []
  cellar := []
  allocs := []
  busy := none
  relocs := []
  handover := []
  netBuf := []
  zeroWords := []
  runnerRam := []
  keeperRam := []
  keeperPatch := []

end Sys2Proof.Machine
end

