-- ==== Sys2Proof/Machine/TypesHealth.lean ====
section
/-! DEFINITION. The state of health, spares and repair (chapter 20), of power (chapter 21) and of the
pins (chapter 22). -/

namespace Sys2Proof.Machine

/-- A bank substitution that runs (R391): from physical bank `o`, of logical bank `b`, to spare `s`; the
lap from which writes go to both, and whether the copy is complete. -/
structure Subst where
  o : Nat
  s : Nat
  b : Nat
  from_ : Nat
  copied : Bool
  deriving DecidableEq, Repr

/-- A fault entry of the health record (R400). -/
structure FaultEntry where
  lap : Nat
  cause : Nat
  unit : Nat
  detail : Nat
  deriving DecidableEq, Repr

/-- Health (chapter 20). Error counts are keyed domain × 128 + index (HLT_ERR_SEL). -/
structure HealthSt where
  ce : Tbl Nat
  ue : Tbl Nat
  /-- counts since the previous health record, same keys, and uncorrectable errors -/
  ceRec : Tbl Nat
  ueRec : Nat
  /-- corrected errors of the last hour by physical bank: times in s, newest first -/
  bankCe : Tbl (List Nat)
  /-- uncorrectable addresses of the running lap by physical bank -/
  bankUe : Tbl (List Nat)
  subst : Option Subst
  substQueue : List Nat
  failedBanks : List Nat
  /-- banks being tested after a substitution -/
  testing : List Nat
  retired : List Nat
  /-- life used, in 2^-32 equivalent seconds (R398), without the base -/
  life : Nat
  seconds : Nat
  seq : Nat
  recLap : Nat
  tempPeakRec : Int
  /-- slack of tile monitors: lowest since the last record -/
  slackRec : Tbl Nat
  passed : Tbl Nat
  mism : Tbl Nat
  runnerFaults : Nat
  faults : List FaultEntry
  faultsLost : Nat
  /-- a scrub pass competes for banks (R394) -/
  scrubLate : Bool
  deriving DecidableEq, Repr

/-- Health as POR_N leaves it. -/
def HealthSt.reset : HealthSt where
  ce := []
  ue := []
  ceRec := []
  ueRec := 0
  bankCe := []
  bankUe := []
  subst := none
  substQueue := []
  failedBanks := []
  testing := []
  retired := []
  life := 0
  seconds := 0
  seq := 0
  recLap := 0
  tempPeakRec := 0
  slackRec := []
  passed := []
  mism := []
  runnerFaults := 0
  faults := []
  faultsLost := 0
  scrubLate := false

/-- The transitions between power states (R411 to R414). -/
inductive Trans where
  /-- toward QUIET, taken in a lap -/
  | toQuiet (lap : Nat)
  /-- toward KEEP, taken in a lap, in QUIET where `quiet` -/
  | toKeep (lap : Nat) (quiet : Bool)
  | fromQuiet (lap : Nat)
  | fromKeep
  deriving DecidableEq, Repr

/-- Power and the reset pins (chapter 21). -/
structure PowerSt where
  /-- main rails present -/
  main : Bool
  /-- POR_N and PERST_N are low -/
  porLow : Bool
  perstLow : Bool
  trans : Option Trans
  /-- tiles are gated (R411) -/
  gated : Bool
  /-- movers stopped at the gate, to restart at their entries (R412) -/
  stopped : List Nat
  /-- contents of a record stay zero: the lap from which and the lap up to which (R411, R412) -/
  recZeroFrom : Option Nat
  recZeroTo : Option Nat
  deriving DecidableEq, Repr

/-- Power as the release of the rails leaves it: POR_N still low. -/
def PowerSt.reset : PowerSt := ⟨true, true, false, none, false, [], none, none⟩

/-- The pins whose level software or another chip can observe (R418, R420). -/
inductive Pin where
  | synLock | cascThruN | mtrBusy | mtrSealed
  | txDisable (port : Nat)
  | tout (n : Nat)
  | fpOut (n : Nat)
  | mclk (g : Nat)
  | gpio (n : Nat)
  deriving DecidableEq, Repr

/-- Pins: levels driven by the engine, and the levels on its inputs. -/
structure PadSt where
  synLock : Bool
  /-- CASC_THRU_N driven low -/
  thruLow : Bool
  mtrBusy : Bool
  mtrSealed : Bool
  /-- synchronised GPIO levels as driven from outside (R433) -/
  gpioIn : Nat
  /-- the outputs MCLK_OUT0 to 3 that drive MCLK, by bit (R239) -/
  mclkOut : Nat
  /-- the levels of NTA_TX_DISABLE and NTB_TX_DISABLE, by bit (R255) -/
  txDisable : Nat
  deriving DecidableEq, Repr

/-- Pins while POR_N is low (R420). -/
def PadSt.reset : PadSt := ⟨false, false, false, false, 0, 0, 3⟩

end Sys2Proof.Machine
end

