-- ==== Sys2Proof/Machine/TypesMeter.lean ====
section
/-! DEFINITION. The state of the sealed level meter (chapter 19) and of its mirror. -/

namespace Sys2Proof.Machine

/-- The meter's seal (R375, R379). -/
inductive Seal where
  | blank | sealed | broken
  deriving DecidableEq, Repr

/-- A configuration of the meter (R379, R381). -/
structure MeterCfg where
  t : Nat
  en : Nat
  cal0 : Nat
  cal1 : Nat
  deriving DecidableEq, Repr

/-- The configuration in use while no slot is committed (R379). -/
def MeterCfg.default : MeterCfg := ⟨1, 3, 0, 0⟩

/-- What the meter gathers of one channel (R373). Energies are sums of squares of p in units of the
digital full scale, 2^-62; the exponential means hold 64 fraction bits more. -/
structure Gather where
  sumA : Nat
  sumC : Nat
  peakC : Nat
  fast : Nat
  slow : Nat
  maxF : Nat
  maxS : Nat
  overload : Bool
  /-- consecutive identical words up to now, the last word, and a run of 48 000 seen in the period -/
  same : Nat
  last : Option Nat
  noSignal : Bool
  /-- sums of p_A squared of complete meter seconds, newest first, at most 900, and of the running one -/
  secs : List Nat
  secSum : Nat
  deriving DecidableEq, Repr

/-- A channel at meter start. -/
def Gather.reset : Gather := ⟨0, 0, 0, 0, 0, 0, 0, false, 0, none, false, [], 0⟩

/-- The SLM fuses (R379): committed configurations, key pairs and the seal-event counter. A key slot holds
its public key (x, y); the private key is known by its number only. -/
structure SlmFuses where
  cfgs : List MeterCfg
  keys : List (Nat × Nat)
  events : Nat
  deriving DecidableEq, Repr

/-- The meter's part of the state. -/
structure MeterSt where
  /-- VDD_SLM and VDDIO_SLM within range -/
  power : Bool
  /-- the meter measures: it has power and SLM_RST_N is high -/
  running : Bool
  /-- SLM_RST_N is low -/
  rstLow : Bool
  /-- power was applied and the meter has not started since -/
  cold : Bool
  fuses : SlmFuses
  sealSt : Seal
  cfg : MeterCfg
  /-- the slot of the configuration in use, 0 while none is committed -/
  cfgSlot : Nat
  /-- configuration to apply from the next period boundary -/
  nextCfg : Option (MeterCfg × Nat)
  staged : List Byte
  /-- fuses are being burnt (R382) -/
  burn : Bool
  result : Nat
  samples : Nat
  periodStart : Nat
  ch0 : Gather
  ch1 : Gather
  /-- the next record's seq, the records that are not signatures since meter start, and the SHA-256 of the
  last record -/
  seq : Nat
  plain : Nat
  lastHash : List Byte
  /-- the log RAM: records by seq mod 32 768 -/
  log : Tbl (List Byte)
  busyColl : Bool
  /-- the last transfer's data out -/
  out : List Byte
  /-- the mirror in the main engine's domain (R384) -/
  mirror : Tbl (List Byte)
  mirrorStatus : List Byte
  mirrorKey : List Byte
  mirrorCfg : List Byte
  deriving DecidableEq, Repr

/-- A meter without power. -/
def MeterSt.reset : MeterSt where
  power := false
  running := false
  rstLow := false
  cold := false
  fuses := ⟨[], [], 0⟩
  sealSt := .blank
  cfg := MeterCfg.default
  cfgSlot := 0
  nextCfg := none
  staged := []
  burn := false
  result := 0
  samples := 0
  periodStart := 0
  ch0 := Gather.reset
  ch1 := Gather.reset
  seq := 0
  plain := 0
  lastHash := []
  log := []
  busyColl := false
  out := []
  mirror := []
  mirrorStatus := []
  mirrorKey := []
  mirrorCfg := []

end Sys2Proof.Machine
end

