-- ==== Sys2Proof/Machine/TypesSynth.lean ====
section
/-! DEFINITION. The state of the clock synthesizers (chapter 16). Ratios are held in 2^-40 (R322). -/

namespace Sys2Proof.Machine

/-- A synthesizer beyond what SYN_STATUS shows (R325, R327): whether it is programmed and runs, whether
it is settled, and whether it was gated by a loss of lock. -/
structure Synth where
  prog : Bool
  settled : Bool
  gated : Bool
  deriving DecidableEq, Repr

/-- A synthesizer that nothing has programmed. -/
def Synth.reset : Synth := ⟨false, false, false⟩

/-- The steps of a rate change or of a restart of the root (R328, R332). -/
inductive RateStep where
  | fading | gated
  deriving DecidableEq, Repr

/-- A rate change in progress (R332): the lap of the command, the rate it leads to, whether synthesizers
are programmed, whether processing runs. -/
structure RateChange where
  step : RateStep
  lap : Nat
  fam : Nat
  mult : Nat
  family : Bool
  run : Bool
  /-- a rate command began it, and neither prog_done nor prog_fail has been set (R294) -/
  busy : Bool
  deriving DecidableEq, Repr

/-- A running ramp (R329): the segments left, first one first, as target and duration, the value the first
of them starts from and the laps of it applied; waiting for the next lap boundary. -/
structure Ramping where
  segs : List (Int × Nat)
  y0 : Int
  k : Nat
  deriving DecidableEq, Repr

/-- The synthesizers and the root (chapter 16). -/
structure SynthSt where
  a : Synth
  b : Synth
  /-- the rate in force: family (0 = 44.1 kHz, 1 = 48 kHz) and multiplier code -/
  fam : Nat
  mult : Nat
  change : Option RateChange
  ramp : Option Ramping
  /-- CLK_C and CLK_F run from the root, and CLK_P, CLK_T and MCLK run (R15) -/
  onRoot : Bool
  /-- XO_IN oscillates -/
  xo : Bool
  /-- an accepted SYNC_IN edge whose divider reset is due (R331) -/
  divReset : Bool
  /-- divider resets done since POR_N: the dividers' common phase origin (R331) -/
  resets : Nat
  /-- the lap whose outputs a takeover replaced by zero, plus 1 (R327) -/
  zeroLap : Nat
  deriving DecidableEq, Repr

/-- The synthesizers as POR_N leaves them. -/
def SynthSt.reset : SynthSt where
  a := Synth.reset
  b := Synth.reset
  fam := 1
  mult := 0
  change := none
  ramp := none
  onRoot := false
  xo := true
  divReset := false
  resets := 0
  zeroLap := 0

end Sys2Proof.Machine
end

