-- ==== Sys2Proof/Machine/TypesTime.lean ====
section
/-! DEFINITION. The state of network time and timed events (chapter 14), of reference selection
(chapter 15) and of clock synthesis (chapter 16). Times are integers in the units their fields name. -/

namespace Sys2Proof.Machine

/-- A foreign master record (R287, R288): its port identity, what its last Announce carried, and the Announces
received from it, up to 2. -/
structure Foreign where
  ident : Nat
  prio1 : Nat
  clkClass : Nat
  accuracy : Nat
  variance : Nat
  prio2 : Nat
  gm : Nat
  steps : Nat
  heard : Nat
  deriving DecidableEq, Repr

/-- A PTP instance beyond its registers (R287 to R293). Times, offsets and delays hold 16 fraction bits of ns. -/
structure Ptp where
  foreign : List Foreign
  /-- the port identity of the master followed -/
  master : Option Nat
  /-- a two-step Sync that waits for its Follow_Up: sequence number, t2 and correction -/
  sync : Option (Nat × Int × Int)
  t1 : Int
  t2 : Int
  cs : Int
  haveSync : Bool
  /-- sequence number and transmit time of the delay request whose answer is awaited -/
  t3 : Option (Nat × Int)
  /-- a two-step Pdelay_Resp that waits for its follow-up: sequence number, t2, t4 and correction -/
  pd : Option (Nat × Int × Int × Int)
  mpd : Int
  haveMpd : Bool
  runD : Nat
  off : Int
  /-- the last accepted offset, and how many Syncs in a row differed from it by more than step_thr -/
  accepted : Option Int
  runS : Nat
  /-- a Sync arrived within announceReceiptTimeout announce intervals (R290) -/
  active : Bool
  seqSync : Nat
  seqAnn : Nat
  seqDreq : Nat
  /-- event messages received in the running second of the local clock; and requesters with the second and the
  number of their requests in it (R288) -/
  evSec : Nat
  evCount : Nat
  slaves : List (Nat × Nat × Nat)
  deriving DecidableEq, Repr

/-- An instance as POR_N leaves it. -/
def Ptp.reset : Ptp where
  foreign := []
  master := none
  sync := none
  t1 := 0
  t2 := 0
  cs := 0
  haveSync := false
  t3 := none
  pd := none
  mpd := 0
  haveMpd := false
  runD := 0
  off := 0
  accepted := none
  runS := 0
  active := false
  seqSync := 0
  seqAnn := 0
  seqDreq := 0
  evSec := 0
  evCount := 0
  slaves := []

/-- A timed output beyond its registers (R296): latched start and period in 2^-32 ns, latched width, the
number of the next trigger and the pin's level (active or not). -/
structure Tout where
  armed : Bool
  start : Int
  period : Int
  width : Nat
  i : Nat
  level : Bool
  deriving DecidableEq, Repr

/-- A timed output as POR_N leaves it. -/
def Tout.reset : Tout := ⟨false, 0, 0, 0, 0, false⟩

/-- A capture (R297): seconds, nanoseconds, rising edge. -/
structure Capture where
  sec : Nat
  ns : Nat
  rising : Bool
  deriving DecidableEq, Repr

/-- A pending epoch step (R294): the lap b, j, the residual r in 2^-16 ps and whether this engine is the one
whose DPLL takes r. -/
structure Epoch where
  lap : Nat
  j : Int
  r : Int
  mine : Bool
  deriving DecidableEq, Repr

/-- The time block (chapter 14). The local clock is held in 2^-32 ns. -/
structure TimeSt where
  clock : Nat
  /-- CLK_T has started (R284) -/
  ticking : Bool
  /-- the anchor K (R286) -/
  anchor : Int
  epoch : Option Epoch
  ptp : Tbl Ptp
  xcmpEp : Bool
  /-- firmware has issued its set command (R284) -/
  autoset : Bool
  tout : Tbl Tout
  tcap : Tbl (List Capture)
  /-- local clock at the last edge of each capture input, in 2^-32 ns + 1 -/
  lastEdge : Tbl Nat
  deriving DecidableEq, Repr

/-- The time block as POR_N leaves it. -/
def TimeSt.reset : TimeSt := ⟨0, false, 0, none, [], false, false, [], [], []⟩

/-- A witness comparison that runs (R313): the mean before the event, the samples after it, the witness
(0 to 7 a slot, 8 XO_IN, 15 none), its phase at the event and the sum of y_out at the event. -/
structure WCmp where
  before : Int
  after : List Int
  wit : Nat
  e0 : Int
  cum0 : Int
  deriving DecidableEq, Repr

/-- A reference slot beyond its registers (R299 to R317). Samples hold 16 fraction bits of ns, frequencies
are in 2^-40, build-outs are in 2^-16 ps. -/
structure RefSlot where
  /-- good samples, newest first: tick, value, sum of y_out over all ticks before -/
  hist : List (Nat × Int × Int)
  /-- samples that arrived since the last tick and wait for their judgement, oldest first -/
  arrived : List Int
  /-- a sample that awaits the next one (R303) -/
  doubt : Option Int
  /-- a phase jump was declared in this tick; one that no clean time has followed yet -/
  jumped : Bool
  jumpShown : Bool
  /-- reported by the instance since the last tick: a time step (R292), a delay step's change of off (R293) -/
  timeStep : Bool
  delayStep : Option Int
  yShort : Option Int
  yLong : Option Int
  /-- local time of the last edge or marker in 2^-32 ns, and the edges seen -/
  lastT : Option Int
  edges : Nat
  /-- consecutive ticks clean, drifting, and below half the drift threshold -/
  clean : Nat
  drift : Nat
  calm : Nat
  drifting : Bool
  driftDisq : Bool
  c : Option Int
  b : Int
  /-- build-out before the jump that ended its selection (R314) -/
  bOld : Option Int
  qual : Bool
  outvoted : Bool
  wcmp : Option WCmp
  deriving DecidableEq, Repr

/-- A slot with no history. -/
def RefSlot.reset : RefSlot where
  hist := []
  arrived := []
  doubt := none
  jumped := false
  jumpShown := false
  timeStep := false
  delayStep := none
  yShort := none
  yLong := none
  lastT := none
  edges := 0
  clean := 0
  drift := 0
  calm := 0
  drifting := false
  driftDisq := false
  c := none
  b := 0
  bOld := none
  qual := false
  outvoted := false
  wcmp := none

/-- A frame or pulse output (R319): its latched settings, its grid point g in 2^-32 ns and the number of
the next pulse. -/
structure Fp where
  num : Nat
  den : Nat
  width : Nat
  g : Int
  i : Nat
  deriving DecidableEq, Repr

/-- An output that nothing has aligned. -/
def Fp.reset : Fp := ⟨1, 1, 1, 0, 0⟩

/-- The DPLL (chapter 15). -/
structure DpllSt where
  tick : Nat
  slots : Tbl RefSlot
  sel : Option Nat
  /-- the sum of y_out over all ticks -/
  cumY : Int
  /-- the output without the phase-step term, in 2^-40 -/
  yBase : Int
  /-- holdover: the value it moves from, the ticks it has moved and y_h -/
  yFrom : Int
  holdTicks : Nat
  yH : Int
  /-- one entry per locked second: the tick and the mean of y_out, newest first (R315) -/
  history : List (Nat × Int)
  /-- sum and count of y_out over the running second -/
  ySum : Int
  yCnt : Nat
  /-- ticks for which |e - b| has met the lock and the unlock condition -/
  lockTicks : Nat
  unlockTicks : Nat
  /-- ranks whose group is in an episode of conflict (R306) -/
  conflict : List Nat
  witLost : Bool
  /-- the mode in force (R305) -/
  mode : Nat
  /-- the state before a ramp (R308) -/
  suspend : Option Nat
  /-- the selected slot's build-out is to be rebuilt at its next sample (R318) -/
  rebuild : Bool
  /-- the remaining phase step, in 2^-16 ps (R316) -/
  step : Int
  fp : Tbl Fp
  /-- slots with a rank, NUM, DEN, OFS or falling write since the last tick: 2, with a rank write 3 (R318) -/
  written : Tbl Nat
  deriving DecidableEq, Repr

/-- The DPLL as POR_N leaves it. -/
def DpllSt.reset : DpllSt where
  tick := 0
  slots := []
  sel := none
  cumY := 0
  yBase := 0
  yFrom := 0
  holdTicks := 0
  yH := 0
  history := []
  ySum := 0
  yCnt := 0
  lockTicks := 0
  unlockTicks := 0
  conflict := []
  witLost := false
  mode := 0
  suspend := none
  rebuild := false
  step := 0
  fp := []
  written := []

end Sys2Proof.Machine
end

