-- ==== Sys2Proof/Machine/State.lean ====
section
/-! DEFINITION. The whole state of the engine, the reasons a command can stop, and the state after reset. -/

namespace Sys2Proof.Machine

/-- How the last host access was completed (R6, R184, R406). -/
inductive Completion where
  | ok (data : BitVec 64)
  /-- read data of a window, the lowest address first -/
  | bytes (data : List Byte)
  /-- read data with the read's error marked: a word of it was uncorrectable in every copy and is zero (R227) -/
  | marked (data : List Byte)
  /-- the crossbar's error response BUS_ERR (R233) -/
  | busErr
  | unsupported
  | retry
  deriving DecidableEq, Repr

/-- What leaves the engine: posted writes to host memory, MSI-X messages, frames and pulses. -/
inductive Out where
  /-- a posted write to host memory (R188) -/
  | hostWrite (addr : Nat) (bytes : List Byte)
  /-- an MSI-X message of a vector (R202) -/
  | msix (vector : Nat) (addr : Nat) (data : Word)
  /-- a frame on network port 0 (A) or 1 (B) (R276) -/
  | frame (port : Nat) (bytes : List Byte)
  /-- a frame of a TDM port: its count and what the port drives (R237, R240) -/
  | tdm (port : Nat) (count : Int) (wire : TdmWire)
  /-- a frame of an AES3 transmitter: its count and two subframes (R249) -/
  | aes3 (tx : Nat) (count : Int) (a b : SubFrame)
  /-- a lap frame on cascade port 0 (EAST) or 1 (WEST) (R341) -/
  | casc (port : Nat) (frame : CascFrame)
  /-- an I2C transfer (R256) -/
  | i2c (port dev : Nat) (read : Bool) (reg wdata : Nat)
  /-- a pulse of a frame or pulse output, or an edge of a timed output, at a local time in 2^-32 ns -/
  | pulse (pin : Pin) (level : Bool) (time : Int)
  deriving DecidableEq, Repr

/-- Why a command stops. -/
inductive Fault where
  /-- The command names a unit the engine does not have, or an operand form the spec does not give
  (R31: such a product is not formed). Raised by every meaning. Safe: no such command exists. -/
  | illFormed
  deriving DecidableEq, Repr

/-- Why the model gives a command no meaning. -/
inductive Refusal where
  /-- The command has no meaning in this model yet. Safe. -/
  | notModelled (mnemonic : String)
  deriving DecidableEq, Repr

/-- The state of the engine. `free` counts the open values drawn (it is the model's own, not the spec's);
`regs` holds the BAR0 registers that differ from their reset values or have been written, keyed by offset;
`hiLatch` and `loHold` hold the halves of R8 by the offset of the other half. -/
structure State where
  pending : List Instr
  free : Nat
  lap : Nat
  regs : Tbl Word
  hiLatch : Tbl Word
  loHold : Tbl Word
  resp : Completion
  outs : List Out
  tile : TileSt
  audio : AudioSt
  vault : VaultSt
  host : HostSt
  fab : FabricSt
  port : PortSt
  net : NetSt
  time : TimeSt
  dpll : DpllSt
  syn : SynthSt
  casc : CascSt
  sched : SchedSt
  core : CoreSt
  meter : MeterSt
  health : HealthSt
  power : PowerSt
  pads : PadSt
  deriving DecidableEq, Repr

/-- The engine in reset: POR_N low, the meter without power, no command waiting (R404, R405, R420). -/
def State.reset : State where
  pending := []
  free := 0
  lap := 0
  regs := []
  hiLatch := []
  loHold := []
  resp := .ok 0
  outs := []
  tile := TileSt.reset
  audio := AudioSt.reset
  vault := VaultSt.reset
  host := HostSt.reset
  fab := FabricSt.reset
  port := PortSt.reset
  net := NetSt.reset
  time := TimeSt.reset
  dpll := DpllSt.reset
  syn := SynthSt.reset
  casc := CascSt.reset
  sched := SchedSt.reset
  core := CoreSt.reset
  meter := MeterSt.reset
  health := HealthSt.reset
  power := PowerSt.reset
  pads := PadSt.reset

end Sys2Proof.Machine
end

