-- ==== Sys2Proof/WellFormed.lean ====
section
/-! DEFINITION. Which commands are well formed: a command names units the engine has, and operand forms
the spec gives (R31: products of any other kind are not formed). -/

namespace Sys2Proof

/-- A sender the engine has (R349). -/
def Agent.wf : Agent → Bool
  | .host => true
  | .runner k => decide (k < 9)
  | .keeper => true

/-- What a link can train at: 2.5, 5, 8 or 16 GT/s as 1 to 4, and 1, 2 or 4 lanes (R177). -/
def linkOk (speed width : Nat) : Bool :=
  decide (1 ≤ speed) && decide (speed ≤ 4) && (width == 1 || width == 2 || width == 4)

/-- A format, when the operand is held in one a product can take. -/
def Src.fmt : Src → Option Fmt
  | .reg f _ => some f
  | .mem f _ => some f
  | .x64 _ => none

/-- An operand names a register or a generator the tile has (R33, R53). -/
def Src.wf : Src → Bool
  | .reg _ d => decide (d < 16)
  | .mem _ g => decide (g < 8)
  | .x64 _ => true

/-- The products of R31. -/
def prodKind : Option Fmt → Option Fmt → Bool
  | some .a48, some .a48 => true
  | some .c48, some .a48 => true
  | some .a48, some .c48 => true
  | some .d32, some .c48 => true
  | some .c48, some .d32 => true
  | _, _ => false

/-- A product that is formed. -/
def Prod.wf (p : Prod) : Bool := p.x.wf && p.y.wf && prodKind p.x.fmt p.y.fmt

/-- A signed product that is formed. -/
def Term.wf (t : Term) : Bool := t.p.wf

/-- A destination the tile has. -/
def Dst.wf : Dst → Bool
  | .reg d => decide (d < 16)
  | .mem g => decide (g < 8)

/-- Three data registers the tile has. -/
def regs3 (d x y : Nat) : Bool := decide (d < 16) && decide (x < 16) && decide (y < 16)

/-- A set-up of a generator within R53: a 17-bit base, a length of 1 to 16 384, a signed 15-bit step smaller
than the length in modulo mode, a power-of-two length in bit-reversed mode. -/
def agSetupOk : Option AgSetup → Bool
  | none => true
  | some u => decide (u.base < 2 ^ 17) && decide (1 ≤ u.len) && decide (u.len ≤ 16384) &&
      decide (-(2 ^ 14) ≤ u.step) && decide (u.step < 2 ^ 14) &&
      match u.mode with
      | .linear => true
      | .modulo => decide (u.step.natAbs < u.len)
      | .bitrev => decide (2 ≤ u.len) && u.len == 2 ^ Nat.log2 u.len


/-- A configuration request names a BAR register the function has. -/
def CfgReq.wf : CfgReq → Bool
  | .barRead n => decide (n < 6)
  | .barWrite n _ => decide (n < 6)
  | _ => true
/-- Whether a command is well formed. -/
def Instr.wf : Instr → Bool
  | .registerWrite who off _ => who.wf && off % 4 == 0 && decide (off < 0x100000)
  | .unsupportedAccess off size _ => decide (0 < size) && decide (off + size ≤ 0x100000)
  | .pairLoRead off => off % 4 == 0 && decide (off < 0x100000)
  | .pairHiWrite who off _ => who.wf && off % 4 == 0 && decide (off < 0x100000)
  | .msixTableAccess off size _ _ => decide (off < 0x408) && (size == 4 || size == 8) && off % size == 0
  | .bar4Access off size write data _ _ => decide (0 < size) && decide (size ≤ 4096) && decide (off + size ≤ 0x10000000) && (!write || data.length == size)
  | .configRequest req => req.wf
  | .eventEnableWrite off _ => off % 4 == 0 && decide (off < 0x100000)
  | .lapBoundary => true
  | .exchangeWindow ecc => ecc.all (fun e => decide (e.1 < 0x6000000) && decide (e.2.1 < 16))
  | .placedProcessing tile => decide (tile < 36)
  | .checkerCompare heat _ => decide (heat < 4)
  | .tileOverrun tile => decide (tile < 36)
  | .clr tile a => decide (tile < 36) && decide (a < 8)
  | .ld tile a x => decide (tile < 36) && decide (a < 8) && x.wf
  | .accAdd tile a x => decide (tile < 36) && decide (a < 8) && x.wf
  | .accSub tile a x => decide (tile < 36) && decide (a < 8) && x.wf
  | .mac tile a p => decide (tile < 36) && decide (a < 8) && p.wf
  | .msu tile a p => decide (tile < 36) && decide (a < 8) && p.wf
  | .mac4 tile a p0 p1 p2 p3 => decide (tile < 36) && decide (a < 8) && p0.wf && p1.wf && p2.wf && p3.wf
  | .macPar tile a0 p0 a1 p1 a2 p2 a3 p3 => decide (tile < 36) && decide (a0 < 8) && decide (a1 < 8) && decide (a2 < 8) && decide (a3 < 8) && a0 != a1 && a0 != a2 && a0 != a3 && a1 != a2 && a1 != a3 && a2 != a3 && p0.wf && p1.wf && p2.wf && p3.wf
  | .cmac tile pair xr xi yr yi => decide (tile < 36) && decide (pair < 4) && xr.wf && xi.wf && yr.wf && yi.wf && prodKind xr.fmt yr.fmt && prodKind xi.fmt yi.fmt && prodKind xr.fmt yi.fmt && prodKind xi.fmt yr.fmt
  | .stA48 tile a dst _ => decide (tile < 36) && decide (a < 8) && dst.wf
  | .stX64 tile a bus j => decide (tile < 36) && decide (a < 8) && decide (bus < 256) && decide (j < 8)
  | .stD32 tile a dst _ => decide (tile < 36) && decide (a < 8) && dst.wf
  | .regAdd tile _ d x y => decide (tile < 36) && regs3 d x y
  | .regSub tile _ d x y => decide (tile < 36) && regs3 d x y
  | .neg tile _ d x => decide (tile < 36) && regs3 d x 0
  | .abs tile _ d x => decide (tile < 36) && regs3 d x 0
  | .min tile _ d x y => decide (tile < 36) && regs3 d x y
  | .max tile _ d x y => decide (tile < 36) && regs3 d x y
  | .lt tile _ x y => decide (tile < 36) && regs3 0 x y
  | .le tile _ x y => decide (tile < 36) && regs3 0 x y
  | .eq tile _ x y => decide (tile < 36) && regs3 0 x y
  | .shl tile _ d x n => decide (tile < 36) && regs3 d x 0 && decide (1 ≤ n) && decide (n ≤ 47)
  | .shr tile _ d x n => decide (tile < 36) && regs3 d x 0 && decide (1 ≤ n) && decide (n ≤ 47)
  | .db2lin tile d x => decide (tile < 36) && regs3 d x 0
  | .lin2db tile d x => decide (tile < 36) && regs3 d x 0
  | .agAccess tile g su _ d _ obj => decide (tile < 36) && decide (g < 8) && decide (d < 16) && agSetupOk su && (obj.all (fun o => decide (o < 2048)))
  | .agLengthWrite tile g len => decide (tile < 36) && decide (g < 8) && decide (1 ≤ len) && decide (len ≤ 16384)
  | .checkerAttach heat => decide (heat < 4)
  | .checkerCopyComplete heat => decide (heat < 4)
  | .checkerWindowEnd heat => decide (heat < 4)
  | .residueError tile => decide (tile < 36)
  | .keeperTakeoverCommand heat tile => decide (heat < 4) && tile.all (fun t => decide (t < 36))
  | .spareTakeover tile _ _ => decide (tile < 36)
  | .eccWriteBack tile => decide (tile < 36)
  | .warmUpRampEnd obj => decide (obj < 2048)
  | .placeDataAccess _ _ => true
  | .placeApplyAtLap => true
  | .placeApplyEarliest => true
  | .placeAbandon => true
  | .migrationCopy obj => decide (obj < 2048)
  | .placementTakeEffect => true
  | .layoutApplyAtLap => true
  | .layoutApplyEarliest => true
  | .layoutAbandon => true
  | .layoutFadeOutStart => true
  | .layoutTakeEffect => true
  | .layoutFadeInStart => true
  | .layoutDone => true
  | .routeFadeEnd _ => true
  | .delayFadeEnd _ => true
  | .polarityFadeEnd _ => true
  | .sectionFadeEnd _ _ => true
  | .gateHoldExpire _ _ => true
  | .muteTimeout _ _ => true
  | .paramWrite ring _ => decide (ring < 64)
  | .paramRead ring _ _ => decide (ring < 64)
  | .commitApply ring => decide (ring < 64)
  | .commitDiscard ring => decide (ring < 64)
  | .commitAbandon ring => decide (ring < 64)
  | .snapCfg ring => decide (ring < 64)
  | .waitingDescriptorRelease ring => decide (ring < 64)
  | .groupChange _ => true
  | .batonDistribute => true
  | .entryLap => true
  | .pageExchange p => decide (p < 32)
  | .loftRefreshComplete _ _ => true
  | .lockRelease => true
  | .engineJoin => true
  | .slotReload slot _ => decide (slot < 32)
  | .reloadComplete slot => decide (slot < 32)
  | .snapshotWrite stream => decide (stream < 4)
  | .doorbellWrite off size _ _ => decide (0 < size) && decide (size ≤ 8) && decide (off + size ≤ 0x10000)
  | .descriptorTake ring entries => decide (ring < 64) && entries.all (fun e => e.length == 8)
  | .ringEnable ring => decide (ring < 64)
  | .ringDisable ring => decide (ring < 64)
  | .ringDrained ring => decide (ring < 64)
  | .hostReadTimeout ring _ => decide (ring < 64)
  | .hostReadError ring _ => decide (ring < 64)
  | .busMasterEnable _ => true
  | .moderationTimer ring => decide (ring < 64)
  | .functionLevelReset => true
  | .flrDone => true
  | .snapshotBuffer ring => decide (ring < 64)
  | .audioPlay ring _ => decide (ring < 64)
  | .audioRec ring => decide (ring < 64)
  | .frameTx ring _ => decide (ring < 64)
  | .frameRxBuf ring => decide (ring < 64)
  | .eventBuffer ring => decide (ring < 64)
  | .healthBuffer ring => decide (ring < 64)
  | .svcCall ring _ => decide (ring < 64)
  | .getIdent ring => decide (ring < 64)
  | .ptpState ring => decide (ring < 64)
  | .mcastList ring => decide (ring < 64)
  | .sfpRead ring data => decide (ring < 64) && (match data with | none => true | some l => l.length == 256)
  | .echo ring => decide (ring < 64)
  | .halt m _ => decide (m < 16)
  | .move m _ _ => decide (m < 16)
  | .loop m _ => decide (m < 16)
  | .wait m _ => decide (m < 16)
  | .signal m _ => decide (m < 16)
  | .jump m _ => decide (m < 16)
  | .waitSatisfied m => decide (m < 16)
  | .waitTimeout m => decide (m < 16)
  | .pacedBurst m _ _ => decide (m < 16)
  | .moverStart who m _ => who.wf && decide (m < 16)
  | .moverStop who m _ => who.wf && decide (m < 16)
  | .moverStartAtLap m => decide (m < 16)
  | .systemMoverRestart m => decide (m < 16)
  | .inboxWrite who m _ => who.wf && decide (m < 16)
  | .programMemoryWrite who off _ => who.wf && off % 4 == 0 && decide (off < 0x4000)
  | .moverLenWrite who m r _ => who.wf && decide (m < 16) && decide (r < 8)
  | .allocate who _ _ _ => who.wf
  | .free who => who.wf
  | .resize who _ => who.wf
  | .query => true
  | .allocComplete => true
  | .relocationSwitch _ _ => true
  | .bankOwnerWrite bank _ => decide (bank < 68)
  | .bankHandover bank => decide (bank < 68)
  | .cellarPiece master target addr _ data _ _ _ => decide (master < 36) && decide (target < 64) && decide (0 < data.length) && decide (addr % 16 + data.length ≤ 256) && decide (addr + data.length ≤ 0x100000000) && (target != 0 || addr / 0x180000 == (addr + data.length - 1) / 0x180000) && (target != 8 || (decide (addr % 4 = 0) && decide (data.length = 4)))
  | .crossbarTimeout master target _ _ => decide (master < 36) && decide (target < 12)
  | .portStart p => decide (p < 32)
  | .portStop p => decide (p < 32)
  | .portStopClocks p => decide (p < 32)
  | .portAcquire p => decide (p < 32)
  | .csLoad p => decide (p < 32)
  | .tdmFrameIn p _ _ _ => decide (p < 16)
  | .tdmFrameOut p _ => decide (p < 16)
  | .aes3SubframeIn r ch _ _ _ => decide (r < 8) && decide (ch < 2)
  | .aes3FrameOut r _ => decide (r < 8)
  | .portClockStop p => decide (p < 32)
  | .portClockReturn p => decide (p < 32)
  | .portDataEnable p => decide (p < 32)
  | .unmuteTimeout p ch _ => decide (p < 32) && decide (ch < 64)
  | .stopFadeEnd p => decide (p < 32)
  | .csDataAccess _ _ _ => true
  | .linkChange port _ => decide (port < 2)
  | .sfpSignalChange port _ _ => decide (port < 2)
  | .i2cGo port _ => decide (port < 2)
  | .i2cDone port _ _ => decide (port < 2)
  | .networkFrameReceive port _ _ _ _ => decide (port < 2)
  | .streamLost ctx => decide (ctx < 512)
  | .pathDown ctx path => decide (ctx < 512) && decide (path < 2)
  | .streamEnable => true
  | .streamDisable => true
  | .streamApplyDrxLen => true
  | .drxTakeEffect ctx => decide (ctx < 512)
  | .lenTakeEffect ctx => decide (ctx < 512)
  | .streamCsLoad => true
  | .packetTransmit ctx => decide (ctx < 512)
  | .egressFrame port _ _ => decide (port < 2)
  | .igmpReport ctx => decide (ctx < 512)
  | .timeLatchRead _ => true
  | .timeSet => true
  | .clockAutoset inst _ => decide (inst < 2)
  | .acceptEpoch inst => decide (inst < 2)
  | .epochStep => true
  | .announceTimeout inst _ => decide (inst < 2)
  | .ptpSyncTransmit inst => decide (inst < 2)
  | .toutArm n _ _ => decide (n < 8)
  | .toutFire n _ => decide (n < 8)
  | .tcapEdge n _ _ _ => decide (n < 8)
  | .tcapPop n => decide (n < 8)
  | .dpllTick _ => true
  | .refSample slot _ _ _ => decide (slot < 8)
  | .refQualify slot => decide (slot < 8)
  | .holdoverHistory => true
  | .dpllLock => true
  | .dpllUnlock => true
  | .phaseStepWrite _ => true
  | .refConfigWrite _ _ => true
  | .fpAlign n _ => decide (n < 4)
  | .fpPulse n _ => decide (n < 4)
  | .synthLock _ => true
  | .synthSettled _ => true
  | .synthUnlock _ _ => true
  | .xoInLoss _ => true
  | .ratioUpdate => true
  | .rampStart => true
  | .rampAbort => true
  | .rampReturn => true
  | .rampDone => true
  | .syncInEdge => true
  | .dividerReset => true
  | .rateApply _ => true
  | .rateGate _ => true
  | .rateRestart _ => true
  | .programTimeout => true
  | .cascadeEnable => true
  | .selfTestDone _ => true
  | .cascadeInsert => true
  | .cascadeWithdraw => true
  | .cascadeMeasure => true
  | .cascadeDisable => true
  | .bypassSwitch => true
  | .linkTrained port nbr map => decide (port < 2) && decide (nbr < 8) && map.length == 8
  | .hopMeasureDone port echoes => decide (port < 2) && echoes.length == 16
  | .laneLockLoss port lane => decide (port < 2) && decide (lane < 3)
  | .cascFrameSend => true
  | .cascFrameReceive port _ _ => decide (port < 2)
  | .cascFrameLate port => decide (port < 2)
  | .ringCommandAction => true
  | .masterTimeout => true
  | .svAdvance _ => true
  | .bootFromCellar _ _ => true
  | .runnerCheckIn k _ => decide (k < 9)
  | .runnerWatchdogExpire k _ => decide (k < 9)
  | .runnerFault k _ => decide (k < 9)
  | .runnerRetestDone k _ => decide (k < 9)
  | .keeperBusError _ => true
  | .setup _ k t cls => decide (k < 9) && decide (t < 4096) && decide (cls < 16)
  | .release _ k t => decide (k < 9) && decide (t < 4096)
  | .ready _ k t => decide (k < 9) && decide (t < 4096)
  | .delay _ k t _ => decide (k < 9) && decide (t < 4096)
  | .cancel _ k t => decide (k < 9) && decide (t < 4096)
  | .take _ k => decide (k < 9)
  | .done _ k t => decide (k < 9) && decide (t < 4096)
  | .grab _ k l => decide (k < 9) && decide (l < 256)
  | .drop _ k l => decide (k < 9) && decide (l < 256)
  | .delayDue _ => true
  | .statsWindowEnd _ => true
  | .slmPowerOn => true
  | .slmReset => true
  | .slmResetRelease => true
  | .meterSample _ _ => true
  | .meterPeriodEnd => true
  | .readStatus n => decide (n ≤ 64)
  | .readLog off n _ => off % 4 == 0 && decide (off < 0x400000) && decide (n ≤ 0x400000)
  | .readKey n => decide (n ≤ 64)
  | .readCfg n => decide (n ≤ 64)
  | .setTime _ => true
  | .stageCfg _ => true
  | .commitCfg _ => true
  | .sealCmd _ => true
  | .unsealCmd _ => true
  | .fuseBurnDone => true
  | .retireTile _ => true
  | .substituteBank _ _ => true
  | .bankSubstSwitch => true
  | .fieldRepair _ _ _ => true
  | .scrubPassEnd => true
  | .scrubLate => true
  | .temperatureSample temps => temps.length == 8
  | .marginLow monitor _ => decide (monitor < 40)
  | .keeperWatchdogExpire _ => true
  | .lifeUsedUpdate _ => true
  | .healthRecord => true
  | .porNAssert => true
  | .porNRelease _ speed width => linkOk speed width
  | .perstNAssert => true
  | .perstNRelease speed width => linkOk speed width
  | .startProcessing _ failed => failed.all (fun t => decide (t < 36))
  | .autoStart _ failed => failed.all (fun t => decide (t < 36))
  | .enterQuiet => true
  | .quietGate => true
  | .returnToRun => true
  | .tileUngate => true
  | .runResume => true
  | .enterKeep => true
  | .keepResume _ failed => failed.all (fun t => decide (t < 36))
  | .chipReset _ => true
  | .powerCmdReserved cmd => cmd == 6 || cmd == 7
  | .mainPowerRemove => true
  | .gpioEdge n _ => decide (n < 16)
  | .keeperCheckIn _ => true
  | .xoInReturn => true
  | .slmPowerRemove => true
  | .ptpDelayReqTransmit inst => decide (inst < 2)
  | .ptpAnnounceTransmit inst => decide (inst < 2)
  | .bankTestDone bank _ => decide (bank < 68)
  | .tileRetestDone tile _ => decide (tile < 36)
  | .keeperFuseBurnDone => true

end Sys2Proof
end

