-- ==== Sys2Proof/Machine/Ops.lean ====
section
/-! DEFINITION. The named operations every meaning is built from: registers and their fields (R6 to R11),
the media sample count (R18), free values, events (R195), descriptor completion (R188, R202) and MSI-X. -/

namespace Sys2Proof.Machine

/-- A well-formed command answers the given next state; any other faults. -/
def whenWf (i : Instr) (t : State) : Host.Outcome State Fault Refusal :=
  if i.wf then .next t else .fault .illFormed

/-! ### Registers -/

/-- A number with bits lo up replaced by the width low bits of v. -/
def putBits (x lo width v : Nat) : Nat :=
  x - bitsOf x lo width * 2 ^ lo + v % 2 ^ width * 2 ^ lo

/-- The register of a run that an offset in the block names: its number in the run. -/
def RegDef.index (d : RegDef) (rel : Nat) : Option Nat :=
  if d.off ≤ rel ∧ (rel - d.off) % d.stride = 0 ∧ (rel - d.off) / d.stride < d.count
  then some ((rel - d.off) / d.stride) else none

/-- The first register of a list that an offset in the block names. -/
def findReg (rel : Nat) : List RegDef → Option (RegDef × Nat)
  | [] => none
  | d :: ds =>
    match d.index rel with
    | some i => some (d, i)
    | none => findReg rel ds

/-- The register at a BAR0 offset, with its number in its run (R435). -/
def regAt (off : Nat) : Option (RegDef × Nat) :=
  findReg (off - (blockRegs off).1) (blockRegs off).2

/-- The reset value of a register: its fields' reset values and, in a run, the register's own. -/
def RegDef.resetOf (d : RegDef) (i : Nat) : Nat :=
  d.fields.foldl (fun a f => a + f.reset % 2 ^ f.width * 2 ^ f.lo) 0 + d.resets.getD i 0

/-- What a register reads that nothing has written. -/
def resetVal (off : Nat) : Word :=
  match regAt off with
  | some (d, i) => BitVec.ofNat 32 (d.resetOf i)
  | none => 0

/-- A register's stored word. -/
def State.reg (s : State) (off : Nat) : Word := s.regs.get (resetVal off) off

/-- Stores a register's word. -/
def State.setReg (s : State) (off : Nat) (v : Word) : State := { s with regs := s.regs.insert off v }

/-- A field's value. -/
def State.rd (s : State) (f : Fld) : Nat := bitsOf (s.reg f.off).toNat f.lo f.width

/-- A field as a flag. -/
def State.on (s : State) (f : Fld) : Bool := s.rd f == 1

/-- A field's value as a signed number of its width. -/
def State.rdS (s : State) (f : Fld) : Int := (BitVec.ofNat f.width (s.rd f)).toInt

/-- Writes a field. -/
def State.wr (s : State) (f : Fld) (v : Nat) : State :=
  s.setReg f.off (BitVec.ofNat 32 (putBits (s.reg f.off).toNat f.lo f.width v))

/-- Writes a field with a signed value, cut to its width. -/
def State.wrS (s : State) (f : Fld) (v : Int) : State := s.wr f (BitVec.ofInt f.width v).toNat

/-- Adds to a counter that saturates at its largest value. -/
def State.bump (s : State) (f : Fld) (n : Nat) : State := s.wr f (min (s.rd f + n) (2 ^ f.width - 1))

/-- A register pair's value, the low register first. -/
def State.rd64 (s : State) (lo hi : Fld) : Nat := s.rd lo + 2 ^ 32 * s.rd hi

/-- Writes a register pair. -/
def State.wr64 (s : State) (lo hi : Fld) (v : Nat) : State := (s.wr lo (v % 2 ^ 32)).wr hi (v / 2 ^ 32)

/-- A signed number clamped to a range. -/
def clampI (lo hi v : Int) : Int := if v < lo then lo else if v > hi then hi else v

/-- A signed number saturated to 32 bits, as a register shows it. -/
def sat32 (v : Int) : Int := clampI (-(2 ^ 31)) (2 ^ 31 - 1) v

/-! ### The lap and the rate -/

/-- Samples in a lap: 2, 4 or 8 (R5). -/
def State.nLap (s : State) : Nat := 2 ^ (s.syn.mult % 3 + 1)

/-- Laps of a 32-sample fade (R87, R332, R411). -/
def State.fLap (s : State) : Nat := 32 / s.nLap

/-- Processing has started (R408). -/
def State.run (s : State) : Bool := s.on Reg.TIM_STATUS_run

/-- The power state of GLB_PWR_STATUS (R416). -/
def State.pstate (s : State) : Nat := s.rd Reg.GLB_PWR_STATUS_state

/-- The local clock, in 2^-32 ns, a number of cycles after it last took a value (R282, R284): cycles of CLK_T, or of
XO_IN while the root clocks are gated (R285). -/
def State.clockAt (s : State) (cyc : Nat) : Nat :=
  if !s.time.ticking then s.time.clock
  else if s.on Reg.SYN_STATUS_gated then s.time.clock + cyc * (10 ^ 6 * 2 ^ 32) / 49152
  else s.time.clock + cyc * (s.rd Reg.TIM_INC_LO_frac + 2 ^ 32 * s.rd Reg.TIM_INC_HI_ns)

/-- The first cycle, from the clock's last value on, in which it is at or after a time (R296, R319). -/
def State.cycleOf (s : State) (t : Int) : Nat :=
  let d := (t - s.time.clock).toNat
  let inc := s.rd Reg.TIM_INC_LO_frac + 2 ^ 32 * s.rd Reg.TIM_INC_HI_ns
  if s.on Reg.SYN_STATUS_gated then (d * 49152 + (10 ^ 6 * 2 ^ 32 - 1)) / (10 ^ 6 * 2 ^ 32) else (d + (inc - 1)) / inc

/-! ### Free values -/

/-- Draws an open value of w bits. -/
def State.drawBits (s : State) (w : Nat) : BitVec w × State :=
  (Config.freeBits w s.free, { s with free := s.free + 1 })

/-- Draws an open signed number. -/
def State.drawInt (s : State) : Int × State := (Config.freeInt s.free, { s with free := s.free + 1 })

/-! ### Bytes -/

/-- The n low bytes of a number, the lowest first. -/
def leBytes : Nat → Nat → List Byte
  | 0, _ => []
  | n + 1, x => BitVec.ofNat 8 x :: leBytes n (x / 256)

/-- The number that bytes spell, the lowest first. -/
def ofLe : List Byte → Nat
  | [] => 0
  | b :: t => b.toNat + 256 * ofLe t

/-- The number that bytes spell, the highest first. -/
def ofBe (l : List Byte) : Nat := l.foldl (fun a b => a * 256 + b.toNat) 0

/-- The n low bytes of a number, the highest first. -/
def beBytes (n x : Nat) : List Byte := (leBytes n x).reverse

/-- Words as bytes, each the lowest byte first. -/
def wordBytes (ws : List Word) : List Byte := ws.flatMap (fun w => leBytes 4 w.toNat)

/-- Writes bytes from an address up; a byte of zero is not listed. -/
def putBytes (t : Tbl Byte) (addr : Nat) : List Byte → Tbl Byte
  | [] => t
  | b :: bs => putBytes (t.put 0 addr b) (addr + 1) bs

/-- Reads n bytes from an address up. -/
def getBytes (t : Tbl Byte) (addr : Nat) : Nat → List Byte
  | 0 => []
  | n + 1 => t.get 0 addr :: getBytes t (addr + 1) n

/-! ### Outputs -/

/-- Appends an output. -/
def State.emit (s : State) (o : Out) : State := { s with outs := s.outs ++ [o] }

/-! ### MSI-X (R180, R202) -/

/-- Sends a vector's message, or leaves it pending while it is masked or the engine may not master the
bus (R179, R202). -/
def State.msix (s : State) (v : Nat) : State :=
  let e := s.host.msix.get MsixEntry.reset v
  if s.on Reg.HST_STATUS_bme && s.host.msixEn && !s.host.msixMask && !e.ctl.getLsbD 0 then
    { s with host := { s.host with pba := s.host.pba.put false v false } }.emit
      (.msix v (e.addrLo.toNat + 2 ^ 32 * e.addrHi.toNat) e.data)
  else { s with host := { s.host with pba := s.host.pba.put false v true } }

/-! ### Rings: completion (R188, R202) -/

/-- A ring's state. -/
def State.ring (s : State) (r : Nat) : Ring := s.host.rings.get Ring.reset r

/-- Stores a ring's state. -/
def State.setRing (s : State) (r : Nat) (g : Ring) : State :=
  { s with host := { s.host with rings := s.host.rings.insert r g } }

/-- The number of entries of a ring (R185). -/
def State.ringSize (s : State) (r : Nat) : Nat := 2 ^ (6 + s.rd (Reg.HST_RCFG_size r))

/-- The host address of a ring's entry (R185, R186). -/
def State.entryAddr (s : State) (r i : Nat) : Nat :=
  s.rd64 (Reg.HST_RBASE_LO_base r) (Reg.HST_RBASE_HI_base r) + 32 * (i % s.ringSize r)

/-- Signals a ring's vector and restarts count and timer (R202). -/
def State.signalRing (s : State) (r : Nat) : State :=
  let s := s.setRing r { s.ring r with unsig := 0, since := none }
  if s.on (Reg.HST_RMOD_irq_en r) then s.msix (s.rd (Reg.HST_RCFG_vec r)) else s

/-- Counts one completion toward the ring's message and sends it when it is due (R202). -/
def State.countDone (s : State) (r : Nat) (int : Bool) : State :=
  if s.on (Reg.HST_RMOD_irq_en r) then
    let g := s.ring r
    let s := s.setRing r { g with unsig := g.unsig + 1, since := some (g.since.getD s.lap) }
    let cnt := s.rd (Reg.HST_RMOD_cnt r)
    if int || cnt = 0 || cnt ≤ g.unsig + 1 then s.signalRing r else s
  else s

/-- The write-back of one entry: words 0 and 1, with own 0 (R188, R190). -/
def doneWords (w0 : Word) (code xfer detail : Nat) : List Byte :=
  wordBytes [w0 &&& 0x7FFFFFFF#32, BitVec.ofNat 32 (code + 256 * xfer + 65536 * detail)]

/-- Writes back a descriptor: its type-specific words, then words 0 and 1 of every segment (R188, R192). -/
def State.writeBack (s : State) (r : Nat) (d : Desc) : State :=
  let base := s.entryAddr r d.index
  let s := d.wb.foldl (fun s e => s.emit (.hostWrite (base + 4 * e.1) (leBytes 4 e.2.toNat))) s
  let s := (d.segs.zipIdx).foldl (fun s e =>
    s.emit (.hostWrite (s.entryAddr r (d.index + e.2))
      (doneWords (e.1.headD 0) d.code d.xfer d.detail))) s
  s.countDone r (d.segs.any (fun g => (g.headD 0).getLsbD 17))

/-- Writes back, oldest first, every descriptor at a ring's head that is complete (R188). -/
def flushList (r : Nat) : List Desc → State → State
  | [], s => s
  | d :: ds, s =>
    if d.stage = .done then
      flushList r ds ((s.setRing r { s.ring r with descs := ds }).writeBack r d)
    else s

/-- Writes back what a ring may write back now; nothing while Bus Master Enable is 0 (R179). -/
def State.flushRing (s : State) (r : Nat) : State :=
  if s.on Reg.HST_STATUS_bme then flushList r (s.ring r).descs s else s

/-- Completes a descriptor of a ring (R188). -/
def State.complete (s : State) (r id code xfer detail : Nat) (wb : List (Nat × Word)) : State :=
  let g := s.ring r
  let ds := g.descs.map (fun d => if d.id = id then
    { d with stage := .done, code := code, xfer := xfer, detail := min detail 0xFFFF, wb := wb } else d)
  (s.setRing r { g with descs := ds }).flushRing r

/-- The function of a ring (R191). -/
def State.ringFunc (s : State) (r : Nat) : Nat := s.rd (Reg.HST_RCFG_func r)

/-- A ring is enabled (R185). -/
def State.ringOn (s : State) (r : Nat) : Bool := s.on (Reg.HST_RCTRL_en r)

/-- A ring takes and completes entries: it is enabled and not halted. -/
def State.ringRuns (s : State) (r : Nat) : Bool := s.ringOn r && s.rd (Reg.HST_RSTAT_state r) == 1

/-- The oldest buffer posted on a ring of a function that can still be filled (R191). -/
def State.buffer (s : State) (r func : Nat) : Option Desc :=
  if s.ringRuns r && s.ringFunc r == func && s.on Reg.HST_STATUS_bme then
    (s.ring r).descs.find? (fun d => d.stage == .posted)
  else none

/-- The word n of a descriptor's first segment. -/
def Desc.word (d : Desc) (n : Nat) : Nat := ((d.segs.headD []).getD n 0).toNat

/-- The 64-bit value of words n and n + 1. -/
def Desc.word64 (d : Desc) (n : Nat) : Nat := d.word n + 2 ^ 32 * d.word (n + 1)

/-- The type code of an entry (R189, R191). -/
def entryType (e : List Word) : Nat := bitsOf (e.headD 0).toNat 24 6

/-- The type of a descriptor. -/
def Desc.type (d : Desc) : Nat := entryType (d.segs.headD [])

/-- The length field of a descriptor's first segment (R189). -/
def Desc.len (d : Desc) : Nat := d.word 0 % 65536

/-- VLT_COMMIT_STATUS shows a COMMIT that completes (R176). -/
def State.noteCommit (s : State) (r op code : Nat) : State :=
  let s := (s.wr Reg.VLT_COMMIT_STATUS_code code).wr Reg.VLT_COMMIT_STATUS_ring r
  (s.wr Reg.VLT_COMMIT_STATUS_op op).wr Reg.VLT_COMMIT_STATUS_valid 1

/-- Completes a descriptor with a transfer code: it had no effect (R190). -/
def State.completeXfer (s : State) (r : Nat) (d : Desc) (xfer : Nat) : State :=
  let s := if d.type = 3 then s.noteCommit r (bitsOf (d.word 0) 18 2) 0x10 else s
  if 1 ≤ d.type ∧ d.type ≤ 3 then s.complete r d.id 0x10 xfer 0xFFFF [] else s.complete r d.id 0x45 xfer 0 []

/-- Fills a posted buffer with data: as much as fits is written, and the detail is the bytes written. -/
def State.deliver (s : State) (r : Nat) (d : Desc) (data : List Byte) (wb : List (Nat × Word)) : State :=
  let s := s.emit (.hostWrite (d.word64 2) (data.take d.len))
  s.complete r d.id (if d.len < data.length then 0x41 else 0x40) 0 (min d.len data.length) wb

/-- The oldest descriptor of a type and stage on a ring. -/
def State.oldest (s : State) (r type : Nat) (st : DescStage) : Option Desc :=
  (s.ring r).descs.find? (fun d => d.stage == st && d.type == type)

/-- Changes a descriptor of a ring. -/
def State.setDesc (s : State) (r : Nat) (x : Desc) : State :=
  let g := s.ring r
  s.setRing r { g with descs := g.descs.map (fun d => if d.id = x.id then x else d) }

/-! ### Events (R195, R436) -/

/-- An event register: its block number, its index q, and the offsets of it and of its enable register. -/
structure EvReg where
  block : Nat
  q : Nat
  ev : Nat
  en : Nat
  deriving DecidableEq, Repr

/-- The event registers of R436. -/
def evRegs : List EvReg := [
  ⟨0, 0, Reg.GLB_EVENT_ev.off, Reg.GLB_EVENT_EN_en.off⟩,
  ⟨1, 0, Reg.SYN_EVENT_ev.off, Reg.SYN_EVENT_EN_en.off⟩,
  ⟨2, 0, Reg.DPL_EVENT_ev.off, Reg.DPL_EVENT_EN_en.off⟩,
  ⟨3, 0, Reg.TIM_EVENT_ev.off, Reg.TIM_EVENT_EN_en.off⟩,
  ⟨3, 1, Reg.TIM_TEV_fired.off, Reg.TIM_TEV_EN_en.off⟩,
  ⟨4, 0, (Reg.NT_EVENT_ev 0).off, (Reg.NT_EVENT_EN_en 0).off⟩,
  ⟨5, 0, (Reg.NT_EVENT_ev 1).off, (Reg.NT_EVENT_EN_en 1).off⟩,
  ⟨6, 0, Reg.STM_EVENT_ev.off, Reg.STM_EVENT_EN_en.off⟩,
  ⟨7, 0, Reg.APT_EVENT_ev.off, Reg.APT_EVENT_EN_en.off⟩,
  ⟨8, 0, Reg.EXL_EVENT_ev.off, Reg.EXL_EVENT_EN_en.off⟩,
  ⟨9, 0, Reg.HST_EVENT_ev.off, Reg.HST_EVENT_EN_en.off⟩,
  ⟨10, 0, Reg.XBR_EVENT_ev.off, Reg.XBR_EVENT_EN_en.off⟩,
  ⟨11, 0, Reg.CEL_EVENT_ev.off, Reg.CEL_EVENT_EN_en.off⟩,
  ⟨12, 0, Reg.MOV_FAULT_EVT_ev.off, Reg.MOV_FAULT_EN_en.off⟩,
  ⟨12, 1, Reg.MOV_HALT_EVT_ev.off, Reg.MOV_HALT_EN_en.off⟩,
  ⟨12, 2, Reg.MOV_TICK_EVT_ev.off, Reg.MOV_TICK_EN_en.off⟩,
  ⟨13, 0, Reg.VLT_EVENT_ev.off, Reg.VLT_EVENT_EN_en.off⟩,
  ⟨14, 0, Reg.TIL_EVENT_ev.off, Reg.TIL_EVENT_EN_en.off⟩,
  ⟨15, 0, Reg.GRF_EVENT_ev.off, Reg.GRF_EVENT_EN_en.off⟩,
  ⟨16, 0, Reg.SCH_EVENT_ev.off, Reg.SCH_EVENT_EN_en.off⟩,
  ⟨17, 0, Reg.COR_EVENT_ev.off, Reg.COR_EVENT_EN_en.off⟩,
  ⟨18, 0, Reg.HLT_EVENT_ev.off, Reg.HLT_EVENT_EN_en.off⟩,
  ⟨19, 0, Reg.SLM_EVENT_ev.off, Reg.SLM_EVENT_EN_en.off⟩,
  ⟨20, 0, Reg.PAD_EVENT_ev.off, Reg.PAD_EVENT_EN_en.off⟩]

/-- The event register at an offset. -/
def evRegAt (off : Nat) : Option EvReg := evRegs.find? (fun e => e.ev == off)

/-- The event register whose enable register is at an offset. -/
def evRegOfEn (off : Nat) : Option EvReg := evRegs.find? (fun e => e.en == off)

/-- The code of an event bit (R195). -/
def EvReg.code (e : EvReg) (bit : Nat) : Nat := e.block * 256 + 32 * e.q + bit

/-- The lap in which an event was set (R194). -/
def State.evLapOf (s : State) (code : Nat) : Nat := s.host.evLap.get s.lap code

/-- Notes the lap in which an event is set (R194). -/
def State.stampEvent (s : State) (code : Nat) : State :=
  { s with host := { s.host with evLap := s.host.evLap.insert code s.lap } }

/-- Writes one EVENT record into the named event ring; answers none where it is lost (R195). -/
def State.eventRecord (s : State) (code : Nat) : Option State :=
  let r := s.rd Reg.HST_EVT_CFG_ring
  match s.buffer r 7 with
  | none => none
  | some d =>
    let lost := min s.host.lost (2 ^ 32 - 1)
    let s := { s with host := { s.host with lost := 0 } }
    some (s.complete r d.id 0x40 0 0
      [(4, BitVec.ofNat 32 code), (5, BitVec.ofNat 32 lost),
       (6, BitVec.ofNat 32 (s.evLapOf code)), (7, BitVec.ofNat 32 (s.evLapOf code / 2 ^ 32))])

/-- Counts a lost EVENT record (R195). -/
def State.eventLost (s : State) : State :=
  { s with host := { s.host with lost := s.host.lost + 1 } }.bump Reg.HST_EVT_DROP_count 1

/-- The bit of HST_EVENT that a lost record sets (R195, R204). -/
def evtDropBit : Nat := 3

/-- Sets one bit of a register. -/
def State.setBit (s : State) (off bit : Nat) : State := s.setReg off (s.reg off ||| (1#32 <<< bit))

/-- Raises an event: one EVENT record, or one MSI-X message (R195). A lost record sets evt_drop, whose own
raising produces a record too; when that one is lost nothing further is raised. -/
def State.raise (s : State) (code : Nat) : State :=
  if s.on Reg.HST_EVT_CFG_ring_en then
    match s.eventRecord code with
    | some t => t
    | none =>
      let s := s.eventLost
      if (s.reg Reg.HST_EVENT_ev.off).getLsbD evtDropBit then s
      else
        let s := (s.setBit Reg.HST_EVENT_ev.off evtDropBit).stampEvent (9 * 256 + evtDropBit)
        if (s.reg Reg.HST_EVENT_EN_en.off).getLsbD evtDropBit then
          match s.eventRecord (9 * 256 + evtDropBit) with
          | some t => t
          | none => s.eventLost
        else s
  else s.msix (s.rd Reg.HST_EVT_CFG_vec)

/-- Sets an event bit; it is raised when it read 0 and is enabled (R195). -/
def State.setEvent (s : State) (ev : Fld) (bit : Nat) : State :=
  if (s.reg ev.off).getLsbD bit then s
  else
    let s := s.setBit ev.off bit
    match evRegAt ev.off with
    | none => s
    | some e => if (s.reg e.en).getLsbD bit then (s.stampEvent (e.code bit)).raise (e.code bit) else s.stampEvent (e.code bit)

/-- Sets an event bit where a condition holds. -/
def State.setEventIf (s : State) (c : Bool) (ev : Fld) (bit : Nat) : State :=
  if c then s.setEvent ev bit else s

/-- Halts a ring with a reason: its state and reason, HST_EVENT.ring_halt and its vector (R199, R202). -/
def State.haltRing (s : State) (r reason : Nat) : State :=
  let s := (s.wr (Reg.HST_RSTAT_state r) 2).wr (Reg.HST_RSTAT_reason r) reason
  (s.setEvent Reg.HST_EVENT_ev 0).signalRing r

/-! ### The faults the health record lists (R400) -/

/-- Enters a fault: three entries are kept an interval, more are counted. -/
def State.fault (s : State) (cause unit detail : Nat) : State :=
  if s.health.faults.length < 3 then
    { s with health := { s.health with faults := s.health.faults ++ [⟨s.lap, cause, unit, detail⟩] } }
  else { s with health := { s.health with faultsLost := s.health.faultsLost + 1 } }

end Sys2Proof.Machine
end

