-- ==== Sys2Proof/Machine/Real.lean ====
section
/-! DEFINITION. The elementary functions of the spec that are stated as the nearest code to a real value
(R41, R42, R89, R124, R139, R145), in fixed point with 192 fraction bits. The results are rounded from far
more bits than the codes hold (DEDUCED, log 3). -/

namespace Sys2Proof.Machine

/-- Fraction bits of the fixed-point values of this file. -/
def fxBits : Nat := 192

/-- 1 in fixed point. -/
def fxOne : Int := 2 ^ fxBits

/-- The product of two fixed-point values. -/
def fxMul (x y : Int) : Int := x * y / fxOne

/-- The quotient of two integers in fixed point. -/
def fxDiv (n d : Int) : Int := n * fxOne / d

/-- Shifts right with convergent rounding: the rounding step of R38. -/
def convRound (v : Int) (k : Nat) : Int :=
  let q := v / 2 ^ k
  let r := v - q * 2 ^ k
  if 2 * r > 2 ^ k ∨ (2 * r = 2 ^ k ∧ q % 2 = 1) then q + 1 else q

/-- The integer nearest to n / d for d > 0, with ties to even. -/
def nearest (n d : Int) : Int :=
  let q := n / d
  let r := n - q * d
  if 2 * r > d ∨ (2 * r = d ∧ q % 2 = 1) then q + 1 else q

/-- Terms of the series of e^x: the running term, the number of the next and the sum. -/
def expLoop (x : Int) : Nat → Int → Int → Int → Int
  | 0, _, _, acc => acc
  | fuel + 1, term, k, acc => expLoop x fuel (fxMul term x / k) (k + 1) (acc + term)

/-- e^x for x in fixed point, 0 ≤ x < 1. -/
def fxExp (x : Int) : Int := expLoop x 64 fxOne 1 0

/-- Terms of the series of atanh: t², the running power, its odd number and the sum. -/
def atanhLoop (t2 : Int) : Nat → Int → Int → Int → Int
  | 0, _, _, acc => acc
  | fuel + 1, pow, k, acc => atanhLoop t2 fuel (fxMul pow t2) (k + 2) (acc + pow / k)

/-- ln(n / d) for n ≥ d > 0 and n ≤ 2 d. -/
def fxLnQ (n d : Int) : Int :=
  let t := fxDiv (n - d) (n + d)
  2 * atanhLoop (fxMul t t) 68 t 1 0

/-- ln 2. -/
def fxLn2 : Int := fxLnQ 2 1

/-- ln 10. -/
def fxLn10 : Int := 3 * fxLn2 + fxLnQ 5 4

/-- Position of the highest bit of a positive number. -/
def topBit (n : Nat) : Nat := Nat.log2 n

/-- ln of a positive number times 2^-k. -/
def fxLn (n : Nat) (k : Nat) : Int :=
  let e := topBit n
  fxLnQ n (2 ^ e) + ((e : Int) - k) * fxLn2

/-- Terms of the alternating series of sine or cosine: x², the running term, its number and the sum. -/
def trigLoop (x2 : Int) : Nat → Int → Int → Int → Int
  | 0, _, _, acc => acc
  | fuel + 1, term, k, acc =>
    trigLoop x2 fuel (-(fxMul term x2) / ((k + 1) * (k + 2))) (k + 2) (acc + term)

/-- Terms of the series of arctangent of 1/n. -/
def atanInvLoop (n2 : Int) : Nat → Int → Int → Int → Int
  | 0, _, _, acc => acc
  | fuel + 1, pow, k, acc => atanInvLoop n2 fuel (-(pow / n2)) (k + 2) (acc + pow / k)

/-- arctan(1/n) for n > 1. -/
def fxAtanInv (n : Int) : Int := atanInvLoop (n * n) 90 (fxOne / n) 1 0

/-- π, by Machin's formula. -/
def fxPi : Int := 4 * (4 * fxAtanInv 5 - fxAtanInv 239)

/-- sin(x) for x in fixed point, |x| ≤ π / 4. -/
def fxSin0 (x : Int) : Int := trigLoop (fxMul x x) 40 x 1 0

/-- cos(x) for x in fixed point, |x| ≤ π / 4. -/
def fxCos0 (x : Int) : Int := trigLoop (fxMul x x) 40 fxOne 0 0

/-- sin(2 π n / d) for d > 0, by the octant of the angle. -/
def fxSinTurn (n d : Int) : Int :=
  let m := n % d
  let o := 8 * m / d
  let ang (u : Int) : Int := 2 * fxPi * u / d
  if o = 0 then fxSin0 (ang m)
  else if o = 1 then fxCos0 (fxPi / 2 - ang m)
  else if o = 2 then fxCos0 (ang m - fxPi / 2)
  else if o = 3 then fxSin0 (fxPi - ang m)
  else if o = 4 then -fxSin0 (ang m - fxPi)
  else if o = 5 then -fxCos0 (3 * fxPi / 2 - ang m)
  else if o = 6 then -fxCos0 (ang m - 3 * fxPi / 2)
  else -fxSin0 (2 * fxPi - ang m)

/-- cos(2 π n / d) for d > 0. -/
def fxCosTurn (n d : Int) : Int := fxSinTurn (4 * n + d) (4 * d)

/-- A fixed-point value scaled by 2^k and rounded to the nearest integer. -/
def fxRound (x : Int) (k : Nat) : Int := convRound (x * 2 ^ k) fxBits

/-- 10^(g / d) × 2^k rounded to the nearest integer, for an integer g and d > 0. -/
def pow10Round (g d : Int) (k : Nat) : Int :=
  let y := g * fxLn10 / d
  let n := y / fxLn2
  let m := fxExp (y - n * fxLn2)
  if n + k ≥ 0 then convRound (m * 2 ^ (n + k).toNat) fxBits
  else convRound m (fxBits + (-(n + k)).toNat)

end Sys2Proof.Machine
end

