-- ==== Sys2Proof/Machine/Operands.lean ====
section
/-! DEFINITION. The operand forms of the arithmetic: formats and their alignment (R28, R31), products, the
level conversions (R41, R42), the conversions at the edges (R43, R44), and the address generators (R53). -/

namespace Sys2Proof.Machine

/-! ### Alignment (R31) -/

/-- The left shift that aligns a value of a format. -/
def alignShift : Fmt → Nat
  | .a48 => 44
  | .c48 => 39
  | .d32 => 59

/-- The left shift that aligns a product of two formats. -/
def prodShift : Fmt → Fmt → Nat
  | .a48, .a48 => 5
  | .d32, .c48 => 15
  | .c48, .d32 => 15
  | _, _ => 0

/-- A 48-bit word read in a format: D32 uses its low 32 bits (R40). -/
def fmtVal (f : Fmt) (w : A48) : Int :=
  match f with
  | .d32 => (w.setWidth 32).toInt
  | _ => w.toInt

/-- An aligned product. -/
def alignProd (fx : Fmt) (x : Int) (fy : Fmt) (y : Int) : Int := x * y * 2 ^ prodShift fx fy

/-- An A48 code aligned. -/
def alA (x : A48) : Int := x.toInt * 2 ^ 44

/-- An aligned A48 × A48 product. -/
def prAA (x y : A48) : Int := x.toInt * y.toInt * 2 ^ 5

/-- An aligned C48 × A48 product. -/
def prCA (c : C48) (x : A48) : Int := c.toInt * x.toInt

/-- An aligned D32 × C48 product. -/
def prDC (d : D32) (c : C48) : Int := d.toInt * c.toInt * 2 ^ 15

/-! ### Stores (R38, R39) -/

/-- An accumulator's value saturated to A48 with convergent rounding, st_a48 with s = 1. -/
def satTo (w : Nat) (lo hi v : Int) : BitVec w := BitVec.ofInt w (clampI lo hi v)

/-- A D32 code saturated to the finite range (R39, R40). -/
def satD32 (v : Int) : D32 := satTo 32 (-(2 ^ 31) + 1) (2 ^ 31 - 1) v

/-- An A48 code saturated to its range. -/
def satA48 (v : Int) : A48 := satTo 48 (-(2 ^ 47)) (2 ^ 47 - 1) v

/-- An X64 code saturated to its range (R69). -/
def satX64 (v : Int) : X64 := satTo 64 (-(2 ^ 63)) (2 ^ 63 - 1) v

/-! ### Register arithmetic (R40) -/

/-- A result of a format saturated to it and held in 48 bits. -/
def satFmt (f : Fmt) (v : Int) : A48 :=
  match f with
  | .d32 => (satD32 v).signExtend 48
  | _ => satA48 v

/-- The −∞ code as a number. -/
def negInf : Int := -(2 ^ 31)

/-- Whether a register holds −∞ in a format. -/
def isInf (f : Fmt) (v : Int) : Bool := f == .d32 && v == negInf

/-- The −∞ code as a register holds it. -/
def infReg : A48 := d32NegInf.signExtend 48

/-- The largest finite D32 code as a register holds it. -/
def topD32 : A48 := 0x00007FFFFFFF#48

/-- add (R40). -/
def regAddV (f : Fmt) (x y : Int) : A48 :=
  if isInf f x || isInf f y then infReg else satFmt f (x + y)

/-- sub (R40). -/
def regSubV (f : Fmt) (x y : Int) : A48 :=
  if isInf f x then infReg else if isInf f y then topD32 else satFmt f (x - y)

/-- neg (R40). -/
def regNegV (f : Fmt) (x : Int) : A48 := if isInf f x then topD32 else satFmt f (-x)

/-- abs (R40). -/
def regAbsV (f : Fmt) (x : Int) : A48 := if isInf f x then topD32 else satFmt f x.natAbs

/-- min (R40): exact; −∞ lies below every finite value. -/
def regMinV (f : Fmt) (x y : Int) : A48 := if isInf f (min x y) then infReg else satFmt f (min x y)

/-- max (R40). -/
def regMaxV (f : Fmt) (x y : Int) : A48 := if isInf f (max x y) then infReg else satFmt f (max x y)

/-- shl (R40). -/
def regShlV (f : Fmt) (x : Int) (n : Nat) : A48 := if isInf f x then infReg else satFmt f (x * 2 ^ n)

/-- shr (R40). -/
def regShrV (f : Fmt) (x : Int) (n : Nat) : A48 := if isInf f x then infReg else satFmt f (convRound x n)

/-- D32 add of levels (R40). -/
def dAdd (x y : D32) : D32 := (regAddV .d32 x.toInt y.toInt).setWidth 32

/-- D32 sub of levels (R40). -/
def dSub (x y : D32) : D32 := (regSubV .d32 x.toInt y.toInt).setWidth 32

/-- D32 max of levels (R40). -/
def dMax (x y : D32) : D32 := if x.toInt ≤ y.toInt then y else x

/-- D32 min of levels (R40). -/
def dMin (x y : D32) : D32 := if x.toInt ≤ y.toInt then x else y

/-! ### Level conversions (R41, R42) -/

/-- db2lin (R41). -/
def db2linV (g : D32) : A48 :=
  if g = d32NegInf then 0
  else satA48 (pow10Round g.toInt (20 * 2 ^ 24) 39)

/-- lin2db (R42). -/
def lin2dbV (x : A48) : D32 :=
  let n := x.toInt.natAbs
  if n = 0 then d32NegInf
  else satD32 (nearest (20 * 2 ^ 24 * fxLn n 39) fxLn10)

/-! ### Conversions at the edges (R43, R44) -/

/-- An incoming N-bit word as A48 (R43). -/
def pcmIn (n : Nat) (p : Nat) : A48 := BitVec.ofInt 48 ((BitVec.ofNat n p).toInt * 2 ^ (40 - n))

/-- An outgoing A48 value as an N-bit word (R44). -/
def pcmOut (n : Nat) (x : A48) : BitVec n :=
  BitVec.ofInt n (clampI (-(2 ^ (n - 1))) (2 ^ (n - 1) - 1) (convRound x.toInt (40 - n)))

/-! ### Address generators (R53, R54) -/

/-- The m low bits of a number in reversed order. -/
def bitRev : Nat → Nat → Nat
  | 0, _ => 0
  | m + 1, x => (x % 2) * 2 ^ m + bitRev m (x / 2)

/-- The 17-bit address of a generator's next access: base plus offset within the bank (R53). -/
def Ag.addr (g : Ag) : Nat :=
  let off : Int := match g.mode with
    | .bitrev => bitRev (Nat.log2 g.len) (g.ptr % 16384).toNat
    | _ => g.ptr
  g.base / 16384 * 16384 + ((((g.base % 16384 : Nat) : Int) + off) % 16384).toNat

/-- Whether a length may take effect in a generator's mode (R54). -/
def Ag.lenOk (g : Ag) (n : Nat) : Bool :=
  match g.mode with
  | .linear => true
  | .modulo => decide (g.step.natAbs < n)
  | .bitrev => decide (2 ≤ n) && decide (n ≤ 16384) && n == 2 ^ Nat.log2 n

/-- The generator after an access (R53). -/
def Ag.advance (g : Ag) : Ag :=
  match g.mode with
  | .linear => { g with ptr := g.ptr + g.step }
  | .modulo =>
    let t := g.ptr + g.step
    if t ≥ g.len then
      let t := t - g.len
      match g.pending with
      | some n => { g with len := n, pending := none, ptr := t % n }
      | none => { g with ptr := t }
    else if t < 0 then
      let n := g.pending.getD g.len
      { g with len := n, pending := none, ptr := t + n }
    else { g with ptr := t }
  | .bitrev =>
    let t := g.ptr + g.step
    if t ≥ g.len ∨ t < 0 then
      let n := g.pending.getD g.len
      { g with len := n, pending := none, ptr := t % n }
    else { g with ptr := t }

/-- The bank of a select code (R48, R53): the live P words as bank 0, S read, S write, W, X; none when reserved. -/
def Tile.bankOf (t : Tile) : Nat → Option Nat
  | 0 => some 0
  | 1 => some (2 + t.sread)
  | 2 => some (3 - t.sread)
  | 3 => some 4
  | 4 => some 5
  | _ => none

/-- The word a 17-bit address names in a tile: none through a reserved code. -/
def Tile.wordKey (t : Tile) (addr : Nat) : Option Nat :=
  (t.bankOf (addr / 16384)).map (fun b => b * 16384 + addr % 16384)

end Sys2Proof.Machine
end

