-- ==== Sys2Proof/Machine/Flags.lean ====
section
/-! DEFINITION. The accumulator's flags: guard overflow on every addition (R32, R36) and ovf on a store that
wraps (R38). -/

namespace Sys2Proof.Machine

/-- The value of an accumulator. -/
def Acc.val (a : Acc) : Int := a.v.toInt

/-- Adds an aligned number exactly, modulo 2^112, and records a first guard overflow (R32, R36). -/
def Acc.plus (a : Acc) (e : Int) : Acc :=
  let x := a.val + e
  let ovr : Bool := decide (x ≥ 2 ^ 111) || decide (x < -(2 ^ 111))
  { a with
    v := BitVec.ofInt 112 x
    ovg := a.ovg || ovr
    ovd := if ovr && !a.ovg then decide (x < 0) else a.ovd }

/-- Subtracts an aligned number. -/
def Acc.minus (a : Acc) (e : Int) : Acc := a.plus (-e)

/-- ld: an aligned number with the flags cleared (R33). -/
def Acc.load (e : Int) : Acc := ⟨BitVec.ofInt 112 e, false, false, false⟩

/-- A store: the w result bits and the accumulator after it (R38). -/
def Acc.store (a : Acc) (k w : Nat) (lo hi : Int) (sat : Bool) : BitVec w × Acc :=
  let q := convRound a.val k
  let low := BitVec.ofInt w q
  if a.ovg then
    if sat then (BitVec.ofInt w (if a.ovd then lo else hi), a) else (low, { a with ovf := true })
  else if q < lo ∨ q > hi then
    if sat then (BitVec.ofInt w (if q > hi then hi else lo), a) else (low, { a with ovf := true })
  else (low, a)

/-- st_a48 (R39). -/
def Acc.storeA48 (a : Acc) (sat : Bool) : A48 × Acc := a.store 44 48 (-(2 ^ 47)) (2 ^ 47 - 1) sat

/-- st_x64 (R39): always saturating. -/
def Acc.storeX64 (a : Acc) : X64 := (a.store 44 64 (-(2 ^ 63)) (2 ^ 63 - 1) true).1

/-- st_d32 (R39). -/
def Acc.storeD32 (a : Acc) (sat : Bool) : D32 × Acc := a.store 59 32 (-(2 ^ 31) + 1) (2 ^ 31 - 1) sat

/-- st_a48 with s = 1 of a sum of aligned numbers added in order from clr: the form of the audio paths. -/
def sumA48 (es : List Int) : A48 := ((es.foldl Acc.plus Acc.zero).storeA48 true).1

/-- st_d32 with s = 1 of a sum of aligned numbers added in order from clr. -/
def sumD32 (es : List Int) : D32 := ((es.foldl Acc.plus Acc.zero).storeD32 true).1

/-- A gain applied by mac and stored with s = 1. -/
def gainA (g x : A48) : A48 := sumA48 [prAA g x]

end Sys2Proof.Machine
end

