-- ==== Sys2Proof/Machine/Params.lean ====
section
/-! DEFINITION. The parameters of the vault: classes and indexes (R146), and every parameter's range, form and
default (R72, R75 to R78, R95 to R97, R113 to R116, R134, R144, R253, R279). -/

namespace Sys2Proof.Machine

/-- A parameter ID (R146). -/
def pid (cls idx num : Nat) : Nat := cls * 2 ^ 24 + idx * 4096 + num

/-- The class, index and number of a parameter ID. -/
def pidClass (p : Nat) : Nat := p / 2 ^ 24 % 256
def pidIndex (p : Nat) : Nat := p / 4096 % 4096
def pidNum (p : Nat) : Nat := p % 4096

/-- The object a parameter ID belongs to, as the ID with its number cleared; in class 0x05 each sink kind of
an index is an object of its own (R146). -/
def objOf (p : Nat) : Nat := if pidClass p = 5 then p else p / 4096 * 4096

/-- The form and range of a parameter's 48-bit value (R95). -/
inductive PRange where
  /-- a code in bits [15:0] -/
  | code (lo hi : Nat)
  /-- a D32 value sign-extended; whether −∞ is permitted, and whether bits [9:0] must be zero -/
  | d32 (inf : Bool) (lo hi : Int) (step : Bool)
  | c48 (lo hi : Int)
  /-- an unsigned number -/
  | raw (lo hi : Nat)
  /-- a source of the input patch, or of the output patch (R72) -/
  | srcIn | srcOut
  /-- a rack instance or 0xFFFF (R78) -/
  | rack
  deriving DecidableEq, Repr

/-- A parameter: its range and its default. -/
structure PDef where
  rng : PRange
  dflt : A48
  deriving DecidableEq, Repr

/-- The count of a source kind at 44.1 to 96 kHz (R72). -/
def srcCount : Nat → Nat
  | 0x1 => 2048
  | 0x2 => 512
  | 0x3 => 16
  | 0x4 => 2048
  | 0x5 => 256
  | 0x6 => 8
  | 0x8 => 1024
  | 0x9 => 256
  | 0xA => 64
  | _ => 0

/-- The count of a source kind at the current rate (R72). -/
def srcCountAt (high : Bool) (k : Nat) : Nat :=
  if high && (k == 0x1 || k == 0x4 || k == 0x8 || k == 0x9 || k == 0xA) then srcCount k / 2 else srcCount k

/-- A source code that may be written at a point (R75). -/
def srcOk (out : Bool) (v : Nat) : Bool :=
  decide (v < 65536) &&
    (v == 0 || (decide (v % 4096 < srcCount (v / 4096)) && (decide (v / 4096 ≤ 6) || out)))

/-- A D32 value as a parameter carries it. -/
def dPar (d : D32) : A48 := d.signExtend 48

/-- Whether a value has a parameter's form and lies in its range (R75, R95). -/
def PRange.ok (r : PRange) (v : A48) : Bool :=
  match r with
  | .code lo hi => decide (lo ≤ v.toNat) && decide (v.toNat ≤ hi) && decide (v.toNat < 65536)
  | .d32 inf lo hi step =>
    let d := (v.setWidth 32 : D32)
    v == dPar d && (if d = d32NegInf then inf else decide (lo ≤ d.toInt) && decide (d.toInt ≤ hi)) &&
      (!step || d.toNat % 1024 == 0)
  | .c48 lo hi => decide (lo ≤ v.toInt) && decide (v.toInt ≤ hi)
  | .raw lo hi => decide (lo ≤ v.toNat) && decide (v.toNat ≤ hi)
  | .srcIn => srcOk false v.toNat
  | .srcOut => srcOk true v.toNat
  | .rack => decide (v.toNat < 704) || v.toNat == 0xFFFF

/-- n dB as a D32 number. -/
def dB (n : Int) : Int := n * 2 ^ 24

/-- Every C48 value. -/
def anyC48 : PRange := .c48 (-(2 ^ 47)) (2 ^ 47 - 1)

/-- The smallest finite D32 value as a number. -/
def dMinI : Int := -(2 ^ 31) + 1

/-- The parameter at an offset of a biquad section (R96). -/
def sectionPar : Nat → Option PDef
  | 0 => some ⟨.code 0 1, 0⟩
  | 1 => some ⟨anyC48, c48One⟩
  | 2 => some ⟨anyC48, 0⟩
  | 3 => some ⟨anyC48, 0⟩
  | 4 => some ⟨anyC48, 0⟩
  | 5 => some ⟨anyC48, 0⟩
  | _ => none

/-- The range of a time constant's coefficient (R115). -/
def coefRange : PRange := .c48 1 (2 ^ 44)

/-- The parameter at an offset of dynamics unit 1, 2 or 3 (R115). -/
def dynPar (unit off : Nat) : Option PDef :=
  match off with
  | 0x00 => some ⟨.code 0 (if unit = 1 then 2 else 1), 0⟩
  | 0x01 => some ⟨.d32 false (dB (-100)) (dB 24) false,
      dPar (if unit = 1 then 0xD8000000#32 else if unit = 2 then 0xEC000000#32 else 0)⟩
  | 0x02 => if unit = 1 then some ⟨.c48 0 (2 ^ 47 - 1), c48One⟩
      else if unit = 2 then some ⟨.c48 0 (2 ^ 44), 0x0C0000000000#48⟩ else none
  | 0x03 => if unit = 2 then some ⟨.d32 false 0 (dB 24) false, 0x06000000#48⟩ else none
  | 0x04 => if unit = 1 then some ⟨.d32 false dMinI 0 false, dPar 0xB0000000#32⟩ else none
  | 0x05 => if unit = 1 then some ⟨.d32 false 0 (dB 20) false, 0x03000000#48⟩ else none
  | 0x06 => if unit = 1 then some ⟨.code 0 65535, 480⟩ else none
  | 0x07 => if unit = 3 then none else some ⟨coefRange, 0x004000000000#48⟩
  | 0x08 => some ⟨coefRange, 0x000080000000#48⟩
  | 0x09 => if unit = 2 then some ⟨.d32 false 0 (dB 40) false, 0⟩ else none
  | 0x0A => if unit = 3 then none else some ⟨.code 0 1, 0⟩
  | 0x0B => if unit = 3 then none else some ⟨coefRange, 0x000400000000#48⟩
  | _ => if unit = 3 ∨ off < 0x10 then none else sectionPar (off - 0x10)

/-- A strip's parameter: classes 1 input, 2 bus, 3 matrix output (R78, R96, R97, R114). -/
def stripPar (cls idx num : Nat) : Option PDef :=
  if num = 0 then some ⟨.d32 false (dB (-40)) (dB 40) false, 0⟩
  else if num = 1 then some ⟨.code 0 1, 0⟩
  else if num = 2 then some ⟨.code 0 65535, 0⟩
  else if num < 0x10 then none
  else if num < (if cls = 3 then 0x28 else 0x60) then sectionPar ((num - 0x10) % 8)
  else if num < 0x100 then none
  else if num = 0x100 then some ⟨.d32 true dMinI (dB 10) false, dPar d32NegInf⟩
  else if num = 0x101 then some ⟨.code 0 1, 0⟩
  else if num = 0x102 then some ⟨.code 1 100, 5⟩
  else if num = 0x103 then if cls = 1 then some ⟨.code 0 256, 128⟩ else none
  else if num = 0x104 then if cls = 1 then some ⟨.code 0 2, 0⟩ else none
  else if num = 0x105 then if cls = 1 then some ⟨.code 1 3, 3⟩ else none
  else if num = 0x106 then
    if cls = 2 then none else some ⟨.d32 false 0x400 (dB 16) true, 0x00800000#48⟩
  else if num = 0x108 then if cls = 3 then none else some ⟨.code 1 3, 3⟩
  else if num = 0x109 then some ⟨.d32 false 0 (dB 1) false, 0x00004000#48⟩
  else if num = 0x10A then some ⟨coefRange, 0x000040000000#48⟩
  else if num = 0x1F0 then if cls = 2 ∧ idx % 2 = 0 then some ⟨.code 0 1, 0⟩ else none
  else if num < 0x200 then none
  else if num < 0x216 then if cls = 3 then none else dynPar 1 (num - 0x200)
  else if num < 0x220 then none
  else if num < 0x236 then if cls = 3 then none else dynPar 2 (num - 0x220)
  else if num < 0x240 then none
  else if num < 0x249 then if cls = 2 then dynPar 3 (num - 0x240) else none
  else if num < 0x400 then none
  else if num < 0x500 then
    if cls = 3 then some ⟨.d32 true (dMinI - 1 + 0x400) (dB 10) true, dPar d32NegInf⟩ else none
  else if num = 0xF00 then some ⟨.rack, 0xFFFF⟩
  else if num = 0xF01 then some ⟨.code 0 1, 0⟩
  else if num = 0xF02 then if cls = 1 then none else some ⟨.rack, 0xFFFF⟩
  else if num = 0xF03 then if cls = 1 then none else some ⟨.code 0 1, 0⟩
  else none

/-- An input patch parameter (R76). -/
def inPatchPar : Nat → Option PDef
  | 0 => some ⟨.srcIn, 0⟩
  | 1 => some ⟨.srcIn, 0⟩
  | 2 => some ⟨.code 0 3, 0⟩
  | 3 => some ⟨.code 1 255, 2⟩
  | 4 => some ⟨.code 1 65535, 24000⟩
  | 5 => some ⟨.code 1 4096, 32⟩
  | _ => none

/-- The count of a sink kind (R73). -/
def sinkCount : Nat → Nat
  | 1 => 2048
  | 2 => 512
  | 3 => 16
  | 4 => 2048
  | 5 => 256
  | _ => 0

/-- A send matrix parameter (R116). -/
def sendPar (num : Nat) : Option PDef :=
  if num < 0x100 then some ⟨.d32 true (dMinI - 1 + 0x400) (dB 10) true, dPar d32NegInf⟩
  else if num < 0x200 then some ⟨.code 1 3, 3⟩
  else none

/-- A rack's parameter for an instance of a kind and size (R134). -/
def rackPar (kind size num : Nat) : Option PDef :=
  if num = 0 then some ⟨.code 0 3, 0⟩
  else if num = 1 then
    if kind = 1 then some ⟨.code 4 9, 0⟩
    else if kind = 2 then some ⟨.code 1 240, 0⟩
    else if kind = 3 then some ⟨.code 1 8, 0⟩
    else none
  else if num = 2 then if kind = 1 then some ⟨.code 1 64, 1⟩ else none
  else if num = 3 then if kind = 1 then some ⟨.code 0 8, 0⟩ else none
  else if num = 4 then if kind = 1 then some ⟨.code 0 1, 0⟩ else none
  else if num = 0x10 then if kind = 3 then some ⟨.d32 true dMinI (dB 10) false, 0⟩ else none
  else if num = 0x11 then if kind = 3 then some ⟨.d32 true dMinI (dB (-1)) false, dPar d32NegInf⟩ else none
  else if 0x20 ≤ num ∧ num < 0x30 then
    if kind = 3 then
      if num % 2 = 0 then some ⟨.code 8 65535, 8⟩
      else some ⟨.d32 true dMinI (dB 10) false, dPar d32NegInf⟩
    else none
  else if 0x100 ≤ num then
    if kind = 2 ∧ num - 0x100 < 16 * size then some ⟨anyC48, if num = 0x100 then c48One else 0⟩ else none
  else none

/-- A generator's parameter (R144). -/
def genPar (g : Nat) : Nat → Option PDef
  | 0 => some ⟨.code 0 3, 0⟩
  | 1 => some ⟨.d32 true dMinI 0 false, dPar 0xEC000000#32⟩
  | 2 => some ⟨.raw 0 (2 ^ 47 - 1), 0x055555555555#48⟩
  | 3 => some ⟨.raw 1 (2 ^ 32 - 1), BitVec.ofNat 48 (g + 1)⟩
  | 4 => some ⟨.code 1 65535, 48000⟩
  | _ => none

/-- An object index of the port-level gains (R253, R279). -/
def gainIndexOk (i : Nat) : Bool := decide (i < 0x30) || (decide (0x100 ≤ i) && decide (i < 0x500))

/-- A parameter of an instance whose rack kind and size are given (R146): none where the ID is invalid. -/
def paramDef (kind size p : Nat) : Option PDef :=
  let i := pidIndex p
  let n := pidNum p
  match pidClass p with
  | 1 => if i < 1024 then stripPar 1 i n else none
  | 2 => if i < 256 then stripPar 2 i n else none
  | 3 => if i < 64 then stripPar 3 i n else none
  | 4 => if i < 1024 then inPatchPar n else none
  | 5 => if n % 16 = 0 ∧ i < sinkCount (n / 16) then some ⟨.srcOut, 0⟩ else none
  | 6 => if i < 1024 then sendPar n else none
  | 7 => if i < 704 then rackPar kind size n else none
  | 8 => if i < 8 then genPar i n else none
  | 9 => if gainIndexOk i ∧ n = 0 then some ⟨.d32 true (dB (-40)) (dB 24) false, 0⟩ else none
  | _ => none

/-- A rack parameter's default whatever the instance's kind (R134). -/
def rackDflt (num : Nat) : A48 :=
  if num = 2 then 1
  else if num = 0x11 then dPar d32NegInf
  else if 0x20 ≤ num ∧ num < 0x30 then (if num % 2 = 0 then 8 else dPar d32NegInf)
  else if num = 0x100 then c48One
  else 0

/-- A parameter's default (R149). -/
def paramDflt (p : Nat) : A48 :=
  if pidClass p = 7 then rackDflt (pidNum p)
  else match paramDef 0 0 p with
    | some d => d.dflt
    | none => 0

/-! ### Pages (R147, R148) -/

/-- A word of one of the two pages. -/
def VaultSt.page (v : VaultSt) (bit : Bool) (p : Nat) : A48 :=
  (if bit then v.page1 else v.page0).get (paramDflt p) p

/-- The element of a parameter: its object, and for the parameters of a strip that act in a column of their own
the object + 1 (head insert), + 2 (tail insert), + 3 (a matrix output's delay), + 4 (pair_link, read in the input
strip column) and + 5 (matrix cells) (R162). -/
def elemOf (p : Nat) : Nat :=
  let c := pidClass p
  let n := pidNum p
  if 1 ≤ c ∧ c ≤ 3 then
    if n = 0xF00 ∨ n = 0xF01 then objOf p + 1
    else if n = 0xF02 ∨ n = 0xF03 then objOf p + 2
    else if c = 3 ∧ n = 2 then objOf p + 3
    else if c = 2 ∧ n = 0x1F0 then objOf p + 4
    else if c = 3 ∧ (n = 0x106 ∨ 0x400 ≤ n) then objOf p + 5
    else objOf p
  else objOf p

/-- The parameters that have words of their own in either page and meet a test. -/
def VaultSt.pids (v : VaultSt) (f : Nat → Bool) : List Nat :=
  (((v.page0.map (·.1)) ++ (v.page1.map (·.1))).filter f).eraseDups

/-- A live word as its element presents it. -/
def VaultSt.live (v : VaultSt) (p : Nat) : A48 := v.page (v.bankBit.get false (elemOf p)) p

/-- A live word as the store holds it. -/
def VaultSt.storeLive (v : VaultSt) (p : Nat) : A48 := v.page (v.storeBit.get false (objOf p)) p

/-- A loft word as the store holds it. -/
def VaultSt.loft (v : VaultSt) (p : Nat) : A48 := v.page (!v.storeBit.get false (objOf p)) p

/-- Writes a word of one of the two pages. -/
def VaultSt.setPage (v : VaultSt) (bit : Bool) (p : Nat) (x : A48) : VaultSt :=
  if bit then { v with page1 := v.page1.insert p x } else { v with page0 := v.page0.insert p x }

/-- Writes a loft word. -/
def VaultSt.setLoft (v : VaultSt) (p : Nat) (x : A48) : VaultSt :=
  v.setPage (!v.storeBit.get false (objOf p)) p x

/-- The live value of an object's parameter. -/
def State.par (s : State) (cls idx num : Nat) : A48 := s.vault.live (pid cls idx num)

/-- The live value of a code parameter. -/
def State.code (s : State) (cls idx num : Nat) : Nat := (s.par cls idx num).toNat

/-- The live value of a D32 parameter. -/
def State.lev (s : State) (cls idx num : Nat) : D32 := (s.par cls idx num).setWidth 32

end Sys2Proof.Machine
end

