-- ==== Sys2Proof/Machine/Objects.lean ====
section
/-! DEFINITION. Operations over placed objects, slots and tiles that several families share: what an object
is (R57), cold and resumption ramps (R64 to R67), the loss of a page (R172), error counts (R393). -/

namespace Sys2Proof.Machine

/-! ### Objects (R57, R146) -/

/-- The class of a placement-table entry: 1 input strip, 2 bus strip, 3 matrix output strip, 7 rack. -/
def placeClass (o : Nat) : Nat := if o < 1024 then 1 else if o < 1280 then 2 else if o < 1344 then 3 else 7

/-- The index of a placement-table entry within its class. -/
def placeIndex (o : Nat) : Nat :=
  if o < 1024 then o else if o < 1280 then o - 1024 else if o < 1344 then o - 1280 else o - 1344

/-- The placement-table entry of a tile object's class and index. -/
def placeOf (cls idx : Nat) : Nat :=
  if cls = 2 then 1024 + idx else if cls = 3 then 1280 + idx else if cls = 7 then 1344 + idx else idx

/-- The objects of the vault that a placement-table entry stands for: a strip and, for an input strip, its
row of the send matrix. -/
def placeObjs (o : Nat) : List Nat :=
  if o < 1024 then [pid 1 o 0, pid 6 o 0] else [pid (placeClass o) (placeIndex o) 0]

/-- The placement-table entry of a vault object that lives on a tile. -/
def objPlace (ob : Nat) : Option Nat :=
  match pidClass ob with
  | 1 => some (pidIndex ob)
  | 2 => some (1024 + pidIndex ob)
  | 3 => some (1280 + pidIndex ob)
  | 6 => some (pidIndex ob)
  | 7 => some (1344 + pidIndex ob)
  | _ => none

/-- The rate is 176.4 or 192 kHz. -/
def State.high (s : State) : Bool := s.syn.mult == 2

/-- Buses of the current rate (R2, R55). -/
def State.nBus (s : State) : Nat := if s.high then 128 else 256

/-- A placement-table entry's slot, when it is placed (R57). -/
def State.slotOf (s : State) (o : Nat) : Option Nat :=
  match s.tile.placed.get 0 o with
  | 0 => none
  | n + 1 => some n

/-- The entries placed on a slot, in ascending order: the order in which they run (R56). -/
def State.objsOn (s : State) (slot : Nat) : List Nat :=
  (s.tile.placed.filter (fun e => e.2 == slot + 1)).map (·.1)

/-! ### Tiles, slots and heats (R59) -/

/-- A tile. -/
def State.tileAt (s : State) (t : Nat) : Tile := s.tile.tiles.get Tile.reset t

/-- Stores a tile. -/
def State.setTile (s : State) (t : Nat) (x : Tile) : State :=
  { s with tile := { s.tile with tiles := s.tile.tiles.insert t x } }

/-- A heat's checker. -/
def State.heat (s : State) (h : Nat) : Heat := s.tile.heats.get Heat.reset h

/-- Stores a heat's checker. -/
def State.setHeat (s : State) (h : Nat) (x : Heat) : State :=
  { s with tile := { s.tile with heats := s.tile.heats.insert h x } }

/-- TIL_TILEn.state. -/
def State.tstate (s : State) (t : Nat) : Nat := s.rd (Reg.TIL_TILE_state t)

/-- Writes TIL_TILEn.state. -/
def State.setTstate (s : State) (t v : Nat) : State := s.wr (Reg.TIL_TILE_state t) v

/-- The processor of a tile runs: no fault of the lap has halted it (R63), CLK_P runs (R15), and the tile has its supply. -/
def State.tileRuns (s : State) (t : Nat) : Bool :=
  !(s.tileAt t).halted && !s.on Reg.SYN_STATUS_gated && s.tstate t != 7

/-- The slot a tile holds. -/
def State.tileSlot (s : State) (t : Nat) : Option Nat :=
  if s.on (Reg.TIL_TILE_no_slot t) then none else some (s.rd (Reg.TIL_TILE_slot t))

/-- The tiles of a heat, in ascending order. -/
def heatTiles (h : Nat) : List Nat := (List.range 9).map (fun i => 9 * h + i)

/-- The tile that holds a slot. -/
def State.slotTile (s : State) (slot : Nat) : Option Nat :=
  (heatTiles (slot / 8)).find? (fun t => s.tileSlot t == some slot)

/-- A tile runs: it holds a slot, is not gated and has not failed (R401). -/
def State.tileActive (s : State) (t : Nat) : Bool :=
  (s.tileSlot t).isSome && decide (s.tstate t ≤ 2)

/-- The spare of a heat: none when TIL_HEATh reads 63, which is no tile. -/
def State.spare (s : State) (h : Nat) : Option Nat :=
  let t := s.rd (Reg.TIL_HEAT_spare_tile h)
  if 36 ≤ t then none else some t

/-- The spare that shadows a tile under check: it receives every word written to the tile's X bank (R61, R208). -/
def State.shadowOf (s : State) (t : Nat) : List Nat :=
  match s.spare (t / 9) with
  | none => []
  | some p => if (s.heat (t / 9)).step == .window && s.rd (Reg.TIL_HEAT_checked_tile (t / 9)) == t then [p] else []

/-- The keeper acts: it is not in the restricted mode of R397. -/
def State.keeperOk (s : State) : Bool := s.on Reg.HLT_STATUS_keeper_ok

/-- A unit of protection has lost its spare (R390). -/
def State.atticLow (s : State) : State := s.setEvent Reg.HLT_EVENT_ev 6

/-- Sets HLT_ATTIC.tiles to the number of heats that have a spare. -/
def State.countSpares (s : State) : State :=
  s.wr Reg.HLT_ATTIC_tiles ((List.range 4).filter (fun h => (s.spare h).isSome)).length

/-- A slot is isolated: its objects are held muted (R65). -/
def State.slotIsolated (s : State) (slot : Nat) : Bool := s.tile.isolated.get false slot

/-! ### Error counts (R393, R401) -/

/-- Counts a corrected error of a memory: domain 0 tile, 1 physical cellar bank, 2 other. -/
def State.countCe (s : State) (domain index : Nat) : State :=
  let k := domain * 128 + index
  { s with health := { s.health with
      ce := s.health.ce.insert k (min (s.health.ce.get 0 k + 1) (2 ^ 32 - 1))
      ceRec := s.health.ceRec.insert k (min (s.health.ceRec.get 0 k + 1) 255) } }

/-- Counts an uncorrectable error of a memory. -/
def State.countUe (s : State) (domain index : Nat) : State :=
  let k := domain * 128 + index
  { s with health := { s.health with
      ue := s.health.ue.insert k (min (s.health.ue.get 0 k + 1) (2 ^ 32 - 1))
      ueRec := min (s.health.ueRec + 1) 65535 } }

/-! ### Ramps and cold objects (R64 to R67, R98, R143) -/

/-- The length of a warm-up ramp in samples (R67). -/
def State.warmLen (s : State) : Nat :=
  let fs := (if s.syn.fam = 1 then 48000 else 44100) * 2 ^ s.syn.mult
  (s.rd Reg.TIL_RAMP_warm_ms * fs + 999) / 1000

/-- Starts an object's output ramp of L samples (R67). -/
def State.startRamp (s : State) (o len : Nat) : State :=
  { s with tile := { s.tile with ramp := s.tile.ramp.insert o (some ⟨len, 0⟩) } }

/-- An object's tile state restarts at zero in both roles of the state banks (R66); an input strip's direct output takes its
live point without a blend (R112, R130). -/
def State.zeroState (s : State) (o : Nat) : State :=
  if o < 1344 then
    { s with audio := { s.audio with
        strips := s.audio.strips.erase o, stripsW := s.audio.stripsW.insert o Strip.cold
        dirPt := if o < 1024 then s.audio.dirPt.insert o (RoutePt.at (s.code 1 o 0x105)) else s.audio.dirPt } }
  else
    { s with audio := { s.audio with
        racks := s.audio.racks.erase o, racksW := s.audio.racksW.insert o Rack.cold } }

/-- A lap of zeros. -/
def State.zeroLap (s : State) : List A48 := List.replicate s.nLap 0

/-- The source code of a strip's output (R72): direct, bus or matrix output. -/
def outCode (o : Nat) : Nat :=
  if o < 1024 then 0x8000 + o else if o < 1280 then 0x9000 + (o - 1024) else 0xA000 + (o - 1280)

/-- Replaces an object's output of the running lap by zero, and a rack's line values with it: its X words. -/
def State.zeroOut (s : State) (o : Nat) : State :=
  if o < 1344 then
    { s with audio := { s.audio with outv := s.audio.outv.insert (outCode o) s.zeroLap } }
  else { s with audio := { s.audio with
      rackOut := s.audio.rackOut.insert o s.zeroLap, rackLine := s.audio.rackLine.insert o s.zeroLap } }

/-- The allocation an owner holds (R223). -/
def State.allocHeld (s : State) (kind index : Nat) : Option Alloc :=
  s.fab.allocs.find? (fun a => a.kind == kind && a.index == index)

/-- The allocation an owner may use: not before its clearing is complete (R224). -/
def State.allocOf (s : State) (kind index : Nat) : Option Alloc :=
  if s.fab.busy.any (fun b => b.cmd == 1 && b.kind == kind && b.index == index) then none else s.allocHeld kind index

/-- Whether a cellar byte address lies in a run of shelves. -/
def inRun (first count addr : Nat) : Bool := decide (first * 4096 ≤ addr) && decide (addr < (first + count) * 4096)

/-- Clears a run of shelves to zero. -/
def State.clearRun (s : State) (first count : Nat) : State :=
  { s with fab := { s.fab with cellar := s.fab.cellar.drop (inRun first count) } }

/-- Clears an owner's shelves and their twins to zero, those of a relocation too. -/
def State.clearAlloc (s : State) (kind index : Nat) : State :=
  let clear (s : State) (first count : Nat) (twin : Option Nat) : State :=
    let s := s.clearRun first count
    match twin with
    | none => s
    | some t => s.clearRun t count
  let s := match s.allocOf kind index with
    | none => s
    | some a => clear s a.first a.count a.twin
  match s.fab.relocs.find? (fun r => r.kind == kind && r.index == index) with
  | none => s
  | some r => clear s r.first r.count r.twin

/-- The cellar owner index of a strip's delay line (R223). -/
def lineIndex (o : Nat) : Nat := placeClass o * 4096 + placeIndex o

/-- A rack's live kind (R134). -/
def State.rackKind (s : State) (o : Nat) : Nat := s.code 7 (placeIndex o) 0

/-- Clears what a cold object keeps in the cellar: a strip's delay line (R98), a convolution's history and its twin but
not its table pages, a multi-tap delay's line (R143). R136 clears all three regions when the instance becomes cold: R143,
which names the exception, is followed (DEDUCED, log entry 59). -/
def State.clearStorage (s : State) (o : Nat) : State :=
  if o < 1344 then s.clearAlloc 1 (lineIndex o)
  else if s.rackKind o = 1 then
    match s.allocOf 2 (placeIndex o) with
    | none => s
    | some a =>
      let bp := 2 ^ s.code 7 (placeIndex o) 1 * s.code 7 (placeIndex o) 2
      { s with fab := { s.fab with cellar := s.fab.cellar.drop (fun k =>
          let past (f : Nat) : Bool := decide (f * 4096 + 64 * bp ≤ k) && decide (k < (f + a.count) * 4096)
          past a.first || (match a.twin with
            | none => false
            | some t => past t)) } }
  else s.clearAlloc 2 (placeIndex o)

/-- What an object loses as it becomes cold: its state, its line or regions and its delay units restart (R98, R110, R143). -/
def State.chill (s : State) (o : Nat) : State :=
  let s := (s.zeroState o).clearStorage o
  { s with
    audio := { s.audio with
      rackLine := s.audio.rackLine.erase o
      delay := s.audio.delay.drop (fun k => k / 8 == o)
      insHist := s.audio.insHist.drop (fun k => k / 2 == o) } }

/-- An object becomes cold: it contributes muted, and it waits for its reload (R64, R171). -/
def State.coldObj (s : State) (o : Nat) : State :=
  let s := s.chill o
  { s with
    tile := { s.tile with cold := s.tile.cold.insert o true, ramp := s.tile.ramp.erase o }
    vault := { s.vault with objReload := s.vault.objReload.insert o true } }

/-- The key of a slot's partials of a lap. -/
def partSlot (lap slot : Nat) : Nat := lap % 16 * 32 + slot

/-- Sums of the sends of a slot's strips: bus × 8 + sample, exact, in units of an aligned product (R126). -/
abbrev Partials := Tbl Int

/-- The sums of what the strips of a slot sent in the lap, in placement order. -/
def State.slotSends (s : State) (slot : Nat) : Partials :=
  (s.objsOn slot).foldl (fun t o => (s.audio.sendW.get [] o).foldl (fun (t : Partials) e =>
    t.put 0 e.1 (t.get 0 e.1 + e.2)) t) []

/-- Stores a slot's partials of the lap with st_x64 (R126). -/
def State.storePartials (s : State) (slot : Nat) : State :=
  let base := partSlot s.lap slot * 2048
  let part := s.audio.part.drop (fun k => k / 2048 == partSlot s.lap slot)
  let part := (s.slotSends slot).foldl (fun (p : Tbl X64) e => p.put 0 (base + e.1) (Acc.load e.2).storeX64) part
  { s with audio := { s.audio with part := part } }

/-- What a strip sent in the lap leaves its slot's partials. -/
def State.dropSends (s : State) (o : Nat) : State :=
  let s := { s with audio := { s.audio with sendW := s.audio.sendW.erase o } }
  match s.slotOf o with
  | none => s
  | some slot => s.storePartials slot

/-- An object's tile state alone restarts, and it warms up (R66): its output of the lap is zero, what it sends with it; what
it put out in the lap before leaves in the exchange window. -/
def State.restartState (s : State) (o : Nat) : State :=
  let s := (s.zeroState o).startRamp o s.warmLen
  let s := s.dropSends o
  if s.audio.exchLap = s.lap + 1 then s.zeroOut o else s

/-- An uncorrectable word in an object's live or loft bank: the object is held muted while the vault reloads
its pages (R172). -/
def State.losePage (s : State) (o : Nat) : State :=
  let s := { s with vault := { s.vault with
      loss := (placeObjs o).foldl (fun t ob => t.insert ob (some .reloading)) s.vault.loss
      objReload := s.vault.objReload.insert o true } }.zeroOut o
  s.dropSends o

end Sys2Proof.Machine
end

