-- ==== Sys2Proof/Machine/Cellar.lean ====
section
/-! DEFINITION. The cellar: banks, allocations, twins and relocation (R221 to R227), and the crossbar's
path table and permissions (R228, R229). -/

namespace Sys2Proof.Machine

/-! ### Banks and free runs (R221 to R224) -/

/-- Shelves of the cellar. -/
def nShelves : Nat := 24576

/-- The physical bank that serves a logical bank. -/
def State.physBank (s : State) (b : Nat) : Option Nat :=
  (List.range 68).find? (fun n => s.rd (Reg.CEL_PBANK_logical n) == b)

/-- A logical bank is served from the pool. -/
def State.bankPooled (s : State) (b : Nat) : Bool :=
  match s.physBank b with
  | none => false
  | some n => s.rd (Reg.CEL_PBANK_owner n) == 0

/-- The runs that no allocation may take: allocated runs and twins, lines being relocated to, and the
shelves of banks that are not in the pool. -/
def State.usedRuns (s : State) : List (Nat × Nat) :=
  s.fab.allocs.flatMap (fun a => (a.first, a.count) :: (a.twin.map (fun t => (t, a.count))).toList) ++
  s.fab.relocs.flatMap (fun r => (r.first, r.count) :: (r.twin.map (fun t => (t, r.count))).toList) ++
  ((List.range 64).filter (fun b => !s.bankPooled b)).map (fun b => (384 * b, 384))

/-- A run lies in the cellar and touches no used run. -/
def runFree (used : List (Nat × Nat)) (first count : Nat) : Bool :=
  decide (first + count ≤ nShelves) &&
    used.all (fun u => decide (first + count ≤ u.1) || decide (u.1 + u.2 ≤ first) || u.2 == 0)

/-- The lowest-addressed free run of a length: it begins at shelf 0 or where a used run ends. -/
def firstFit (used : List (Nat × Nat)) (count : Nat) : Option Nat :=
  ((0 :: used.map (fun u => u.1 + u.2)).filter (fun p => runFree used p count)).foldl
    (fun best p => match best with
      | none => some p
      | some b => some (min b p)) none

/-- The logical banks a run touches, as runs. -/
def banksOf (first count : Nat) : List (Nat × Nat) :=
  ((List.range 64).filter (fun b => decide (first < 384 * b + 384) && decide (384 * b < first + count))).map
    (fun b => (384 * b, 384))

/-- A twin's place: first fit among runs that share no logical bank with the primary (R226). -/
def twinFit (used : List (Nat × Nat)) (first count : Nat) : Option Nat :=
  firstFit ((first, count) :: banksOf first count ++ used) count

/-- The length of the free run that begins at a shelf. -/
def gapAt (used : List (Nat × Nat)) (p : Nat) : Nat :=
  if used.any (fun u => decide (u.1 ≤ p) && decide (p < u.1 + u.2)) then 0
  else used.foldl (fun m u => if p ≤ u.1 && u.2 != 0 then min m (u.1 - p) else m) (nShelves - p)

/-- Shelves in no used run: the gaps that begin at 0 and at the ends of used runs. -/
def State.cellarFree (s : State) : Nat × Nat :=
  let used := s.usedRuns
  let gaps := ((0 :: used.map (fun u => u.1 + u.2)).eraseDups).map (gapAt used)
  (gaps.foldl (· + ·) 0, gaps.foldl max 0)

/-- CEL_STATUS follows the allocations. -/
def State.cellarStatus (s : State) : State :=
  let f := s.cellarFree
  (s.wr Reg.CEL_STATUS_free f.1).wr Reg.CEL_STATUS_run f.2

/-- Adds an allocation and clears its shelves. -/
def State.addAlloc (s : State) (a : Alloc) : State :=
  let s := ({ s with fab := { s.fab with allocs := s.fab.allocs ++ [a] } }).clearRun a.first a.count
  let s := match a.twin with
    | none => s
    | some t => s.clearRun t a.count
  s.cellarStatus

/-- Frees an owner's allocation. -/
def State.freeAlloc (s : State) (kind index : Nat) : State :=
  ({ s with fab := { s.fab with
    allocs := s.fab.allocs.filter (fun a => !(a.kind == kind && a.index == index)) } }).cellarStatus

/-- An allocation made by the engine: the lowest-addressed free run that fits; none when none does (R223). -/
def State.engineAlloc (s : State) (kind index count : Nat) (mirror : Bool) : Option State :=
  let used := s.usedRuns
  match firstFit used count with
  | none => none
  | some f =>
    if mirror then
      match twinFit used f count with
      | none => none
      | some t => some (s.addAlloc ⟨kind, index, f, count, some t, false⟩)
    else some (s.addAlloc ⟨kind, index, f, count, none, false⟩)

/-! ### Reads and writes of bytes (R226) -/

/-- The allocation whose primary run covers a cellar byte address. -/
def State.allocAt (s : State) (addr : Nat) : Option Alloc :=
  s.fab.allocs.find? (fun a => inRun a.first a.count addr)

/-- A byte address lies in a twin. -/
def State.inTwin (s : State) (addr : Nat) : Bool :=
  s.fab.allocs.any (fun a => match a.twin with
    | none => false
    | some t => inRun t a.count addr)

/-- Writes one allocation's twin alike. -/
def twinPut (a : Alloc) (addr : Nat) (bs : List Byte) (m : Tbl Byte) : Tbl Byte :=
  match a.twin with
  | none => m
  | some t => (bs.zipIdx).foldl (fun m e =>
      if inRun a.first a.count (addr + e.2) then m.put 0 (t * 4096 + (addr + e.2 - a.first * 4096)) e.1 else m) m

/-- Writes bytes of the cellar: every write to a mirrored allocation reaches both copies (R226). -/
def State.cellarPut (s : State) (addr : Nat) (bs : List Byte) : State :=
  let m := putBytes s.fab.cellar addr bs
  { s with fab := { s.fab with cellar := s.fab.allocs.foldl (fun m a => twinPut a addr bs m) m } }

/-- Reads bytes of the cellar for the engine's own units: those of a word that is uncorrectable in every copy are zero
(R227). -/
def State.cellarGet (s : State) (addr n : Nat) : List Byte :=
  if s.fab.zeroWords.contains (addr / 8 * 8) then List.replicate n 0 else getBytes s.fab.cellar addr n

/-- A byte of shelves that the engine fills in a form of its own: a stream buffer, a ring's staging, the vault store or a
link buffer (R223). The spec gives their sizes and no layout, so what stands there is open (DEDUCED, log 57). -/
def State.engineByte (s : State) (addr : Nat) : Bool :=
  s.fab.allocs.any (fun a => decide (3 ≤ a.kind) && decide (a.kind ≤ 6) && (inRun a.first a.count addr ||
    match a.twin with
    | none => false
    | some t => inRun t a.count addr))

/-- A read of the cellar by another than the owner: n bytes, those of the engine's own shelves free values. -/
def State.cellarSeen (s : State) (addr n : Nat) : List Byte :=
  (List.range n).map (fun i =>
    if s.engineByte (addr + i) then (Config.freeBits (8 * n) s.free).extractLsb' (8 * i) 8
    else s.fab.cellar.get 0 (addr + i))

/-- The state after that read: a free value is drawn where one was read. -/
def State.afterSeen (s : State) (addr n : Nat) : State :=
  if (List.range n).any (fun i => s.engineByte (addr + i)) then { s with free := s.free + 1 } else s

/-! ### Delay lines (R98, R225) -/

/-- The byte address of an entry of a line of a number of shelves for a media sample count. -/
def entryAt (first count : Nat) (m : Int) : Nat := first * 4096 + 8 * (m % (512 * count : Nat)).toNat

/-- An entry of a line: 48 bits sign-extended to 64, lowest byte first. -/
def State.lineGet (s : State) (first count : Nat) (m : Int) : A48 :=
  if count = 0 then 0 else BitVec.ofNat 48 (ofLe (s.cellarGet (entryAt first count m) 6))

/-- Writes an entry of a line. -/
def State.linePut (s : State) (first count : Nat) (m : Int) (v : A48) : State :=
  if count = 0 then s else s.cellarPut (entryAt first count m) (leBytes 8 (v.signExtend 64).toNat)

/-- The delay unit's state of an object (R99). -/
def State.delayU (s : State) (o : Nat) : DelayU := s.audio.delay.get DelayU.reset (8 * o)

/-- The object of a delay line's owner index. -/
def lineObj (index : Nat) : Nat := placeOf (index / 4096) (index % 4096)

/-- The largest delay an object's line must still hold: its live and loft dly, whichever of its two pages shows where while a
commit switches, and d_old of a running delay fade (R98, R225). -/
def State.delayNeed (s : State) (o : Nat) : Nat :=
  let p := pid (placeClass o) (placeIndex o) 2
  let u := s.delayU o
  max (max (s.vault.page false p).toNat (s.vault.page true p).toNat) (match u.fade with
    | some f => if f.pos < f.len then u.old else 0
    | none => 0)

/-- The largest tap delay that a multi-tap rack's line must still hold: its live and loft tap_dly (R142). -/
def State.tapNeed (s : State) (r : Nat) : Nat :=
  [false, true].foldl (fun a b =>
    if (s.vault.page b (pid 7 r 0)).toNat = 3 then
      (List.range 8).foldl (fun a t => max a (s.vault.page b (pid 7 r (0x20 + 2 * t))).toNat) a
    else a) 0

/-- A line's capacity for a number of shelves (R98). -/
def lineCap (k : Nat) : Nat := if k = 0 then 0 else 512 * k - 8

/-- The capacity the vault checks dly against: during a relocation the smaller of the two (R98, R225). -/
def State.delayCap (s : State) (o : Nat) : Nat :=
  let c := match s.allocOf 1 (lineIndex o) with
    | none => 0
    | some a => lineCap a.count
  match s.fab.relocs.find? (fun r => r.index == lineIndex o) with
  | none => c
  | some r => min c (lineCap r.count)

/-! ### Commands of CEL_ALLOC_CMD (R224, R225) -/

/-- A command is refused with a reason. -/
def State.allocRefuse (s : State) (reason : Nat) : State :=
  let s := s.wr Reg.CEL_ALLOC_STATUS_reason reason
  let s := if reason = 7 then s else s.wr Reg.CEL_ALLOC_STATUS_state 2
  s.setEvent Reg.CEL_EVENT_ev 1

/-- Shows an allocation in CEL_ALLOC_INFO and CEL_ALLOC_TWIN. -/
def State.allocInfo (s : State) (a : Alloc) : State :=
  let s := (s.wr Reg.CEL_ALLOC_INFO_first a.first).wr Reg.CEL_ALLOC_INFO_count a.count
  let s := (s.wr Reg.CEL_ALLOC_INFO_mirror (b2n a.twin.isSome)).wr Reg.CEL_ALLOC_INFO_host_wr (b2n a.hostWr)
  s.wr Reg.CEL_ALLOC_TWIN_first (a.twin.getD 0)

/-- A command is done. -/
def State.allocDone (s : State) : State :=
  let s := (s.wr Reg.CEL_ALLOC_STATUS_state 0).wr Reg.CEL_ALLOC_STATUS_reason 0
  { s with fab := { s.fab with busy := none } }.setEvent Reg.CEL_EVENT_ev 0

/-- A command's shelves are being cleared or copied. -/
def State.allocBusy (s : State) (cmd kind index from_ : Nat) : State :=
  let s := s.wr Reg.CEL_ALLOC_STATUS_state 1
  { s with fab := { s.fab with busy := some ⟨cmd, kind, index, from_⟩ } }

/-- An index of a kind is in range (R223). -/
def ownerOk (kind index : Nat) : Bool :=
  match kind with
  | 1 => let c := index / 4096; let i := index % 4096
         (c == 1 && decide (i < 1024)) || (c == 2 && decide (i < 256)) || (c == 3 && decide (i < 64))
  | 2 => decide (index < 704)
  | 3 => decide (index < 1024)
  | 4 => decide (index < 64)
  | 5 => index == 0
  | 6 => index == 0
  | 7 => decide (index < 256)
  | 8 => decide (index < 16)
  | _ => false

/-- Kinds that a sender of the commands allocates (R223): the keeper its own areas, host software and the runners the
others. -/
def agentKind (who : Agent) (kind : Nat) : Bool :=
  if who = .keeper then kind == 8 else kind == 1 || kind == 2 || kind == 7

/-- A count is in range: a delay line has at most 129 shelves (R98). -/
def countOk (kind count : Nat) : Bool :=
  decide (1 ≤ count) && decide (count ≤ if kind = 1 then 129 else nShelves)

/-- The owner of CEL_ALLOC_OWNER: kind and index. -/
def State.cmdOwner (s : State) : Nat × Nat :=
  (s.rd Reg.CEL_ALLOC_OWNER_kind, s.rd Reg.CEL_ALLOC_OWNER_index)

/-- The place of a new run of an owner: the reason it is refused, or its first shelf and its twin's. -/
def State.placeRun (s : State) (ff mirror : Bool) (count : Nat) : Nat ⊕ (Nat × Option Nat) :=
  let used := s.usedRuns
  let first := if ff then firstFit used count else
    let f := s.rd Reg.CEL_ALLOC_REQ_first
    if runFree used f count then some f else none
  match first with
  | none => .inl (if ff then 1 else 6)
  | some f =>
    if mirror then
      match twinFit used f count with
      | none => .inl 1
      | some t => .inr (f, some t)
    else .inr (f, none)

/-- ALLOCATE (R224): the checks in the order of R224, then the run and its clearing. -/
def allocate (who : Agent) (mirror hostWr ff : Bool) (s : State) : State :=
  let (kind, index) := s.cmdOwner
  let count := s.rd Reg.CEL_ALLOC_REQ_count
  if s.fab.busy.isSome then s.allocRefuse 7
  else if !agentKind who kind || (hostWr && kind != 2 && kind != 7) then s.allocRefuse 5
  else if !ownerOk kind index || !countOk kind count then s.allocRefuse 8
  else if (s.allocHeld kind index).isSome then s.allocRefuse 2
  else
    match s.placeRun ff mirror count with
    | .inl r => s.allocRefuse r
    | .inr (f, t) =>
      let a : Alloc := ⟨kind, index, f, count, t, hostWr⟩
      ((s.addAlloc a).allocInfo a).allocBusy 1 kind index 0

/-- A rack is valid in the live or in the staged placement table (R225). -/
def State.rackPlaced (s : State) (r : Nat) : Bool :=
  (s.slotOf (1344 + r)).isSome || decide (32 ≤ s.tile.staged.get 0 (1344 + r))

/-- FREE (R225). -/
def freeCmd (who : Agent) (s : State) : State :=
  let (kind, index) := s.cmdOwner
  if s.fab.busy.isSome then s.allocRefuse 7
  else if !agentKind who kind then s.allocRefuse 5
  else if !ownerOk kind index then s.allocRefuse 8
  else if (s.allocHeld kind index).isNone then s.allocRefuse 3
  else if (kind == 1 && (s.delayNeed (lineObj index) != 0 || s.fab.relocs.any (fun r => r.index == index))) ||
      (kind == 2 && (s.rackPlaced index || s.tapNeed index != 0)) then s.allocRefuse 4
  else (s.freeAlloc kind index).allocDone

/-- Replaces an owner's allocation. -/
def State.setAlloc (s : State) (a : Alloc) : State :=
  ({ s with fab := { s.fab with allocs := s.fab.allocs.map (fun (b : Alloc) =>
    if b.kind == a.kind && b.index == a.index then a else b) } }).cellarStatus

/-- A resize in place (R225): the run and its twin grow into the free shelves that directly follow them, or
release their highest shelves; added shelves are cleared. -/
def resizeInPlace (a : Alloc) (count : Nat) (s : State) : State :=
  let b := { a with count := count }
  if count ≤ a.count then ((s.setAlloc b).allocInfo b).allocDone
  else
    let n := count - a.count
    let used := s.usedRuns
    let twinOk := match a.twin with
      | none => true
      | some t => runFree ((a.first + a.count, n) :: used) (t + a.count) n
    if !runFree used (a.first + a.count) n || !twinOk then s.allocRefuse 1
    else
      let s := (s.setAlloc b).clearRun (a.first + a.count) n
      let s := match a.twin with
        | none => s
        | some t => s.clearRun (t + a.count) n
      (s.allocInfo b).allocBusy 3 a.kind a.index a.count

/-- A resize of a delay line relocates it (R225): the new run and its twin are placed now. -/
def relocate (ff : Bool) (a : Alloc) (count : Nat) (s : State) : State :=
  if lineCap count < s.delayNeed (lineObj a.index) || s.fab.relocs.any (fun r => r.index == a.index) then
    s.allocRefuse 4
  else
    match s.placeRun ff a.twin.isSome count with
    | .inl r => s.allocRefuse r
    | .inr (f, t) =>
      let r : Reloc := ⟨1, a.index, f, count, t, false, 0, false, 0⟩
      let s := { s with fab := { s.fab with relocs := s.fab.relocs ++ [r] } }
      let s := s.clearRun f count
      let s := match t with
        | none => s
        | some t => s.clearRun t count
      (s.cellarStatus.allocInfo { a with first := f, count := count, twin := t }).allocBusy 3 1 a.index a.count

/-- RESIZE (R225). -/
def resizeCmd (who : Agent) (ff : Bool) (s : State) : State :=
  let (kind, index) := s.cmdOwner
  let count := s.rd Reg.CEL_ALLOC_REQ_count
  if s.fab.busy.isSome then s.allocRefuse 7
  else if !agentKind who kind then s.allocRefuse 5
  else if !ownerOk kind index || !countOk kind count then s.allocRefuse 8
  else
    match s.allocHeld kind index with
    | none => s.allocRefuse 3
    | some a =>
      if kind == 1 then relocate ff a count s
      else if kind == 2 && (s.rackPlaced index || decide (lineCap count < s.tapNeed index)) then s.allocRefuse 4
      else resizeInPlace a count s

/-- QUERY (R224): accepted for every kind from 1 to 8. -/
def queryCmd (s : State) : State :=
  let (kind, index) := s.cmdOwner
  if s.fab.busy.isSome then s.allocRefuse 7
  else if !ownerOk kind index then s.allocRefuse 8
  else
    match s.allocHeld kind index with
    | none => s.allocRefuse 3
    | some a => (s.allocInfo a).allocDone

/-- The switch of a relocated line: it is read at its new run and the old run is free (R225). -/
def State.switchLine (s : State) (r : Reloc) : State :=
  let s := { s with fab := { s.fab with
    relocs := s.fab.relocs.filter (fun x => x.index != r.index) } }
  match s.allocHeld 1 r.index with
  | none => s.cellarStatus
  | some a => s.setAlloc { a with first := r.first, count := r.count, twin := r.twin }

/-- ALLOC_COMPLETE (R224, R438): the shelves are cleared and the command is done. Before processing start a
relocation copies nothing and the old run is free at once. -/
def allocComplete (s : State) : State :=
  match s.fab.busy with
  | none => s
  | some b =>
    let s := s.allocDone
    if b.cmd = 3 ∧ b.kind = 1 ∧ !s.run then
      match s.fab.relocs.find? (fun r => r.index == b.index) with
      | none => s
      | some r => s.switchLine r
    else s

/-- Copies into the new line the entries of the counts before the first count written to both. -/
def copyLine (a : Alloc) (r : Reloc) (m0 : Nat) : Nat → State → State
  | 0, s => s
  | n + 1, s =>
    let m : Int := (m0 : Int) - (n + 1)
    let v := s.lineGet a.first a.count m
    let s := s.linePut r.first r.count m v
    let s := match r.twin with
      | none => s
      | some t => s.linePut t r.count m v
    copyLine a r m0 n s

/-- At a lap boundary a cleared new line is written beside the old one, and takes the old entries (R225). -/
def State.startBoth (s : State) : State :=
  (s.fab.relocs.filter (fun r => !r.both && !s.fab.busy.any (fun b => b.cmd == 3 && b.kind == 1 && b.index == r.index))).foldl (fun s r =>
    match s.allocHeld 1 r.index with
    | none => s
    | some a =>
      let m0 := s.lap * s.nLap
      let s := copyLine a r m0 (512 * min a.count r.count) s
      let r' := { r with both := true, firstBoth := m0, copied := true, lap := s.lap }
      { s with fab := { s.fab with
        relocs := s.fab.relocs.map (fun x => if x.index == r.index then r' else x) } }) s

/-- RELOCATION_SWITCH (R225): at the first lap boundary after the copy the delay unit reads the new line. -/
def relocationSwitch (kind index : Nat) (s : State) : State :=
  match s.fab.relocs.find? (fun r => r.kind == kind && r.index == index && r.copied && decide (r.lap < s.lap)) with
  | none => s
  | some r => s.switchLine r

/-! ### Owner classes of banks (R222) -/

/-- A physical bank may leave the pool: it serves no logical bank, or one that holds no allocated shelf. -/
def State.bankIdle (s : State) (n : Nat) : Bool :=
  let b := s.rd (Reg.CEL_PBANK_logical n)
  let clear (first count : Nat) (twin : Option Nat) : Bool :=
    !(banksOf first count).contains (384 * b, 384) &&
    (match twin with
      | none => true
      | some t => !(banksOf t count).contains (384 * b, 384))
  decide (64 ≤ b) || (s.fab.allocs.all (fun a => clear a.first a.count a.twin) &&
    s.fab.relocs.all (fun r => clear r.first r.count r.twin))

/-- BANK_OWNER_WRITE (R222): the keeper's write; it takes effect at a handover. A retired bank stays
retired. -/
def bankOwnerWrite (n : Nat) (val : Word) (s : State) : State :=
  let c := val.toNat % 4
  let cur := s.rd (Reg.CEL_PBANK_owner n)
  if c = 3 ∨ c = cur ∨ cur = 2 ∨ (cur = 0 ∧ !s.bankIdle n) then s
  else { s with fab := { s.fab with
    handover := s.fab.handover.filter (fun h => h.bank != n) ++ [⟨n, c, s.lap⟩] } }

/-- Gives a bank an owner class: a handover (R222). A bank that returns to the pool is cleared to zero. -/
def State.bankClass (s : State) (n c : Nat) : State :=
  let s := s.wr (Reg.CEL_PBANK_owner n) c
  let b := s.rd (Reg.CEL_PBANK_logical n)
  (if c = 0 ∧ b < 64 then s.clearRun (384 * b) 384 else s).cellarStatus.setEvent Reg.CEL_EVENT_ev 4

/-- BANK_HANDOVER (R222): at a lap boundary after the write, where there are boundaries. -/
def bankHandover (n : Nat) (s : State) : State :=
  match s.fab.handover.find? (fun h => h.bank == n && (!s.run || decide (h.lap < s.lap))) with
  | none => s
  | some h =>
    ({ s with fab := { s.fab with handover := s.fab.handover.filter (fun x => x.bank != n) } }).bankClass n h.owner

/-! ### The path table (R228, R229) -/

/-- A runner window with wr = 1 covers a shelf. -/
def State.runnerWindow (s : State) (shelf : Nat) : Bool :=
  (List.range 8).any (fun w => s.on (Reg.XBR_RWIN_CTL_en w) && s.on (Reg.XBR_RWIN_CTL_wr w) &&
    decide (s.rd (Reg.XBR_RWIN_BASE_shelf w) ≤ shelf) &&
    decide (shelf < s.rd (Reg.XBR_RWIN_BASE_shelf w) + s.rd (Reg.XBR_RWIN_CTL_count w)))

/-- A mover of the system partition (R206). -/
def State.systemMover (s : State) (m : Nat) : Bool := decide (m < s.rd Reg.MOV_LOCK_mov_lim)

/-- The kind of cellar shelf a master is limited to (R228). -/
def kindLimit (master : Nat) : Option Nat :=
  if master = 27 then some 4
  else if master = 28 then some 5
  else if 29 ≤ master ∧ master ≤ 31 then some 3
  else if 32 ≤ master ∧ master ≤ 34 then some 6
  else none

/-- The owner class of the bank that holds a cellar byte (R222); none past the cellar. -/
def State.classAt (s : State) (addr : Nat) : Option Nat :=
  (s.physBank (addr / 0x180000)).map (fun n => s.rd (Reg.CEL_PBANK_owner n))

/-- An allocation's owner may use the shelf of a byte of its run: the shelf is cleared (R224). -/
def State.usable (s : State) (a : Alloc) (addr : Nat) : Bool :=
  !s.fab.busy.any (fun b => b.kind == a.kind && b.index == a.index && decide (a.first + b.from_ ≤ addr / 4096))

/-- The allocation through which a byte may be written (R222, R224). -/
def State.ownerAt (s : State) (addr : Nat) : Option Alloc := (s.allocAt addr).filter (fun a => s.usable a addr)

/-- A byte lies in the primary or in the twin of an allocation of a kind (R226, R228). -/
def State.kindAt (s : State) (kind addr : Nat) : Bool :=
  s.fab.allocs.any (fun a => a.kind == kind && ((inRun a.first a.count addr && s.usable a addr) ||
    match a.twin with
    | none => false
    | some t => inRun t a.count addr))

/-- Whether a master has a read path, or a write path, to the cellar (R228). -/
def cellarPath (master : Nat) (write : Bool) : Bool :=
  if write then master != 31 && master != 33 else master != 29 && master != 30 && master != 32

/-- Whether a master may read a cellar byte of the pool. -/
def State.poolRead (s : State) (master addr : Nat) : Bool :=
  match kindLimit master with
  | some k => s.kindAt k addr
  | none => true

/-- Whether a master may write a cellar byte of the pool: never a twin's, and a shelf only through its allocation, but for the
scrubber (R222, R226, R229). -/
def State.poolWrite (s : State) (master addr : Nat) : Bool :=
  if s.inTwin addr then false
  else if master = 35 then true
  else match s.ownerAt addr with
    | none => false
    | some a =>
      match kindLimit master with
      | some k => a.kind == k
      | none =>
        if master = 0 then true
        else if master ≤ 9 then s.runnerWindow (addr / 4096) && a.kind != 5
        else if decide (master < 26) && s.systemMover (master - 10) then true
        else a.hostWr

/-- Whether a master may access a cellar byte (R222, R226, R228, R229): a bank of the pool as the path table has it, one of
class 1 as keeper or scrubber, a retired one never. -/
def State.cellarOk (s : State) (master addr : Nat) (write : Bool) : Bool :=
  match s.classAt addr with
  | some 0 => cellarPath master write && (if write then s.poolWrite master addr else s.poolRead master addr)
  | some 1 => master == 0 || master == 35
  | _ => false

/-! ### Errors of memory words (R227, R391) -/

/-- An uncorrectable address of a physical bank in the running lap; 16 of them make it failed (R391). -/
def State.bankFailed (s : State) (n : Nat) : State :=
  if s.health.failedBanks.contains n then s
  else
    let s := { s with health := { s.health with failedBanks := s.health.failedBanks ++ [n] } }
    s.setEvent Reg.HLT_EVENT_ev 4

/-- A word of a physical bank was uncorrectable. -/
def State.bankUe (s : State) (n addr : Nat) : State :=
  let s := s.countUe 1 n
  let l := s.health.bankUe.get [] n
  let l := if l.contains addr then l else addr :: l
  let s := { s with health := { s.health with bankUe := s.health.bankUe.insert n l } }
  if l.length ≥ 16 then s.bankFailed n else s

/-- A word of a physical bank was corrected: the times of the last hour, in s (R391). -/
def State.bankCe (s : State) (n : Nat) : State :=
  let s := s.countCe 1 n
  let l := (s.health.seconds :: s.health.bankCe.get [] n).filter (fun t => decide (s.health.seconds < t + 3600))
  { s with health := { s.health with bankCe := s.health.bankCe.insert n l } }

/-- What the decoders report of a piece read at a cellar address by a master (R226, R227): whether the data
read is zero with the error marked. -/
def State.cellarEcc (s : State) (master addr : Nat) (e : CellEcc) : State × Bool :=
  let n := (s.physBank (addr / 0x180000)).getD 0
  match e with
  | .ok => (s, false)
  | .corrected => (s.bankCe n, false)
  | .primaryBad | .allBad =>
    let mirrored := match s.allocAt addr with
      | some a => a.twin.isSome
      | none => false
    let s := s.bankUe n addr
    if e == .primaryBad && mirrored then
      ((s.bump Reg.CEL_MIRROR_FIX_count 1).setEvent Reg.CEL_EVENT_ev 3, false)
    else
      let s := (s.bump Reg.CEL_DBE_COUNT_count 1).setEvent Reg.CEL_EVENT_ev 2
      let s := if s.on Reg.CEL_DBE_INFO_valid then s else
        ((s.wr Reg.CEL_DBE_INFO_shelf (addr / 4096)).wr Reg.CEL_DBE_INFO_master master).wr
          Reg.CEL_DBE_INFO_valid 1
      (s, true)

/-- What the decoders report of the n-th word of an access. -/
def eccAt (l : List (Nat × CellEcc)) (n : Nat) : CellEcc :=
  match l.find? (fun e => e.1 == n) with
  | none => .ok
  | some e => e.2

/-- The errors of words that an exchange window reads, each with its cellar address and the system mover that reads it: they
are counted and captured, and a word that no copy holds reads zero within the window (R227). -/
def State.windowEcc (s : State) (l : List (Nat × Nat × CellEcc)) : State :=
  l.foldl (fun s e =>
    let r := s.cellarEcc (10 + e.2.1) (e.1 / 8 * 8) e.2.2
    if r.2 then { r.1 with fab := { r.1.fab with zeroWords := e.1 / 8 * 8 :: r.1.fab.zeroWords } } else r.1) s

/-- The errors of the words that a read of n bytes touches, by word, and the bytes with those of a word that no copy holds
zero (R227). -/
def State.readEcc (s : State) (master addr : Nat) (l : List (Nat × CellEcc)) (data : List Byte) : State × List Byte × Bool :=
  l.foldl (fun x e =>
    let w := addr / 8 * 8 + 8 * e.1
    if addr + x.2.1.length ≤ w then x
    else
      let r := x.1.cellarEcc master w e.2
      if r.2 then (r.1, (x.2.1.zipIdx).map (fun b => if w ≤ addr + b.2 ∧ addr + b.2 < w + 8 then 0 else b.1), true)
      else (r.1, x.2.1, x.2.2)) (s, data, false)

/-- ALLOCATE (R224). -/
def execAllocate (who : Agent) (mirror hostWr firstFit : Bool) (s : State) : Host.Outcome State Fault Refusal :=
  whenWf (.allocate who mirror hostWr firstFit) (allocate who mirror hostWr firstFit s)

/-- FREE (R225). -/
def execFree (who : Agent) (s : State) : Host.Outcome State Fault Refusal :=
  whenWf (.free who) (freeCmd who s)

/-- RESIZE (R225). -/
def execResize (who : Agent) (firstFit : Bool) (s : State) : Host.Outcome State Fault Refusal :=
  whenWf (.resize who firstFit) (resizeCmd who firstFit s)

/-- QUERY (R224). -/
def execQuery (s : State) : Host.Outcome State Fault Refusal :=
  whenWf .query (queryCmd s)

/-- ALLOC_COMPLETE (R224). -/
def execAllocComplete (s : State) : Host.Outcome State Fault Refusal :=
  whenWf .allocComplete (allocComplete s)

/-- RELOCATION_SWITCH (R225). -/
def execRelocationSwitch (kind index : Nat) (s : State) : Host.Outcome State Fault Refusal :=
  whenWf (.relocationSwitch kind index) (relocationSwitch kind index s)

/-- BANK_OWNER_WRITE (R222). -/
def execBankOwnerWrite (bank : Nat) (val : Word) (s : State) : Host.Outcome State Fault Refusal :=
  whenWf (.bankOwnerWrite bank val) (bankOwnerWrite bank val s)

/-- BANK_HANDOVER (R222). -/
def execBankHandover (bank : Nat) (s : State) : Host.Outcome State Fault Refusal :=
  whenWf (.bankHandover bank) (bankHandover bank s)

end Sys2Proof.Machine
end

