-- ==== Sys2Proof/Machine/Sched.lean ====
section
/-! DEFINITION. The hardware scheduler of the runners (R359 to R366). Operations carry the CLK_C cycle they
take effect in and the runner that issues them. -/

namespace Sys2Proof.Machine

/-! ### Runners and tasks -/

/-- A runner. -/
def State.runner (s : State) (k : Nat) : Runner := s.core.runners.get Runner.reset k

/-- Stores a runner. -/
def State.setRunner (s : State) (k : Nat) (r : Runner) : State :=
  { s with core := { s.core with runners := s.core.runners.insert k r } }

/-- COR_RUNNER.state of a runner: 0 off, 1 running, 2 spare, 3 retired (R368). -/
def State.runnerState (s : State) (k : Nat) : Nat := bitsOf (s.rd Reg.COR_RUNNER_state) (2 * k) 2

/-- Writes COR_RUNNER.state of a runner. -/
def State.setRunnerState (s : State) (k v : Nat) : State :=
  s.wr Reg.COR_RUNNER_state (putBits (s.rd Reg.COR_RUNNER_state) (2 * k) 2 v)

/-- A runner issues operations: it runs and is not halted by a fault. -/
def State.runnerRuns (s : State) (k : Nat) : Bool := s.runnerState k == 1 && !(s.runner k).halted

/-- A task entry (R359). -/
def State.task (s : State) (t : Nat) : Task := s.sched.tasks.get Task.unused t

/-- Stores a task entry. -/
def State.setTask (s : State) (t : Nat) (x : Task) : State :=
  { s with sched := { s.sched with tasks := s.sched.tasks.put Task.unused t x } }

/-- A ready queue, its head first. -/
def State.queue (s : State) (p : Nat) : List Nat := s.sched.queues.get [] p

/-- Stores a ready queue. -/
def State.setQueue (s : State) (p : Nat) (q : List Nat) : State :=
  { s with sched := { s.sched with queues := s.sched.queues.put [] p q } }

/-- Whether a runner may serve a task's class (R365). -/
def State.serves (s : State) (k t : Nat) : Bool :=
  bitAt (s.rd (Reg.SCH_SVC_affinity (s.task t).cls)) k

/-- Advances the scheduler's cycle. -/
def State.schedAt (s : State) (cyc : Nat) : State :=
  { s with sched := { s.sched with cycle := max s.sched.cycle cyc } }

/-- The runner sees that its operation was refused, or that it was not (R360). -/
def State.sawRefusal (s : State) (k : Nat) (b : Bool) : State := s.setRunner k { s.runner k with refused := b }

/-- A runner issues operations: it runs and is not blocked. -/
def State.issues (s : State) (k : Nat) : Bool :=
  s.runnerRuns k && (s.runner k).inTake.isNone && (s.runner k).inGrab.isNone

/-- An operation of a runner: nothing from a runner that does not run or is blocked; `f` answers none to refuse (R360). -/
def schedOp (cyc k : Nat) (f : State → Option State) (s : State) : State :=
  if s.issues k then
    let s := s.schedAt cyc
    match f s with
    | some t => t.sawRefusal k false
    | none => s.sawRefusal k true
  else s

/-! ### Statistics (R366) -/

/-- The statistics of a priority in the running window. -/
def State.pstat (s : State) (p : Nat) : PrioStat := s.sched.stat.get PrioStat.zero p

/-- Records a queue depth reached. -/
def State.noteDepth (s : State) (p n : Nat) : State :=
  { s with sched := { s.sched with
      stat := s.sched.stat.insert p { s.pstat p with depth := max (s.pstat p).depth n } } }

/-- Records a wait in CLK_C cycles from entering the ready queue. -/
def State.noteWait (s : State) (p w : Nat) : State :=
  let x := s.pstat p
  let y := { x with waitMax := max x.waitMax w, waitSum := x.waitSum + w, waits := x.waits + 1 }
  { s with sched := { s.sched with stat := s.sched.stat.insert p y } }

/-- A runner is blocked no more: the cycles it was blocked are counted. -/
def Runner.unblock (r : Runner) (cyc : Nat) : Runner :=
  let a := match r.inTake with | some c => cyc - max c 0 | none => 0
  let b := match r.inGrab with | some c => cyc - max c 0 | none => 0
  { r with inTake := none, inGrab := none, blockedSum := r.blockedSum + a + b }

/-- SCH_STATUS.blocked shows the runners blocked in TAKE (R369). -/
def State.showBlocked (s : State) : State :=
  s.wr Reg.SCH_STATUS_blocked
    ((List.range 9).foldl (fun a k => a + b2n (s.runner k).inTake.isSome * 2 ^ k) 0)

/-! ### Giving tasks (R361) -/

/-- A ready task leaves its queue for a runner, and runs. -/
def State.give (s : State) (k t : Nat) : State :=
  let x := s.task t
  let cyc := s.sched.cycle
  let s := s.setQueue x.prio ((s.queue x.prio).erase t)
  let s := (s.noteWait x.prio (cyc - x.since)).setTask t { x with st := .running, runner := k }
  let s := s.setRunner k { (s.runner k).unblock cyc with tookAt := cyc + 1, took := t }
  s.showBlocked

/-- Of the runners blocked in TAKE that may serve a task, the one that has waited longest, and of equal waits
the lowest-numbered (R361). -/
def State.longestBlocked (s : State) (t : Nat) : Option Nat :=
  ((List.range 9).filter (fun k => (s.runner k).inTake.isSome && s.serves k t)).foldl (fun best k =>
    match best with
    | none => some k
    | some j => if (s.runner k).inTake.getD 0 < (s.runner j).inTake.getD 0 then some k else some j) none

/-- A task enters the tail of the ready queue of its class's priority, which is fixed then, and goes to a
blocked runner that may serve it (R361). -/
def State.enqueue (s : State) (t : Nat) : State :=
  let x := s.task t
  let p := s.rd (Reg.SCH_SVC_prio x.cls)
  let s := s.setTask t { x with st := .ready, prio := p, due := 0, since := s.sched.cycle, readyAt := s.sched.cycle + 1 }
  let q := s.queue p ++ [t]
  let s := (s.setQueue p q).noteDepth p q.length
  match s.longestBlocked t with
  | some k => s.give k t
  | none => s

/-- Queued tasks go to blocked runners that may serve them by now: affinities have changed (R361, R369). -/
def State.dispatch (s : State) : State :=
  (List.range 64).foldl (fun s p => (s.queue p).foldl (fun s t =>
    match s.longestBlocked t with
    | some k => s.give k t
    | none => s) s) s

/-- The ready task a runner takes: of the highest-priority queue that holds one it may serve, the one nearest
the head (R361). -/
def State.nextTask (s : State) (k : Nat) : Option Nat :=
  (List.range 64).findSome? (fun p => (s.queue p).find? (fun t => s.serves k t))

/-- A task becomes idle from a queue or the delay list. -/
def State.dequeue (s : State) (t : Nat) : State :=
  let x := s.task t
  let s := s.setQueue x.prio ((s.queue x.prio).erase t)
  { s with sched := { s.sched with delays := s.sched.delays.erase t } }

/-- A task was cancelled in the cycle in which it arrived (R363). -/
def State.cancelArrived (s : State) : State := (s.bump Reg.SCH_CANCEL_ARR_count 1).setEvent Reg.SCH_EVENT_ev 2

/-! ### The operations (R360, R363, R364) -/

/-- SETUP: an unused or idle task becomes idle with a class. -/
def setupTask (t cls : Nat) (s : State) : Option State :=
  let x := s.task t
  if x.st = .unused then
    some ((s.setTask t { x with st := .idle, cls := cls }).wr Reg.SCH_STATUS_tasks (s.rd Reg.SCH_STATUS_tasks + 1))
  else if x.st = .idle then some (s.setTask t { x with cls := cls })
  else none

/-- RELEASE: an idle task becomes unused. -/
def releaseTask (t : Nat) (s : State) : Option State :=
  if (s.task t).st = .idle then
    some ((s.setTask t Task.unused).wr Reg.SCH_STATUS_tasks (s.rd Reg.SCH_STATUS_tasks - 1))
  else none

/-- READY: by the task's state; with a CANCEL of the same cycle an idle task stays idle (R363). -/
def readyTask (t : Nat) (s : State) : Option State :=
  let x := s.task t
  match x.st with
  | .unused => none
  | .idle => if x.cancelAt = s.sched.cycle + 1 then some s.cancelArrived else some (s.enqueue t)
  | .delayed => some ((s.dequeue t).enqueue t)
  | .running => some (s.setTask t { x with again := true })
  | .ready => some s

/-- Inserts a task into the delay list: by due lap, then in DELAY order (R362). -/
def State.insertDelay (s : State) (t due : Nat) : List Nat → List Nat
  | [] => [t]
  | u :: r => if due < (s.task u).due then t :: u :: r else u :: s.insertDelay t due r

/-- DELAY: an idle task becomes delayed; one that a DONE of the same cycle made idle was still running (R363). -/
def delayTask (t d : Nat) (s : State) : Option State :=
  let x := s.task t
  if x.st = .idle ∧ x.doneAt ≠ s.sched.cycle + 1 ∧ 1 ≤ d ∧ d ≤ 65535 then
    let due := s.lap + d
    let s := s.setTask t { x with st := .delayed, due := due }
    some { s with sched := { s.sched with delays := s.insertDelay t due s.sched.delays } }
  else none

/-- CANCEL: a ready or delayed task becomes idle, a running one loses its again bit. A task that a READY,
its due lap or a DONE put in the queue in the same cycle is idle, even where a runner was given it; a DONE comes after the
CANCEL, so that no arrival was cancelled (R363). -/
def cancelTask (t : Nat) (s : State) : Option State :=
  let x := s.task t
  let cyc := s.sched.cycle
  let same := x.readyAt == cyc + 1
  let done := x.doneAt == cyc + 1
  match x.st with
  | .ready =>
    let s := (s.dequeue t).setTask t { x with st := .idle, again := false, due := 0, cancelAt := cyc + 1 }
    some (if same && !done then s.cancelArrived else s)
  | .delayed => some ((s.dequeue t).setTask t { x with st := .idle, again := false, cancelAt := cyc + 1 })
  | .running =>
    if same && !x.again then
      let r := s.runner x.runner
      let s := (s.setRunner x.runner { r with inTake := some cyc, tookAt := 0 }).showBlocked
      let s := s.setTask t { x with st := .idle, due := 0, cancelAt := cyc + 1 }
      some (if done then s else s.cancelArrived)
    else some (s.setTask t { x with again := false, cancelAt := cyc + 1 })
  | _ => none

/-- CANCEL of an idle task is refused, and a READY of the same cycle then leaves it idle (R363). -/
def cancelOp (cyc k t : Nat) (s : State) : State :=
  let u := schedOp cyc k (cancelTask t) s
  let x := s.task t
  let now := u.sched.cycle + 1
  if s.issues k && x.st == .idle then
    u.setTask t { x with cancelAt := now, due := if x.cancelAt = now then x.due else 0 }
  else u

/-- A higher-numbered runner that a TAKE of this cycle gave a task the runner may serve (R363). -/
def State.laterTaker (s : State) (k : Nat) : Option Nat :=
  ((List.range 9).reverse).find? (fun j => decide (k < j) && (s.runner j).tookAt == s.sched.cycle + 1 &&
    (s.task (s.runner j).took).st == .running && (s.task (s.runner j).took).runner == j && s.serves k (s.runner j).took)

/-- TAKE: a ready task, or the runner blocks. Of two TAKEs of one cycle the lower-numbered runner gets the
task (R363). -/
def takeTask (k : Nat) (s : State) : Option State :=
  match s.nextTask k with
  | some t => some (s.give k t)
  | none =>
    let cyc := s.sched.cycle
    match s.laterTaker k with
    | none => some (s.setRunner k { s.runner k with inTake := some cyc }).showBlocked
    | some j =>
      let t := (s.runner j).took
      let s := s.setTask t { s.task t with runner := k }
      let s := s.setRunner j { s.runner j with inTake := some cyc, tookAt := 0 }
      some (s.setRunner k { s.runner k with tookAt := cyc + 1, took := t }).showBlocked

/-- DONE: a running task becomes ready again if its again bit is set, else idle. -/
def doneTask (t : Nat) (s : State) : Option State :=
  let x := s.task t
  if x.st = .running then
    let x := { x with again := false, doneAt := s.sched.cycle + 1 }
    if (s.task t).again then some ((s.setTask t x).enqueue t) else some (s.setTask t { x with st := .idle })
  else none

/-- A lock (R364). -/
def State.lock (s : State) (l : Nat) : Lock := s.sched.locks.get Lock.free l

/-- Stores a lock. -/
def State.setLock (s : State) (l : Nat) (x : Lock) : State :=
  { s with sched := { s.sched with locks := s.sched.locks.put Lock.free l x } }

/-- GRAB: a free lock is given at once, otherwise the runner blocks. -/
def grabLock (k l : Nat) (s : State) : Option State :=
  let x := s.lock l
  match x.holder with
  | none => some (s.setLock l ⟨some k, [], false⟩)
  | some _ =>
    some ((s.setLock l { x with waiters := x.waiters ++ [k] }).setRunner k
      { s.runner k with inGrab := some s.sched.cycle })

/-- A lock passes to the runner that has waited longest, or is free. -/
def State.passLock (s : State) (l : Nat) (broken : Bool) : State :=
  let x := s.lock l
  match x.waiters with
  | [] => s.setLock l ⟨none, [], broken⟩
  | j :: r => (s.setLock l ⟨some j, r, broken⟩).setRunner j ((s.runner j).unblock s.sched.cycle)

/-- DROP: the holder passes the lock on or frees it. -/
def dropLock (k l : Nat) (s : State) : Option State :=
  if (s.lock l).holder = some k then some (s.passLock l false) else none

/-- SETUP (R360). -/
def execSetup (cyc k t cls : Nat) (s : State) : Host.Outcome State Fault Refusal :=
  whenWf (.setup cyc k t cls) (schedOp cyc k (setupTask t cls) s)

/-- RELEASE (R360). -/
def execRelease (cyc k t : Nat) (s : State) : Host.Outcome State Fault Refusal :=
  whenWf (.release cyc k t) (schedOp cyc k (releaseTask t) s)

/-- READY (R360, R363). -/
def execReady (cyc k t : Nat) (s : State) : Host.Outcome State Fault Refusal :=
  whenWf (.ready cyc k t) (schedOp cyc k (readyTask t) s)

/-- DELAY (R360, R362). -/
def execDelay (cyc k t d : Nat) (s : State) : Host.Outcome State Fault Refusal :=
  whenWf (.delay cyc k t d) (schedOp cyc k (delayTask t d) s)

/-- CANCEL (R360, R363). -/
def execCancel (cyc k t : Nat) (s : State) : Host.Outcome State Fault Refusal :=
  whenWf (.cancel cyc k t) (cancelOp cyc k t s)

/-- TAKE (R360, R361, R363). -/
def execTake (cyc k : Nat) (s : State) : Host.Outcome State Fault Refusal :=
  whenWf (.take cyc k) (schedOp cyc k (takeTask k) s)

/-- DONE (R360). -/
def execDone (cyc k t : Nat) (s : State) : Host.Outcome State Fault Refusal :=
  whenWf (.done cyc k t) (schedOp cyc k (doneTask t) s)

/-- GRAB (R360, R364). -/
def execGrab (cyc k l : Nat) (s : State) : Host.Outcome State Fault Refusal :=
  whenWf (.grab cyc k l) (schedOp cyc k (grabLock k l) s)

/-- DROP (R360, R364). -/
def execDrop (cyc k l : Nat) (s : State) : Host.Outcome State Fault Refusal :=
  whenWf (.drop cyc k l) (schedOp cyc k (dropLock k l) s)

/-! ### Lap boundaries and windows (R362, R363, R366) -/

/-- Moves the due tasks of a list to their ready queues, in list order. -/
def dueLoop : List Nat → State → State
  | [], s => s
  | t :: r, s => if (s.task t).due ≤ s.lap then dueLoop r ((s.dequeue t).enqueue t) else dueLoop r s

/-- DELAY_DUE (R362): every delayed task due at or before the lap index becomes ready; a task cancelled in the
same cycle whose due lap it was stays idle and is counted (R363). -/
def delayDue (cyc : Nat) (s : State) : State :=
  let s := s.schedAt cyc
  let lost := (s.sched.tasks.filter (fun e => e.2.st == .idle && e.2.cancelAt == cyc + 1 &&
    decide (0 < e.2.due) && decide (e.2.due ≤ s.lap))).map (·.1)
  let s := lost.foldl (fun s t => (s.setTask t { s.task t with due := 0 }).cancelArrived) s
  dueLoop s.sched.delays s

/-- DELAY_DUE (R362, R363). -/
def execDelayDue (cyc : Nat) (s : State) : Host.Outcome State Fault Refusal :=
  whenWf (.delayDue cyc) (delayDue cyc s)

/-- The busy fraction of a runner over a window of n cycles, in 2^-16 (R366). -/
def busyFrac (blocked n : Nat) : Nat := if n = 0 then 0 else min 0xFFFF ((n - blocked) * 65536 / n)

/-- Latches a runner's fraction; its blocked time counts anew from here. -/
def State.latchBusy (s : State) (cyc n k : Nat) : State :=
  let r := s.runner k
  let u := r.unblock cyc
  let s := s.wr (Reg.SCH_BUSY_busy k) (if s.runnerRuns k then busyFrac u.blockedSum n else 0)
  s.setRunner k { r with
    blockedSum := 0, inTake := r.inTake.map (fun _ => cyc), inGrab := r.inGrab.map (fun _ => cyc) }

/-- STATS_WINDOW_END (R366): at the end of a window every statistic is latched together. -/
def statsWindowEnd (cyc : Nat) (s : State) : State :=
  if s.run ∧ s.sched.winLap + s.rd Reg.SCH_CFG_window ≤ s.lap then
    let s := s.schedAt cyc
    let n := cyc - s.sched.winCycle
    let s := (List.range 9).foldl (fun s k => s.latchBusy cyc n k) s
    let fresh := s.sched.queues.map (fun e => (e.1, { PrioStat.zero with depth := e.2.length }))
    let s := { s with sched := { s.sched with
      latched := s.sched.stat, stat := fresh, winLap := s.lap, winCycle := cyc } }
    (s.wr64 Reg.SCH_STAT_LAP_LO_lap Reg.SCH_STAT_LAP_HI_lap s.lap).setEvent Reg.SCH_EVENT_ev 0
  else s

/-- STATS_WINDOW_END (R366). -/
def execStatsWindowEnd (cyc : Nat) (s : State) : Host.Outcome State Fault Refusal :=
  whenWf (.statsWindowEnd cyc) (statsWindowEnd cyc s)

end Sys2Proof.Machine
end

