-- ==== Sys2Proof/Machine/Frames.lean ====
section
/-! DEFINITION. Network frames as bytes (R257, R263, R271, R275 to R277): fields, checksums, the headers that the engine
forms, the reports of IGMPv3, and the egress queues. A frame runs from its destination address on. -/

namespace Sys2Proof.Machine

/-! ### Fields -/

/-- The n bytes at an offset as a number, the highest first. -/
def be (l : List Byte) (off n : Nat) : Nat := ofBe ((l.drop off).take n)

/-- The sum of the 16-bit words of bytes, an odd last byte padded with 0. -/
def sum16 : List Byte → Nat
  | [] => 0
  | [a] => a.toNat * 256
  | a :: b :: t => a.toNat * 256 + b.toNat + sum16 t

/-- A sum folded to 16 bits with end-around carries. -/
def fold16 (x : Nat) : Nat :=
  let y := x % 65536 + x / 65536
  let z := y % 65536 + y / 65536
  z % 65536 + z / 65536

/-- The internet checksum of bytes. -/
def checksum16 (l : List Byte) : Nat := 65535 - fold16 (sum16 l)

/-- One byte of the CRC-32 of IEEE 802.3, its lowest bit first. -/
def crc32Byte (r : Word) (b : Byte) : Word :=
  (List.range 8).foldl (fun (r : Word) _ => if r.getLsbD 0 then (r >>> 1) ^^^ 0xEDB88320#32 else r >>> 1)
    (r ^^^ b.setWidth 32)

/-- The FCS of a frame, in the order of its bytes. -/
def fcs (l : List Byte) : List Byte := leBytes 4 (~~~ (l.foldl crc32Byte 0xFFFFFFFF#32)).toNat

/-! ### Addresses of a port (R280) -/

/-- The port's MAC address. -/
def State.portMac (s : State) (p : Nat) : Nat := s.rd (Reg.NT_MAC_LO_mac p) + 2 ^ 32 * s.rd (Reg.NT_MAC_HI_mac p)

/-- The port's IPv4 address. -/
def State.portIp (s : State) (p : Nat) : Nat := s.rd (Reg.NT_IPV4_addr p)

/-- The MAC address that IPv4 multicast maps from an address. -/
def mapMac (ip : Nat) : Nat := 0x01005E000000 + ip % 2 ^ 23

/-! ### Frames that the engine forms -/

/-- A frame from its addresses, type and contents. -/
def ethFrame (dst src type : Nat) (data : List Byte) : List Byte :=
  beBytes 6 dst ++ beBytes 6 src ++ beBytes 2 type ++ data

/-- An IPv4 packet; `options` a whole number of words. -/
def ipPacket (dscp ttl proto src dst : Nat) (options data : List Byte) : List Byte :=
  let hlen := 20 + options.length
  let head (sum : Nat) : List Byte :=
    beBytes 1 (64 + hlen / 4) ++ beBytes 1 (dscp % 64 * 4) ++ beBytes 2 (hlen + data.length) ++
      beBytes 2 (Config.frameField 0) ++ beBytes 2 (Config.frameField 1 % 2 * 0x4000) ++ beBytes 1 ttl ++
      beBytes 1 proto ++ beBytes 2 sum ++ beBytes 4 src ++ beBytes 4 dst ++ options
  head (checksum16 (head 0)) ++ data

/-- A UDP datagram with checksum 0 (R257). -/
def udpData (sport dport : Nat) (data : List Byte) : List Byte :=
  beBytes 2 sport ++ beBytes 2 dport ++ beBytes 2 (8 + data.length) ++ beBytes 2 0 ++ data

/-- A frame that a port sends over UDP and IPv4, with TTL 64 (R257). -/
def State.udpFrame (s : State) (port mac ip dscp sport dport : Nat) (data : List Byte) : List Byte :=
  ethFrame mac (s.portMac port) 0x0800 (ipPacket dscp 64 17 (s.portIp port) ip [] (udpData sport dport data))

/-! ### Egress queues (R276) -/

/-- A network port. -/
def State.nport (s : State) (p : Nat) : NetPort := s.net.ports.get NetPort.reset p

/-- Stores a network port. -/
def State.setNport (s : State) (p : Nat) (x : NetPort) : State :=
  { s with net := { s.net with ports := s.net.ports.insert p x } }

/-- The largest frame of a port with its FCS: 9 278 bytes with jumbo frames, else 1 518, 4 more with a tag. -/
def State.maxBytes (s : State) (p : Nat) (tagged : Bool) : Nat :=
  if s.on (Reg.NT_CFG_jumbo p) then 9278 else if tagged then 1522 else 1518

/-- A frame joins the tail of a port's egress queue. -/
def State.joinQueue (s : State) (p q : Nat) (f : EgFrame) : State :=
  let x := s.nport p
  s.setNport p { x with queues := x.queues.insert q (x.queues.get [] q ++ [f]) }

/-- A port's link is up (R255). -/
def State.netUp (s : State) (p : Nat) : Bool := s.rd (Reg.NT_CFG_mode p) != 0 && s.on (Reg.NT_STATUS_link p)

/-! ### IGMPv3 reports (R277) -/

/-- The kinds of a group record: the current state, or a change to it. -/
inductive GroupNews where
  | isMember | join | leave
  deriving DecidableEq, Repr

/-- A membership report for one group; `src` its source filter, 0 for none. -/
def igmpReportData (news : GroupNews) (group src : Nat) : List Byte :=
  let kind := match news with
    | .isMember => if src = 0 then 2 else 1
    | .join => if src = 0 then 4 else 3
    | .leave => 3
  let srcs : List Byte := if news = .leave ∨ src = 0 then [] else beBytes 4 src
  let body (sum : Nat) : List Byte :=
    beBytes 1 0x22 ++ beBytes 1 0 ++ beBytes 2 sum ++ beBytes 2 0 ++ beBytes 2 1 ++ beBytes 1 kind ++ beBytes 1 0 ++
      beBytes 2 (srcs.length / 4) ++ beBytes 4 group ++ srcs
  body (checksum16 (body 0))

/-- The address that IGMPv3 reports go to: 224.0.0.22. -/
def igmpDst : Nat := 0xE0000016

/-- Runner firmware sends a report on host queue 5, egress queue 7. -/
def State.sendReport (s : State) (port : Nat) (news : GroupNews) (group src : Nat) : State :=
  s.joinQueue port 7 ⟨ethFrame (mapMac igmpDst) (s.portMac port) 0x0800
    (ipPacket (Config.frameField 3) 1 2 (s.portIp port) igmpDst [0x94#8, 0x04#8, 0x00#8, 0x00#8]
      (igmpReportData news group src)), .plain⟩

end Sys2Proof.Machine
end

