-- ==== Sys2Proof/Machine/Fades.lean ====
section
/-! DEFINITION. What many points share: the fade curves and the blend (R89), the gain smoother (R117), lengths
in samples, and the gate of a channel of a port or a stream (R245, R246, R262). -/

namespace Sys2Proof.Machine

/-! ### Curves (R89) -/

/-- g_in(i) of a fade of l samples: equal-power when `power`, else equal-gain. -/
def gIn (power : Bool) (l i : Nat) : A48 :=
  if power then BitVec.ofInt 48 (fxRound (fxSinTurn (i + 1) (4 * l)) 39)
  else BitVec.ofNat 48 ((i + 1) * 2 ^ 39 / l)

/-- g_out(i) of a fade of l samples. -/
def gOut (power : Bool) (l i : Nat) : A48 :=
  if power then BitVec.ofInt 48 (fxRound (fxCosTurn (i + 1) (4 * l)) 39)
  else BitVec.ofNat 48 (2 ^ 39 - (i + 1) * 2 ^ 39 / l)

/-- The blend of sample i of a fade (R89). -/
def blend (power : Bool) (l i : Nat) (old new : A48) : A48 :=
  sumA48 [prAA old (gOut power l i), prAA new (gIn power l i)]

/-- A fade that has samples left. -/
def Fade.runs (f : Fade) : Bool := decide (f.pos < f.len)

/-- Whether a fade runs. -/
def fadeRuns : Option Fade → Bool
  | none => false
  | some f => f.runs

/-- A fade after one sample. A fade whose last sample has passed stays until its end is taken. -/
def fadeNext : Option Fade → Option Fade
  | none => none
  | some f => if f.runs then some { f with pos := f.pos + 1 } else some f

/-- One sample of a point with a fade between two values. -/
def fadeSample (f : Option Fade) (old new : A48) : A48 :=
  match f with
  | none => new
  | some f => if f.runs then blend f.power f.len f.pos old new else new

/-- A lap of a point: old and new values in pairs. -/
def fadeLap : Option Fade → List (A48 × A48) → List A48 × Option Fade
  | f, [] => ([], f)
  | f, (o, n) :: t =>
    let r := fadeLap (fadeNext f) t
    (fadeSample f o n :: r.1, r.2)

/-! ### Lengths in samples -/

/-- The sample rate in Hz (R5). -/
def State.fs (s : State) : Nat := (if s.syn.fam = 1 then 48000 else 44100) * 2 ^ s.syn.mult

/-- A time in ms in samples, rounded up (R123, R245). -/
def State.msSamples (s : State) (ms : Nat) : Nat := (ms * s.fs + 999) / 1000

/-! ### The gain smoother (R117) -/

/-- Sample 0 of a lap: the target, whether a page swap takes effect for the object at this boundary, and the
gain ramp length of its commit. -/
def Smoother.begin (m : Smoother) (tgt : A48) (swapped : Bool) (lg : Nat) : Smoother :=
  if !m.valid then ⟨tgt, 0, true⟩
  else if swapped then
    if lg = 0 then ⟨tgt, 0, true⟩ else if tgt ≠ m.g then { m with r := lg } else { m with r := 0 }
  else if m.r = 0 ∧ tgt ≠ m.g then { m with r := lg }
  else m

/-- One sample of a smoother, before its gain is used. -/
def Smoother.next (m : Smoother) (tgt : A48) : Smoother :=
  if m.r > 0 then
    { m with g := BitVec.ofInt 48 (m.g.toInt + (tgt.toInt - m.g.toInt) / m.r), r := m.r - 1 }
  else m

/-- A lap of a smoother: its gains and its state after it. -/
def Smoother.run (tgt : A48) : Nat → Smoother → List A48 × Smoother
  | 0, m => ([], m)
  | n + 1, m =>
    let m := m.next tgt
    let r := Smoother.run tgt n m
    (m.g :: r.1, r.2)

/-- The page swap of an object at this lap's boundary, and the profile of the last one (R117, R166). -/
def State.swapOf (s : State) (ob : Nat) : Bool × Prof :=
  match s.vault.swap.get ⟨0, Prof.cut⟩ ob with
  | ⟨lap, prof⟩ => (s.vault.swap.has ob && lap == s.lap, prof)

/-- The profile of the commit that made a parameter's live value current (R166). -/
def State.profOf (s : State) (p : Nat) : Prof := (s.vault.chg.get ⟨0, Prof.cut⟩ p).prof

/-- One lap of a smoother on db2lin of an object's level parameter. -/
def State.smooth (s : State) (m : Smoother) (ob p : Nat) : List A48 × Smoother :=
  let tgt := db2linV ((s.vault.live p).setWidth 32)
  let w := s.swapOf ob
  Smoother.run tgt s.nLap (m.begin tgt w.1 w.2.gain)

/-! ### Channel gates (R245, R246, R262) -/

/-- Samples of a stop fade and of a fade-in after a timeout. -/
def gateLen : Nat := 32

/-- sign(v) of R123. -/
def sgn (v : A48) : Bool := v.msb

/-- One sample through a gate; T is the last search sample (R123, R245). -/
def gateStep (T : Nat) (g : ChanGate) (prev x : A48) : A48 × ChanGate :=
  match g with
  | .closed => (0, .closed)
  | .search c =>
    if x = 0 ∨ sgn x ≠ sgn prev then (x, .opened)
    else if T ≤ c then (gainA (gIn false gateLen 0) x, .fadeIn 1)
    else (0, .search (c + 1))
  | .fadeIn i => (gainA (gIn false gateLen i) x, if i + 1 < gateLen then .fadeIn (i + 1) else .opened)
  | .opened => (x, .opened)
  | .fadeOut i => (gainA (gOut false gateLen i) x, if i + 1 < gateLen then .fadeOut (i + 1) else .closed)

/-- A list of samples through a gate: the outputs, the gate after them and the last sample. -/
def gateRun (T : Nat) : ChanGate → A48 → List A48 → List A48 × ChanGate × A48
  | g, prev, [] => ([], g, prev)
  | g, prev, x :: t =>
    let y := gateStep T g prev x
    let r := gateRun T y.2 x t
    (y.1 :: r.1, r.2)

/-- A gate in which a fade to zero begins. -/
def ChanGate.stop : ChanGate → ChanGate
  | .opened => .fadeOut 0
  | .fadeIn _ => .fadeOut 0
  | .fadeOut i => .fadeOut i
  | _ => .closed

/-- A channel that passes its data whole. -/
def ChanGate.isOpen : ChanGate → Bool
  | .opened => true
  | _ => false

end Sys2Proof.Machine
end

