-- ==== Sys2Proof/Machine/Layout.lean ====
section
/-! DEFINITION. The stage layout: columns and positions (R84, R162), and which objects of the vault are muted or ramp in at
a position (R65, R67, R169 to R172). -/

namespace Sys2Proof.Machine

/-! ### Columns and positions (R84, R162) -/

/-- The live stage layout: the widths of the optional columns and the ring depth H. -/
structure Layout where
  inIns : Nat
  busHead : Nat
  busTail : Nat
  mtxHead : Nat
  mtxTail : Nat
  h : Nat
  deriving DecidableEq, Repr

/-- A layout from the bits of GRF_LAYOUT. -/
def Layout.ofBits (b : Nat) : Layout :=
  ⟨bitsOf b 0 1, bitsOf b 1 1, bitsOf b 2 1, bitsOf b 3 1, bitsOf b 4 1, bitsOf b 8 3⟩

/-- The layout in force. -/
def State.layout (s : State) : Layout := Layout.ofBits (s.reg Reg.GRF_LAYOUT_LIVE_in_ins.off).toNat

/-- Positions of the columns: laps after the entry lap. The position of an absent insert column is that of the
column its object stands in. -/
def Layout.posStrip (l : Layout) : Nat := l.inIns
def Layout.posBusHead (l : Layout) : Nat := l.inIns + 1 + l.h
def Layout.posBus (l : Layout) : Nat := l.posBusHead + l.busHead
def Layout.posBusTail (l : Layout) : Nat := l.posBus + l.busTail
def Layout.posMtxHead (l : Layout) : Nat := l.posBusTail + 1
def Layout.posMtx (l : Layout) : Nat := l.posMtxHead + l.mtxHead
def Layout.posMtxTail (l : Layout) : Nat := l.posMtx + l.mtxTail

/-- The stage numbers S of the output points (R84). -/
def Layout.sDirect (l : Layout) : Nat := l.inIns + 1
def Layout.sBus (l : Layout) : Nat := l.posBusTail + 1
def Layout.sMtx (l : Layout) : Nat := l.posMtxTail + 1

/-- The largest position of a tile column (R164). -/
def Layout.pTile (l : Layout) : Nat := l.posMtxTail

/-- GRF_LAYOUT_LIVE takes a layout, and GRF_STAGES follows (R84). -/
def State.putLayout (s : State) (bits : Nat) : State :=
  let l := Layout.ofBits bits
  let s := s.setReg Reg.GRF_LAYOUT_LIVE_in_ins.off (BitVec.ofNat 32 bits)
  ((s.wr Reg.GRF_STAGES_s_direct l.sDirect).wr Reg.GRF_STAGES_s_bus l.sBus).wr Reg.GRF_STAGES_s_mtx l.sMtx

/-- Whether an insert point's column is present: a strip's placement index × 2 + stage (0 head, 1 tail) (R83). -/
def Layout.insOn (l : Layout) (k : Nat) : Bool :=
  match placeClass (k / 2), k % 2 with
  | 1, 0 => l.inIns == 1
  | 2, 0 => l.busHead == 1
  | 2, 1 => l.busTail == 1
  | 3, 0 => l.mtxHead == 1
  | 3, 1 => l.mtxTail == 1
  | _, _ => false

/-- The position of an insert point's column. -/
def Layout.insPos (l : Layout) (k : Nat) : Nat :=
  match placeClass (k / 2), k % 2 with
  | 2, 0 => l.posBusHead
  | 2, 1 => l.posBusTail
  | 3, 0 => l.posMtxHead
  | 3, 1 => l.posMtxTail
  | _, _ => 0

/-- An insert point that presents no rack. -/
def RoutePt.noRack : RoutePt := RoutePt.at 0xFFFF

/-- The insert point that a rack instance serves: the point that presents it, or one that fades from it. -/
def State.rackPoint (s : State) (r : Nat) : Option Nat :=
  match s.audio.insPt.find? (fun (e : Nat × RoutePt) => e.2.cur.src == r) with
  | some e => some e.1
  | none => (s.audio.insPt.find? (fun (e : Nat × RoutePt) => fadeRuns e.2.fade && e.2.old.src == r)).map (·.1)

/-- An object of class 0x09 is an input's: it acts in the input patch (R146). -/
def inputGain (i : Nat) : Bool :=
  decide (i < 0x10) || (decide (0x20 ≤ i) && decide (i < 0x28)) || (decide (0x100 ≤ i) && decide (i < 0x300))

/-- The position of an element of the vault (R162). -/
def State.elemPos (s : State) (e : Nat) : Nat :=
  let l := s.layout
  match pidClass e, pidNum e with
  | 1, 1 => 0
  | 1, _ => l.posStrip
  | 2, 1 => l.posBusHead
  | 2, 2 => l.posBusTail
  | 2, 4 => l.posStrip
  | 2, _ => l.posBus
  | 3, 1 => l.posMtxHead
  | 3, 2 => l.posMtxTail
  | 3, 3 => l.sMtx
  | 3, 5 => l.posMtxHead
  | 3, _ => l.posMtx
  | 5, _ => l.sMtx
  | 6, _ => l.posStrip
  | 7, _ => match s.rackPoint (pidIndex e) with
    | some k => l.insPos k
    | none => 0
  | 9, _ => if inputGain (pidIndex e) then 0 else l.sMtx
  | _, _ => 0

/-- The elements of an object. -/
def elemsOf (ob : Nat) : List Nat :=
  match pidClass ob with
  | 1 => [ob, ob + 1]
  | 2 => [ob, ob + 1, ob + 2, ob + 4]
  | 3 => [ob, ob + 1, ob + 2, ob + 3, ob + 5]
  | _ => [ob]

/-! ### Muted objects and ramps (R65, R67, R169 to R172) -/

/-- An object's group. -/
def VaultSt.groupOf (v : VaultSt) (ob : Nat) : Nat := v.group.get 0 ob

/-- Whether a mask covers an object. -/
def VaultSt.covers (v : VaultSt) (mask : BitVec 64) (ob : Nat) : Bool := mask.getLsbD (v.groupOf ob)

/-- An object of the vault cannot run: its pages are lost, or its group is unsynced and it is cold. -/
def State.obFrozen (s : State) (ob : Nat) : Bool :=
  (s.vault.loss.get none ob).isSome || s.vault.unsynced.getLsbD (s.vault.groupOf ob)

/-- The samples that an object processes are those of entry laps before a late commit (R169). -/
def State.obLate (s : State) (ob : Nat) : Bool :=
  s.vault.lateMute.any (fun l => s.vault.covers l.1 ob && decide (l.2.1 + s.elemPos ob ≤ s.lap) &&
    decide (s.lap < l.2.2 + s.elemPos ob))

/-- The ramp gain of sample j of the running lap: none where it is 1.0 (R67). -/
def rampGain (r : Option Ramp) (j : Nat) : Option A48 :=
  match r with
  | none => none
  | some r => if r.pos + j < r.len then some (BitVec.ofNat 48 ((r.pos + j + 1) * 2 ^ 39 / r.len)) else none

/-- A lap through an object's ramp. -/
def rampLap (r : Option Ramp) (xs : List A48) : List A48 :=
  match r with
  | none => xs
  | some _ => (xs.zipIdx).map (fun e => match rampGain r e.2 with
    | none => e.1
    | some g => gainA g e.1)

/-- The ramp of an object of the vault that no tile runs, at the running lap (R67): after a mute by a late baton it begins
at the object's position, as its mute ends there (R169). -/
def State.pointRamp (s : State) (ob : Nat) : Option Ramp :=
  match ((s.vault.rampIn.filter (fun x => s.vault.covers x.mask ob && x.only.all (fun l => l.contains ob)))).getLast? with
  | none => none
  | some x => some ⟨x.len, (s.lap - x.lap - (if x.late then s.elemPos ob else 0)) * s.nLap⟩

/-- What such an object puts out in a lap: zero while it is held muted, then with its ramp. -/
def State.unlessLate (s : State) (ob : Nat) (vs : List A48) : List A48 :=
  if s.obFrozen ob || s.obLate ob then s.zeroLap else rampLap (s.pointRamp ob) vs

end Sys2Proof.Machine
end

