-- ==== Sys2Proof/Machine/Ports.lean ====
section
/-! DEFINITION. The TDM and AES3 ports (R236 to R254). Instants are in CLK_T cycles since the boundary of lap 0;
a lap is 10 240 of them. -/

namespace Sys2Proof.Machine

/-! ### A port and its format (R236 to R239) -/

/-- A port. -/
def State.aport (s : State) (p : Nat) : Port := s.port.ports.get Port.reset p

/-- Stores a port. -/
def State.setAport (s : State) (p : Nat) (x : Port) : State :=
  { s with port := { s.port with ports := s.port.ports.insert p x } }

/-- APT_PSTATp.state. -/
def State.pst (s : State) (p : Nat) : Nat := s.rd (Reg.APT_PSTAT_state p)

/-- Writes APT_PSTATp.state. -/
def State.setPst (s : State) (p v : Nat) : State := s.wr (Reg.APT_PSTAT_state p) v

/-- A field of APT_FMTp as it stands at an enable. -/
def fmtField (w : Word) (lo width : Nat) : Nat := bitsOf w.toNat lo width

/-- Slots of a TDM format. -/
def fmtSlots (w : Word) : Nat := 2 ^ (fmtField w 2 3 + 1)

/-- Bits of a slot, 16, 24 or 32. -/
def fmtSlotW (w : Word) : Nat := 16 + 8 * fmtField w 5 2

/-- Bits of a word: 16, 20, 24 or 32. -/
def fmtWordW (w : Word) : Nat :=
  match fmtField w 8 2 with
  | 0 => 16
  | 1 => 20
  | 2 => 24
  | _ => 32

/-- The clock source: 0 own master, 1 own slave, 2 to 5 a group. -/
def fmtClk (w : Word) : Nat := fmtField w 16 3

/-- Bits of a frame, B. -/
def fmtBits' (w : Word) : Nat := fmtSlots w * fmtSlotW w

/-- The format register of a port. -/
def State.fmtReg (s : State) (p : Nat) : Word := s.reg (0x8100 + 0x20 * p)

/-- The port runs on its own master clocks or on those of a group in master mode (R239). -/
def State.portMaster (s : State) (p : Nat) (fmt : Word) : Bool :=
  if p < 16 then fmtClk fmt == 0 || (decide (2 ≤ fmtClk fmt) && s.rd (Reg.APT_CG_mode (fmtClk fmt - 2)) == 1)
  else decide (24 ≤ p)

/-- The port has clocks of its own that a stop clocks command stops (R246). -/
def ownMaster (p : Nat) (fmt : Word) : Bool := if p < 16 then fmtClk fmt == 0 else decide (24 ≤ p)

/-- The first check that fails at an enable: format 2, bit clock limit 1, group 3, none 0 (R237 to R239). -/
def State.portCheck (s : State) (p : Nat) : Nat :=
  let f := s.fmtReg p
  if 16 ≤ p then 0
  else if fmtSlotW f < fmtWordW f ∨ (fmtField f 0 2 ≠ 2 ∧ fmtSlots f ≠ 2) then 2
  else if 1024 / 2 ^ s.syn.mult < fmtBits' f then 1
  else if 2 ≤ fmtClk f ∧ (List.range 16).any (fun q => q != p && s.pst q != 0 &&
      fmtClk (s.aport q).fmt == fmtClk f && fmtBits' (s.aport q).fmt != fmtBits' f) then 3
  else 0

/-- A sample period in CLK_T cycles. -/
def State.ts (s : State) : Nat := 10240 / s.nLap

/-- d_in of a port (R91). -/
def portDin (p : Nat) : Nat := if p < 16 then 1 else 2

/-- The input side is used. -/
def State.inUsed (s : State) (p : Nat) : Bool :=
  if p < 16 then s.on (Reg.APT_CTL_in_en p) else decide (p < 24)

/-- The output side is used. -/
def State.outUsed (s : State) (p : Nat) : Bool :=
  if p < 16 then s.on (Reg.APT_CTL_out_en p) else decide (24 ≤ p)

/-- Channels of a port's frames that carry audio. -/
def State.portChans (s : State) (p : Nat) : Nat := if p < 16 then fmtSlots (s.aport p).fmt else 2

/-- Bits of a port's words. -/
def State.portWord (s : State) (p : Nat) : Nat := fmtWordW (s.aport p).fmt

/-! ### FIFOs (R252) -/

/-- Channels per FIFO frame, k. -/
def fifoK (p : Nat) : Nat := if p < 16 then 32 else 2

/-- The base of a FIFO, in words of 4 bytes. -/
def fifoBase (out : Bool) (p : Nat) : Nat :=
  if p < 16 then (if out then 0x8000 else 0) + 0x800 * p
  else if p < 24 then 0x10000 + 0x80 * (p - 16) else 0x10400 + 0x80 * (p - 24)

/-- The word of a frame and channel. -/
def fifoAt (out : Bool) (p : Nat) (m : Int) (c : Nat) : Nat := fifoBase out p + (m % 64).toNat * fifoK p + c

/-- The FIFO holds the frame of a count. -/
def State.fifoHas (s : State) (out : Bool) (p : Nat) (m : Int) : Bool :=
  decide (0 ≤ m) && s.port.frames.get 0 (fifoBase out p + (m % 64).toNat) == m.toNat + 1

/-- Notes that the FIFO holds the frame of a count. -/
def State.fifoMark (s : State) (out : Bool) (p : Nat) (m : Int) : State :=
  if m < 0 then s
  else { s with port := { s.port with
    frames := s.port.frames.insert (fifoBase out p + (m % 64).toNat) (m.toNat + 1) } }

/-- A word of a FIFO. -/
def State.fifoGet (s : State) (out : Bool) (p : Nat) (m : Int) (c : Nat) : Word :=
  s.port.fifo.get 0 (fifoAt out p m c)

/-- Writes a word of a FIFO. -/
def State.fifoPut (s : State) (out : Bool) (p : Nat) (m : Int) (c : Nat) (v : Word) : State :=
  { s with port := { s.port with fifo := s.port.fifo.put 0 (fifoAt out p m c) v } }

/-- Left-justifies an n-bit word in 32 bits. -/
def leftJust (n : Nat) (v : Word) : Word := v <<< (32 - n)

/-! ### Frame timing (R240 to R244) -/

/-- The distance of a frame start from the nominal instant of a count, in CLK_T cycles: φ × T_s (R240). -/
def State.phaseOf (s : State) (out : Bool) (p : Nat) (m time : Int) : Int :=
  if out then time - (m + 1) * s.ts else (m - portDin p) * s.ts - time

/-- The count that puts φ in [0.25, 1.25) (R240). -/
def State.acquireCount (s : State) (out : Bool) (p : Nat) (time : Int) : Int :=
  let ts : Int := s.ts
  if out then (time - ts / 4) / ts - 1 else portDin p - (-time - ts / 4) / ts

/-- The count of a frame of a master side, which starts at its nominal instant. -/
def State.masterCount (s : State) (out : Bool) (p : Nat) (time : Int) : Int :=
  if out then time / s.ts - 1 else time / s.ts + portDin p

/-- A side of a port. -/
def Port.side (x : Port) (out : Bool) : Side := if out then x.out else x.inp

/-- Stores a side of a port. -/
def Port.setSide (x : Port) (out : Bool) (d : Side) : Port := if out then { x with out := d } else { x with inp := d }

/-- The tolerance on one frame period: 1/16, 1/8 or 1/4 of it. -/
def State.glitchTol (s : State) : Nat := s.ts / 2 ^ (4 - s.rd Reg.APT_GCFG_glitch_tol)

/-- The tolerance on the mean frame period, in ppm. -/
def State.tolPpm (s : State) : Nat :=
  match s.rd Reg.APT_GCFG_tol_ppm with
  | 0 => 100
  | 1 => 500
  | 2 => 1000
  | _ => 5000

/-- The mean frame period from first-frame stamps lies within tolerance: the time between the newest and the oldest against
the frames between them; true while there are fewer than two. -/
def State.rateOk (s : State) (stamps : List (Int × Nat)) : Bool :=
  match stamps with
  | [] => true
  | t :: r =>
    let o := r.getLastD t
    let span := (((t.2 : Int) - o.2)) * s.ts
    decide (((t.1 - o.1 - span).natAbs : Int) * 1000000 ≤ s.tolPpm * span)

/-- A frame assigned the count m is its side's first of a lap: the lap's first count, or the first that is kept where a glitch
took that one (R242, R247). -/
def State.lapFirst (s : State) (d : Side) (m : Int) : Bool :=
  d.seen != some (m / s.nLap) && (m % s.nLap == 0 || d.seen.isSome)

/-- Assigns a frame start of a side to a count (R240, R242, R243). A slave side chooses its count at every frame until
its data is enabled, and from then on advances it by one per frame. Answers the port, the count the frame is kept for
(none: the frame is discarded by a slip), and whether the side slipped. -/
def State.assign (s : State) (p : Nat) (out : Bool) (time : Int) : State × Option Int :=
  let x := s.aport p
  let d := x.side out
  let master := s.portMaster p x.fmt
  let m := if master then s.masterCount out p time
    else if d.data then d.count.getD (s.acquireCount out p time) else s.acquireCount out p time
  let phi := if master then 0 else s.phaseOf out p m time
  let first := s.lapFirst d m
  let mayslip := first && !master && d.data && decide ((d.since : Int) ≤ m / s.nLap)
  let high := mayslip && decide (3 * (s.ts : Int) ≤ 2 * phi)
  let low := mayslip && decide (phi < 0)
  -- the count this frame takes, and the phase after the slip
  let m' := if out then (if high then m + 1 else if low then m - 1 else m) else if low then m + 1 else m
  let phi' := if high then phi - s.ts else if low then phi + s.ts else phi
  let kept := !(high && !out)
  let next := if kept then m' + 1 else m
  let d := { d with
    count := some next
    frames := d.frames + 1
    seen := if first then some (m / s.nLap) else d.seen
    stamps := if first then ((time, d.frames) :: d.stamps).take 16 else d.stamps }
  let s := s.setAport p (x.setSide out d)
  let s := if first then s.wr (if out then Reg.APT_PHASE_ph_out p else Reg.APT_PHASE_ph_in p)
      (phi' * 32768 / s.ts).toNat else s
  let s := if high || low then (s.bump (Reg.APT_SLIP_count p) 1).setEvent Reg.APT_EVENT_ev 3 else s
  (s, if kept then some m' else none)

/-- A frame start of a slave side differs too much from the last one (R244). -/
def State.isGlitch (s : State) (p : Nat) (out : Bool) (time : Int) : Bool :=
  match ((s.aport p).side out).last with
  | none => false
  | some l => !s.portMaster p (s.aport p).fmt && decide ((s.glitchTol : Int) < ((time - l - s.ts).natAbs : Int))

/-- A frame start arrives at a side: a glitch is counted and its frame discarded, which leaves its count without a frame; any
other is assigned. -/
def State.frameStart (s : State) (p : Nat) (out : Bool) (time : Int) : State × Option Int :=
  let bad := s.isGlitch p out time
  let x := s.aport p
  let d := { x.side out with last := some time }
  if bad then
    let d := { d with frames := d.frames + 1, count := if d.data then d.count.map (· + 1) else d.count }
    let s := s.setAport p (x.setSide out d)
    ((s.bump (Reg.APT_GLITCH_count p) 1).setEvent Reg.APT_EVENT_ev 1, none)
  else (s.setAport p (x.setSide out d)).assign p out time

/-- The port follows its clock: it is neither off nor lost nor disqualified. -/
def State.portFollows (s : State) (p : Nat) : Bool := s.pst p != 0 && decide (s.pst p < 6)

/-- Writes a frame's words into an input FIFO, the channels beyond the frame's as 0. -/
def State.fifoFrame (s : State) (p : Nat) (m : Int) : List Word → Nat → Nat → State
  | _, _, 0 => s.fifoMark false p m
  | ws, c, n + 1 => (s.fifoPut false p m c (ws.headD 0)).fifoFrame p m ws.tail (c + 1) n

/-- An SCK edge opens a frame (R237): it is the edge on which the format samples, and FS opens the frame there. -/
def opensFrame (fmt : Word) (e : FsEdge) : Bool :=
  let inv := fmtField fmt 12 1 == 1
  let before := e.before != inv
  let now := e.now != inv
  e.rising != (fmtField fmt 13 1 == 1) && (if fmtField fmt 0 2 = 0 then before && !now else !before && now)

/-- SCK periods from the frame start to the first data bit of slot 0 (R237). -/
def fmtDelay (fmt : Word) : Nat :=
  if fmtField fmt 0 2 = 0 then 1 else if fmtField fmt 0 2 = 2 then fmtField fmt 11 1 else 0

/-- The word of a slot: the first word_w bits of the slot, most significant first (R237). -/
def slotWord (fmt : Word) (bits : List Bool) (c : Nat) : Word :=
  BitVec.ofNat 32 ((List.range (fmtWordW fmt)).foldl (fun a i =>
    2 * a + b2n (bits.getD (fmtDelay fmt + c * fmtSlotW fmt + i) false)) 0)

/-- TDM_FRAME_IN (R237, R240, R252): an SCK edge, and the levels of the data line at the sampling edges from it on. -/
def tdmFrameIn (p : Nat) (time : Int) (edge : FsEdge) (bits : List Bool) (s : State) : State :=
  let fmt := (s.aport p).fmt
  if !s.portFollows p || !s.inUsed p || !opensFrame fmt edge then s
  else
    let r := s.frameStart p false time
    let s := r.1
    match r.2 with
    | none => s
    | some m => s.fifoFrame p m ((List.range (s.portChans p)).map (fun c => leftJust (s.portWord p) (slotWord fmt bits c))) 0 32

/-- The count an output frame carries: of a slave side as assigned, of a master side at its nominal instant. -/
def State.outStart (s : State) (p : Nat) (time : Int) : State × Option Int :=
  if s.portMaster p (s.aport p).fmt then
    if (s.aport p).clocks && !s.on Reg.SYN_STATUS_gated && time % s.ts == 0 then s.assign p true time else (s, none)
  else s.frameStart p true time

/-- The words of an output frame: zero where no data is enabled or none was stored. -/
def State.outWords (s : State) (p : Nat) (m : Int) : List Word :=
  (List.range (s.portChans p)).map (fun c =>
    if s.fifoHas true p m then s.fifoGet true p m c >>> (32 - s.portWord p) else 0)

/-- The bits of a frame's slots, the words most significant bit first and zeros after them (R237). -/
def frameBits (fmt : Word) (words : List Word) : List Bool :=
  words.flatMap (fun w => (List.range (fmtSlotW fmt)).map (fun i =>
    decide (i < fmtWordW fmt) && w.getLsbD (fmtWordW fmt - 1 - i)))

/-- The levels of FS in the SCK periods of a frame (R237). -/
def fsLevels (fmt : Word) : List Bool :=
  let slot := fmtSlotW fmt
  (List.range (fmtBits' fmt)).map (fun i =>
    (if fmtField fmt 0 2 = 0 then decide (slot ≤ i)
      else if fmtField fmt 0 2 = 1 then decide (i < slot)
      else decide (i < if fmtField fmt 10 1 = 1 then slot else 1)) != (fmtField fmt 12 1 == 1))

/-- A port drives SCK and FS on its pins: a master, a member of a group in master mode, and a member of a group in slave mode
that does not lead it (R239). -/
def State.drivesFs (s : State) (p : Nat) (fmt : Word) : Bool :=
  s.portMaster p fmt || (decide (2 ≤ fmtClk fmt) && s.rd (Reg.APT_CG_mode (fmtClk fmt - 2)) == 2 &&
    s.rd (Reg.APT_CG_leader (fmtClk fmt - 2)) != p)

/-- What a port drives in a frame of a count (R237). -/
def State.tdmWire (s : State) (p : Nat) (m : Int) : TdmWire :=
  let x := s.aport p
  let bits := frameBits x.fmt (s.outWords p m)
  ⟨if fmtDelay x.fmt = 1 then x.carry :: bits.dropLast else bits,
    if s.drivesFs p x.fmt then some (fsLevels x.fmt) else none, fmtField x.fmt 13 1 == 0⟩

/-- TDM_FRAME_OUT (R240): a lost or disqualified side sends no frame. -/
def tdmFrameOut (p : Nat) (time : Int) (s : State) : State :=
  if !s.portFollows p || !s.outUsed p then s
  else
    let r := s.outStart p time
    match r.2 with
    | none => r.1
    | some m =>
      let s := r.1
      let x := s.aport p
      (s.emit (.tdm p m (s.tdmWire p m))).setAport p { x with carry := (frameBits x.fmt (s.outWords p m)).getLastD false }

/-! ### Acquisition, stop and loss (R244 to R247) -/

/-- A port begins acquisition: laps are counted from the next lap boundary, before processing start from lap 0. -/
def State.acquire (s : State) (p : Nat) : State :=
  let x := s.aport p
  let x := { x with
    blocks := 0, okLaps := 0, armed := !s.run, heldStart := false, heldStop := false, resume := false
    clocks := s.portMaster p x.fmt
    carry := false
    inp := { Side.reset with last := x.inp.last }
    out := { Side.reset with last := x.out.last } }
  (s.setAport p x).setPst p 1

/-- An enable is refused (R254). -/
def State.portRefuse (s : State) (p reason : Nat) : State :=
  (s.wr (Reg.APT_PSTAT_reason p) reason).setEvent Reg.APT_EVENT_ev 8

/-- PORT_START (R245, R247): ignored in service, held behind a stop fade, whose clock stop it withdraws, else checked and
begun. -/
def portStart (p : Nat) (s : State) : State :=
  let st := s.pst p
  if 1 ≤ st ∧ st ≤ 3 then s
  else if st = 4 then s.setAport p { s.aport p with heldStart := true, heldStop := false }
  else
    let r := s.portCheck p
    if r = 0 then (s.setAport p { s.aport p with fmt := s.fmtReg p }).acquire p else s.portRefuse p r

/-- A port's data is disabled. -/
def Port.noData (x : Port) : Port :=
  { x with inp := { x.inp with data := false }, out := { x.out with data := false } }

/-- A running port's stop fade begins at sample 0 of the next lap; an acquisition ends at once (R246, R247). -/
def State.stopPort (s : State) (p : Nat) (clocks resume : Bool) : State :=
  let st := s.pst p
  let x := s.aport p
  if st = 3 then
    (s.setAport p { x with stopAt := s.lap + 2, heldStop := clocks, resume := resume, heldStart := false }).setPst p 4
  else if st = 4 then
    s.setAport p { x with heldStart := false, heldStop := x.heldStop || clocks }
  else if st = 1 ∨ st = 2 then
    (s.setAport p { x.noData with chans := [], heldStop := clocks, resume := resume }).setPst p 5
  else if st = 5 then s.setAport p { x with heldStop := x.heldStop || clocks }
  else if st = 6 ∨ st = 7 then
    if resume then s else (s.setAport p { x.noData with chans := [] }).setPst p (if ownMaster p x.fmt then 5 else 0)
  else s

/-- PORT_STOP_CLOCKS (R246): on a port whose clocks are not its own master clocks it acts as a stop. -/
def portStopClocks (p : Nat) (s : State) : State := s.stopPort p (ownMaster p (s.aport p).fmt) false

/-- A port ends stopped after its fade: a held clock stop, or a held start, which is an enable with the starting blocks
met (R237 to R239, R246, R247). -/
def stopFadeEnd (p : Nat) (s : State) : State :=
  let x := s.aport p
  if s.pst p = 4 ∧ x.stopAt + s.fLap ≤ s.lap + 1 then
    let x := x.noData
    if x.heldStop then (s.setAport p { x with heldStop := false, clocks := false }).setPst p 0
    else if x.heldStart then
      let r := s.portCheck p
      if r ≠ 0 then ((s.setAport p { x with heldStart := false }).setPst p 5).portRefuse p r
      else
        let s := (s.setAport p { x with fmt := s.fmtReg p }).acquire p
        s.setAport p { s.aport p with blocks := 255, okLaps := 255, armed := true }
    else (s.setAport p x).setPst p 5
  else s

/-- PORT_ACQUIRE (R245, R247): ignored where the port is not disqualified. -/
def portAcquire (p : Nat) (s : State) : State := if s.pst p = 7 then s.acquire p else s

/-- The ports that a port's clock drives: itself, and the members of every group in slave mode it leads. -/
def State.clockOf (s : State) (p : Nat) : List Nat :=
  if p < 16 then
    p :: (List.range 16).filter (fun q => q != p && (List.range 4).any (fun g =>
      s.rd (Reg.APT_CG_mode g) == 2 && s.rd (Reg.APT_CG_leader g) == p &&
        fmtClk (s.aport p).fmt == g + 2 && fmtClk (s.aport q).fmt == g + 2))
  else [p]

/-- A port is lost (6) or disqualified (7): its sides fade and take no data (R244). -/
def State.losePort (s : State) (st p : Nat) : State :=
  let x := s.aport p
  let fade := x.chans.map (fun e => if e.1 < 32 then (e.1, e.2.stop) else (e.1, ChanGate.closed))
  let s := (s.setAport p { x.noData with chans := fade, heldStart := false, heldStop := false }).setPst p st
  if 16 ≤ p ∧ p < 24 then s.wr (Reg.APT_PSTAT_zsync p) 0 else s

/-- A port's clock has stopped: once its data was enabled, and until it is off, the port is lost; in acquisition its laps count
anew (R244, R247). -/
def State.clockLost (s : State) (p : Nat) : State :=
  if s.portMaster p (s.aport p).fmt then s
  else if 2 ≤ s.pst p ∧ s.pst p ≤ 5 then (s.losePort 6 p).setEvent Reg.APT_EVENT_ev 0
  else if s.pst p = 1 then s.setAport p { s.aport p with okLaps := 0, blocks := 0, armed := false }
  else s

/-- PORT_CLOCK_STOP (R244): the condition of a leader port acts on every member of its group (R239). -/
def portClockStop (p : Nat) (s : State) : State := (s.clockOf p).foldl State.clockLost s

/-- PORT_CLOCK_RETURN (R245): with auto_acq the port acquires by itself. -/
def portClockReturn (p : Nat) (s : State) : State :=
  if (s.pst p = 6 ∨ s.pst p = 7) ∧ s.on (Reg.APT_CTL_auto_acq p) then s.acquire p else s

/-- The starting blocks are met (R245). -/
def State.blocksMet (s : State) (p : Nat) : Bool :=
  let x := s.aport p
  decide (s.rd Reg.APT_GCFG_start_laps ≤ x.blocks) &&
    (s.portMaster p x.fmt || decide (s.rd Reg.APT_GCFG_start_laps ≤ x.okLaps))

/-- A side in which data is enabled in the running lap. -/
def Side.enable (d : Side) (lap : Nat) (used : Bool) : Side :=
  if used then { d with stamps := [], data := true, since := lap + 1 } else { d with data := false }

/-- PORT_DATA_ENABLE (R245): in state RUN, not in QUIET nor in its transitions (R412, R415), and not during a rate change
(R332). -/
def portDataEnable (p : Nat) (s : State) : State :=
  if s.pst p = 1 ∧ s.run ∧ s.pstate = 2 ∧ s.syn.change.isNone ∧ s.blocksMet p then
    let x := s.aport p
    ((s.setAport p { x with
      inp := x.inp.enable s.lap (s.inUsed p)
      out := x.out.enable s.lap (s.outUsed p)
      chans := [] }).setPst p 2).setEvent Reg.APT_EVENT_ev 4
  else s

/-- UNMUTE_TIMEOUT (R245): channel `ch` of the input side, or `ch` - 32 of the output side, has searched through
search sample T without a crossing. -/
def unmuteTimeout (p ch : Nat) (sample : A48) (s : State) : State :=
  let x := s.aport p
  match x.chans.get .closed ch with
  | .search c =>
    if s.msSamples (s.rd Reg.APT_GCFG_unmute_to) ≤ c ∧ sample ≠ 0 ∧ sgn sample = sgn (x.prev.get 0 ch) then
      s.setAport p { x with chans := x.chans.insert ch (.fadeIn 0) }
    else s
  | _ => s

/-- A port's clock has another rate: in service it is disqualified (R244). -/
def State.clockOff (s : State) (p : Nat) : State :=
  if (s.pst p = 2 ∨ s.pst p = 3) ∧ !s.portMaster p (s.aport p).fmt then (s.losePort 7 p).setEvent Reg.APT_EVENT_ev 2 else s

/-- The port's part of a lap boundary (R244 to R246): starting blocks are counted, a slave's clock is judged, for
its port and those that it drives (R239), and a clock stop of a port whose data is stopped takes effect. -/
def State.portLap (s : State) (p : Nat) : State :=
  let x := s.aport p
  let st := s.pst p
  if st = 0 then s
  else if st = 1 then
    let now : Int := (s.lap : Int) * 10240
    let d := if s.inUsed p then x.inp else x.out
    let present := match d.last with
      | none => false
      | some l => decide (now - l ≤ 2 * s.ts)
    let ok := present && s.rateOk d.stamps && !d.stamps.isEmpty
    s.setAport p { x with
      armed := true
      blocks := if x.armed then min 255 (x.blocks + 1) else 0
      okLaps := if x.armed && ok then min 255 (x.okLaps + 1) else 0 }
  else if (st = 2 ∨ st = 3) ∧ !s.portMaster p x.fmt &&
      ((x.inp.stamps.length == 16 && !s.rateOk x.inp.stamps) ||
       (x.out.stamps.length == 16 && !s.rateOk x.out.stamps)) then
    (s.clockOf p).foldl State.clockOff s
  else if st = 5 ∧ x.heldStop then (s.setAport p { x with heldStop := false, clocks := false }).setPst p 0
  else s

/-- The boundary of the first lap: the clocks of the ports whose clock stop waits for it stop (R246). -/
def State.stopHeldClocks (s : State) : State :=
  (List.range 32).foldl (fun s p =>
    if s.pst p = 5 ∧ (s.aport p).heldStop then
      (s.setAport p { s.aport p with heldStop := false, clocks := false }).setPst p 0
    else s) s

/-- Every port stops its data with a fade, its clocks running (R246: QUIET, family change). -/
def State.stopPorts (s : State) : State := (List.range 32).foldl (fun s p => s.stopPort p false true) s

/-- Every port that `stopPorts` stopped resumes: its starting blocks are met (R246). -/
def State.resumePorts (s : State) : State :=
  (List.range 32).foldl (fun s p =>
    if s.pst p = 5 ∧ (s.aport p).resume then
      let s := s.acquire p
      s.setAport p { s.aport p with blocks := 255, okLaps := 255, armed := true }
    else s) s

/-- Every port whose clocks a rate change or a gated root stopped acquires anew (R246, R328, R332). -/
def State.reacquirePorts (s : State) : State :=
  (List.range 32).foldl (fun s p =>
    if ((s.pst p = 5 ∨ s.pst p = 4) ∧ (s.aport p).resume) ∨ s.pst p = 6 ∨ (1 ≤ s.pst p ∧ s.pst p ≤ 3) then
      s.acquire p else s) s

/-! ### Samples of a lap (R43, R44, R245, R252, R253) -/

/-- The gain smoother of an object of class 0x09 over the running lap: its gains and the state after it (R253). -/
def State.portGain (s : State) (idx : Nat) : List A48 × State :=
  let r := s.smooth (s.port.gain.get Smoother.cold idx) (pid 9 idx 0) (pid 9 idx 0)
  (r.1, { s with port := { s.port with gain := s.port.gain.insert idx r.2 } })

/-- Gains applied sample by sample. -/
def applyGains (gs xs : List A48) : List A48 := (xs.zip gs).map (fun e => gainA e.2 e.1)

/-- What an object of class 0x09 puts out (R253): the gains applied, zero while the object is held muted, its ramp after
that (R67, R169, R170, R172). -/
def State.portOut (s : State) (idx : Nat) (gs xs : List A48) : List A48 := s.unlessLate (pid 9 idx 0) (applyGains gs xs)

/-- The index of a port side's gain object (R253). -/
def gainIndex (out : Bool) (p : Nat) : Nat := if p < 16 then (if out then 0x10 + p else p) else if p < 24 then 0x20 + (p - 16) else 0x28 + (p - 24)

/-- The gate of a channel at the start of a lap's samples: it searches with the first samples of a side whose data was
enabled, of an input side those of that lap and of an output side those that the lap after it plays, and it fades in the
lap in which a stop fade begins. -/
def Port.gateAt (x : Port) (out : Bool) (c lap : Nat) : ChanGate :=
  let g := x.chans.get .closed ((if out then 32 else 0) + c)
  if (x.side out).since = (if out then lap else lap + 1) then .search 0 else if x.stopAt = lap + 1 then g.stop else g

/-- One input channel's samples of a capture lap before the port-level gain: a count without a frame takes the
last received sample, and fades only where there is no frame once the port is lost. -/
def State.captureChan (s : State) (p c T : Nat) (lost : Bool) : List Int → ChanGate → A48 → List A48 × ChanGate × A48
  | [], g, prev => ([], g, prev)
  | m :: ms, g, prev =>
    let has := s.fifoHas false p m
    let x := if has then pcmIn 32 (s.fifoGet false p m c).toNat else prev
    let y := if has && lost then (x, g) else gateStep T g prev x
    let r := s.captureChan p c T lost ms y.2 x
    (y.1 :: r.1, r.2)

/-- The media sample counts of a lap (R18). -/
def State.countsOf (s : State) (lap : Int) : List Int :=
  (List.range s.nLap).map (fun (j : Nat) => lap * s.nLap + j)

/-- The samples of one input channel in a capture lap, and the state after them. -/
def State.captureOne (s : State) (p c lap : Nat) (gs : List A48) : List A48 × State :=
  let x := s.aport p
  let T := s.msSamples (s.rd Reg.APT_GCFG_unmute_to)
  let lost := decide (6 ≤ s.pst p)
  let r := s.captureChan p c T lost (s.countsOf lap) (x.gateAt false c lap) (x.prev.get 0 c)
  (s.portOut (gainIndex false p) gs r.1,
    s.setAport p { x with chans := x.chans.insert c r.2.1, prev := x.prev.insert c r.2.2 })

/-- A port that unmutes runs when every channel passes its data. -/
def State.settlePort (s : State) (p : Nat) : State :=
  if s.pst p = 2 ∧ !(s.aport p).chans.isEmpty ∧ (s.aport p).chans.all (fun e => e.2.isOpen) then s.setPst p 3 else s

/-- A port carries anything in this lap: it is in service, or its channels have not faded out yet. -/
def State.portCarries (s : State) (p : Nat) (out : Bool) : Bool :=
  (if out then s.outUsed p else s.inUsed p) && s.pst p != 0 &&
    (((s.aport p).side out).data || (s.aport p).chans.any (fun e => e.2 != .closed))

/-- The source code of a port's input channel (R72). -/
def portSource (p c : Nat) : Nat := if p < 16 then 0x2000 + 32 * p + c else 0x3000 + 2 * (p - 16) + c

/-- The samples of every input channel of the ports for a capture lap, by source code. -/
def State.capturePorts (s : State) (lap : Nat) : Tbl (List A48) × State :=
  (List.range 24).foldl (fun (a : Tbl (List A48) × State) p =>
    if a.2.portCarries p false then
      let g := a.2.portGain (gainIndex false p)
      let r := (List.range (g.2.portChans p)).foldl (fun (b : Tbl (List A48) × State) c =>
        let y := b.2.captureOne p c lap g.1
        (b.1.insert (portSource p c) y.1, y.2)) (a.1, g.2)
      (r.1, r.2.settlePort p)
    else a) ([], s)

/-- Writes one output channel's samples of a transport lap into its FIFO, for the counts of the next lap. -/
def State.deliverChan (s : State) (p c : Nat) : List Int → List A48 → State
  | m :: ms, v :: vs =>
    let n := s.portWord p
    ((s.fifoPut true p m c (leftJust n ((pcmOut n v).setWidth 32))).deliverChan p c ms vs)
  | _, _ => s

/-- One output channel of a transport lap: gain, conversion, FIFO (R253, R44). -/
def State.deliverOne (s : State) (p c : Nat) (gs vs : List A48) : State :=
  let xs := s.portOut (gainIndex true p) gs vs
  ({ s with port := { s.port with outNext := s.port.outNext.insert (32 * p + c) xs } }).deliverChan
    p c (s.countsOf (s.lap + 1)) xs

/-- The gate of one output channel over the samples that the lap plays (R245, R246): samples that it changes replace
those in the FIFO. -/
def State.gateOut (s : State) (p c : Nat) (xs : List A48) : State :=
  let x := s.aport p
  let T := s.msSamples (s.rd Reg.APT_GCFG_unmute_to)
  let r := gateRun T (x.gateAt true c s.lap) (x.prev.get 0 (32 + c)) xs
  let s := s.setAport p { x with chans := x.chans.insert (32 + c) r.2.1, prev := x.prev.insert (32 + c) r.2.2 }
  if r.1 = xs then s else s.deliverChan p c (s.countsOf s.lap) r.1

/-- The sink key of a port's output channel: kind × 4096 + index (R73). -/
def portSink (p c : Nat) : Nat := if p < 16 then 0x2000 + 32 * p + c else 0x3000 + 2 * (p - 24) + c

/-- Every output port takes its channels' values of a transport lap; `val` gives a sink's values. -/
def State.deliverPorts (s : State) (val : Nat → List A48) : State :=
  (List.range 32).foldl (fun s p =>
    if s.portCarries p true then
      let g := s.portGain (gainIndex true p)
      let s := (List.range (s.portChans p)).foldl (fun s c => s.deliverOne p c g.1 (val (portSink p c))) g.2
      (s.countsOf (s.lap + 1)).foldl (fun s m => s.fifoMark true p m) s
    else s) s

/-- The gates of every output side at the boundary of the lap that plays the samples. -/
def State.gateOuts (s : State) : State :=
  let l := s.port.outNext
  let s := l.foldl (fun (s : State) e => s.gateOut (e.1 / 32) (e.1 % 32) e.2) { s with port := { s.port with outNext := [] } }
  ((l.map (fun e => e.1 / 32)).eraseDups).foldl State.settlePort s

/-- A TDM or AES3 input is failed in the lap (R248). -/
def State.portFailed (s : State) (p : Nat) : Bool := !((s.pst p == 2 || s.pst p == 3) && s.inUsed p)

/-! ### AES3 (R249 to R251) -/

/-- The bits of bytes in transmission order. -/
def bitsLsb (bs : List Byte) : List Bool := bs.flatMap (fun b => (List.range 8).map (fun i => b.getLsbD i))

/-- Bytes from bits, the first bit of a byte in its bit 0. -/
def bytesOf (bits : List Bool) (n : Nat) : List Byte :=
  (List.range n).map (fun k => BitVec.ofNat 8
    ((List.range 8).foldl (fun a i => a + b2n (bits.getD (8 * k + i) false) * 2 ^ i) 0))

/-- The CRCC of 23 bytes: x⁸ + x⁴ + x³ + x² + 1 from 0xFF in transmission order, its highest coefficient first
(DEDUCED, log 30). -/
def crcc (bs : List Byte) : Byte :=
  (bitsLsb bs).foldl (fun (r : Byte) b => if r.getLsbD 0 ^^ b then (r >>> 1) ^^^ 0xB8#8 else r >>> 1) 0xFF#8

/-- The state of a receiver's channel status. -/
def State.csOf (s : State) (r ch : Nat) : CsBlock := s.port.cs.get CsBlock.reset (2 * r + ch)

/-- Stores it. -/
def State.setCs (s : State) (r ch : Nat) (b : CsBlock) : State :=
  { s with port := { s.port with cs := s.port.cs.insert (2 * r + ch) b } }

/-- A Z preamble begins a block in both channels (R250). -/
def State.zPreamble (s : State) (r : Nat) : State :=
  let early := match (s.csOf r 0).bits with
    | none => false
    | some l => l.length != 192
  let s := s.setEventIf early Reg.APT_EVENT_ev 6
  let s := (s.setCs r 0 { s.csOf r 0 with bits := some [], user := [] })
  (s.setCs r 1 { s.csOf r 1 with bits := some [], user := [] }).wr (Reg.APT_PSTAT_zsync (16 + r)) 1

/-- A channel status block completes (R250). -/
def State.csComplete (s : State) (r ch : Nat) (b : CsBlock) : State :=
  let bytes := bytesOf (b.bits.getD []) 24
  if (bytes.headD 0).getLsbD 0 && crcc (bytes.take 23) != bytes.getD 23 0 then
    (s.bump (Reg.APT_AESERR_crc r) 1).setEvent Reg.APT_EVENT_ev 5
  else
    (s.setCs r ch { b with latched := bytes, latchedUser := bytesOf b.user 24 }).wr
      (Reg.APT_PSTAT_cs_valid (16 + r)) 1

/-- One status and user bit of a channel. -/
def State.csBit (s : State) (r ch : Nat) (c u : Bool) : State :=
  let b := s.csOf r ch
  match b.bits with
  | none => s
  | some l =>
    if 192 < l.length then s
    else
      let b := { b with bits := some (l ++ [c]), user := b.user ++ [u] }
      let s := s.setCs r ch b
      if l.length = 191 then s.csComplete r ch b else s

/-- The channel status byte a transmitter sends (R251). -/
def State.csByte (x : Port) (ch k : Nat) : Byte :=
  if k = 23 ∧ fmtField x.fmt 22 1 = 1 then crcc ((List.range 23).map (fun i => x.csUse.get 0 (24 * ch + i)))
  else x.csUse.get 0 (24 * ch + k)

/-- One subframe of a transmitter. -/
def State.txSub (s : State) (r : Nat) (m : Int) (ch : Nat) : SubFrame :=
  let p := 24 + r
  let x := s.aport p
  let k := (m % 192).toNat
  let w : Word := if s.fifoHas true p m then s.fifoGet true p m ch else 0
  let v := match fmtField x.fmt 20 2 with
    | 0 => false
    | 1 => true
    | _ => s.port.vflag.get true ((2 * r + ch) * 64 + (m % 64).toNat)
  ⟨ch == 0 && k == 0, (w >>> 8).setWidth 24, v, false, (State.csByte x ch (k / 8)).getLsbD (k % 8), true⟩

/-- AES3_FRAME_OUT (R251). -/
def aes3FrameOut (r : Nat) (time : Int) (s : State) : State :=
  let p := 24 + r
  if !s.portFollows p then s
  else
    let a := s.outStart p time
    match a.2 with
    | none => a.1
    | some m =>
      let s := a.1
      let x := s.aport p
      let s := if m % 192 = 0 ∧ x.csLoad then s.setAport p { x with csUse := x.csStage, csLoad := false } else s
      s.emit (.aes3 r m (s.txSub r m 0) (s.txSub r m 1))

/-- CS_LOAD (R251): transmitters only. -/
def csLoad (p : Nat) (s : State) : State :=
  if 24 ≤ p then s.setAport p { s.aport p with csLoad := true } else s

/-- The byte index of APT_CS_ADDR after an access. -/
def nextByte (b : Nat) : Nat := if b = 23 then 0 else b + 1

/-- An access to APT_CS_DATA (R254). -/
def aptCsData (write : Bool) (val : Byte) (s : State) : State :=
  let p := s.rd Reg.APT_CS_ADDR_port
  let b := s.rd Reg.APT_CS_ADDR_byte
  let ch := s.rd Reg.APT_CS_ADDR_chan
  let x := s.aport p
  let s := s.wr Reg.APT_CS_ADDR_byte (nextByte b)
  if p < 24 then
    if write then { s with resp := .ok 0 }
    else
      let c := s.csOf (p - 16) ch
      let l := if s.on Reg.APT_CS_ADDR_user then c.latchedUser else c.latched
      { s with resp := .ok ((l.getD b 0).setWidth 64) }
  else if write then
    { s.setAport p { x with csStage := x.csStage.put 0 (24 * ch + b) val } with resp := .ok 0 }
  else { s with resp := .ok ((x.csStage.get 0 (24 * ch + b)).setWidth 64) }

/-- PORT_START (R245). -/
def execPortStart (p : Nat) (s : State) : Host.Outcome State Fault Refusal :=
  whenWf (.portStart p) (portStart p s)

/-- PORT_STOP (R246). -/
def execPortStop (p : Nat) (s : State) : Host.Outcome State Fault Refusal :=
  whenWf (.portStop p) (s.stopPort p false false)

/-- PORT_STOP_CLOCKS (R246). -/
def execPortStopClocks (p : Nat) (s : State) : Host.Outcome State Fault Refusal :=
  whenWf (.portStopClocks p) (portStopClocks p s)

/-- PORT_ACQUIRE (R245). -/
def execPortAcquire (p : Nat) (s : State) : Host.Outcome State Fault Refusal :=
  whenWf (.portAcquire p) (portAcquire p s)

/-- CS_LOAD (R251). -/
def execCsLoad (p : Nat) (s : State) : Host.Outcome State Fault Refusal :=
  whenWf (.csLoad p) (csLoad p s)

/-- TDM_FRAME_IN (R240). -/
def execTdmFrameIn (p : Nat) (time : Int) (edge : FsEdge) (bits : List Bool) (s : State) : Host.Outcome State Fault Refusal :=
  whenWf (.tdmFrameIn p time edge bits) (tdmFrameIn p time edge bits s)

/-- TDM_FRAME_OUT (R240). -/
def execTdmFrameOut (p : Nat) (time : Int) (s : State) : Host.Outcome State Fault Refusal :=
  whenWf (.tdmFrameOut p time) (tdmFrameOut p time s)

/-- AES3_FRAME_OUT (R251). -/
def execAes3FrameOut (r : Nat) (time : Int) (s : State) : Host.Outcome State Fault Refusal :=
  whenWf (.aes3FrameOut r time) (aes3FrameOut r time s)

/-- PORT_CLOCK_STOP (R244). -/
def execPortClockStop (p : Nat) (s : State) : Host.Outcome State Fault Refusal :=
  whenWf (.portClockStop p) (portClockStop p s)

/-- PORT_CLOCK_RETURN (R245). -/
def execPortClockReturn (p : Nat) (s : State) : Host.Outcome State Fault Refusal :=
  whenWf (.portClockReturn p) (portClockReturn p s)

/-- PORT_DATA_ENABLE (R245). -/
def execPortDataEnable (p : Nat) (s : State) : Host.Outcome State Fault Refusal :=
  whenWf (.portDataEnable p) (portDataEnable p s)

/-- UNMUTE_TIMEOUT (R245). -/
def execUnmuteTimeout (p ch : Nat) (sample : A48) (s : State) : Host.Outcome State Fault Refusal :=
  whenWf (.unmuteTimeout p ch sample) (unmuteTimeout p ch sample s)

/-- STOP_FADE_END (R246). -/
def execStopFadeEnd (p : Nat) (s : State) : Host.Outcome State Fault Refusal :=
  whenWf (.stopFadeEnd p) (stopFadeEnd p s)

end Sys2Proof.Machine
end

