-- ==== Sys2Proof/Machine/Streams.lean ====
section
/-! DEFINITION. Media stream contexts (R258 to R274, R278, R279): enable and disable, the jitter buffer, reading
with concealment, and the gathering of transmitted samples. Contexts 0 to 511 receive, 512 to 1023 transmit. -/

namespace Sys2Proof.Machine

/-! ### Context registers (R281) -/

/-- A field of a context's registers; the field is named by the STM register that shows it. -/
def State.cr (s : State) (c : Nat) (f : Fld) : Nat :=
  bitsOf (s.net.ctxRegs.get (resetVal f.off) (c * 0x100 + (f.off - 0x6000))).toNat f.lo f.width

/-- Writes a field of a context's registers. -/
def State.cw (s : State) (c : Nat) (f : Fld) (v : Nat) : State :=
  let key := c * 0x100 + (f.off - 0x6000)
  let w := s.net.ctxRegs.get (resetVal f.off) key
  { s with net := { s.net with
    ctxRegs := s.net.ctxRegs.insert key (BitVec.ofNat 32 (putBits w.toNat f.lo f.width v)) } }

/-- Adds to a saturating counter of a context. -/
def State.cbump (s : State) (c : Nat) (f : Fld) (n : Nat) : State :=
  s.cw c f (min (s.cr c f + n) (2 ^ f.width - 1))

/-- A context. -/
def State.ctx (s : State) (c : Nat) : Ctx := s.net.ctx.get Ctx.reset c

/-- Stores a context. -/
def State.setCtx (s : State) (c : Nat) (x : Ctx) : State :=
  { s with net := { s.net with ctx := s.net.ctx.insert c x } }

/-- STM_STATUS.state of a context. -/
def State.cst (s : State) (c : Nat) : Nat := s.cr c Reg.STM_STATUS_state

/-- Writes STM_STATUS.state of a context. -/
def State.setCst (s : State) (c v : Nat) : State := s.cw c Reg.STM_STATUS_state v

/-- The context that STM_SEL selects. -/
def State.selCtx (s : State) : Nat := s.rd Reg.STM_SEL_ctx + 512 * s.rd Reg.STM_SEL_dir

/-- An event of a context, which is captured while none is held. -/
def State.stmEvent (s : State) (c bit : Nat) : State :=
  let s := if s.on Reg.STM_EVT_CTX_valid then s else
    ((s.wr Reg.STM_EVT_CTX_ctx (c % 512)).wr Reg.STM_EVT_CTX_dir (c / 512)).wr Reg.STM_EVT_CTX_valid 1
  s.setEvent Reg.STM_EVENT_ev bit

/-! ### Form and limits (R258, R259, R264, R274) -/

/-- P of a packet time code at the current rate (R258). -/
def State.pOf (s : State) (code : Nat) : Nat :=
  (match code with
    | 0 => 6
    | 1 => 12
    | 2 => 16
    | 3 => 48
    | _ => 192) * 2 ^ s.syn.mult

/-- Samples per packet of a context. -/
def State.cP (s : State) (c : Nat) : Nat := s.pOf (s.cr c Reg.STM_CFG_ptime)

/-- Channels of a context. -/
def State.cNch (s : State) (c : Nat) : Nat := s.cr c Reg.STM_CFG_nch_m1 + 1

/-- Bytes of a word (R259). -/
def State.cBytes (s : State) (c : Nat) : Nat := 2 + s.cr c Reg.STM_CFG_enc

/-- The first channel of a context. -/
def State.cBase (s : State) (c : Nat) : Nat := s.cr c Reg.STM_CHAN_chan_base

/-- A context uses port 0 (A) or 1 (B). -/
def State.cPath (s : State) (c port : Nat) : Bool := bitAt (s.cr c Reg.STM_CFG_paths) port

/-- Payload bytes of a packet. -/
def State.cPayload (s : State) (c : Nat) : Nat := s.cP c * s.cNch c * s.cBytes c

/-- The ports a context uses. -/
def State.cPorts (s : State) (c : Nat) : List Nat := [0, 1].filter (fun p => s.cPath c p)

/-- The fields satisfy R258 and R259. -/
def State.cFormOk (s : State) (c : Nat) : Bool :=
  decide (s.cPayload c ≤ if (s.cPorts c).all (fun p => s.on (Reg.NT_CFG_jumbo p)) then 9216 else 1440) &&
    (s.cr c Reg.STM_CFG_enc != 2 || s.cNch c % 2 == 0)

/-- The channel range lies within the count of R72. -/
def State.cRangeOk (s : State) (c : Nat) : Bool :=
  decide (s.cBase c + s.cNch c ≤ srcCountAt s.high 1)

/-- Contexts of the same direction that are enabled. -/
def State.peers (s : State) (c : Nat) : List Nat :=
  (s.net.ctx.map (·.1)).filter (fun d => d != c && d / 512 == c / 512 && s.cst d != 0)

/-- The channel range overlaps that of an enabled context. -/
def State.cOverlap (s : State) (c : Nat) : Bool :=
  (s.peers c).any (fun d => decide (s.cBase c < s.cBase d + s.cNch d) && decide (s.cBase d < s.cBase c + s.cNch c))

/-- The destination of a context on a port. -/
def State.cDst (s : State) (c port : Nat) : Nat :=
  s.cr c (if port = 0 then Reg.STM_DST_A_addr else Reg.STM_DST_B_addr)

/-- Another enabled receive context has the same destination address and UDP port on one port (R261). -/
def State.cDup (s : State) (c : Nat) : Bool :=
  decide (c < 512) && (s.peers c).any (fun d => [0, 1].any (fun p => s.cPath c p && s.cPath d p &&
    s.cDst c p == s.cDst d p && s.cr c Reg.STM_UDP_dst_port == s.cr d Reg.STM_UDP_dst_port))

/-- D_rx lies in the range of R264 for a length. -/
def State.drxOk (s : State) (c d len : Nat) : Bool :=
  decide (s.cP c ≤ d) && decide (d ≤ min (len - 2 * s.nLap) 65535)

/-- Shelves of a context's buffer for a length (R278). -/
def State.cShelves (s : State) (c len : Nat) : Nat :=
  ((if c < 512 then len else 2 * s.cP c) * s.cNch c * 4 + 4095) / 4096

/-- Bits per packet on the wire of a port (R274). -/
def State.wireBits (s : State) (c port : Nat) : Nat :=
  8 * (s.cPayload c + 78 + 4 * s.rd (Reg.NT_VLAN_en port))

/-- The media rate of the enabled transmit contexts of a port, with a context added, exceeds 80 % of its line
rate. Rates are compared times 768, which every P divides. -/
def State.overRate (s : State) (c port : Nat) : Bool :=
  let line := if s.rd (Reg.NT_CFG_mode port) = 1 then 10000000000 else 1000000000
  let rate (d : Nat) : Nat := if s.cPath d port then s.wireBits d port * s.fs * (768 / s.cP d) else 0
  decide (line * 768 * 8 / 10 < (c :: s.peers c).foldl (fun a d => a + rate d) 0)

/-- The first reason to refuse an enable, in the order in which R261 lists the cases; 0 none. The shelves are
tried where R261 places them. -/
def State.enableReason (s : State) (c : Nat) : Nat :=
  let len := 64 * s.cr c Reg.STM_DRX_len64
  if !s.cRangeOk c || s.cOverlap c then 1
  else if s.cDup c then 7
  else if !s.cFormOk c then 2
  else if c < 512 ∧ !s.drxOk c (s.cr c Reg.STM_DRX_d_rx) len then 3
  else if (s.engineAlloc 3 c (s.cShelves c len) (s.cr c Reg.STM_CFG_mirror == 1)).isNone then 4
  else if 512 ≤ c ∧ [0, 1].any (fun p => s.cPath c p && s.overRate c p) then 5
  else if [0, 1].any (fun p => s.cPath c p && s.rd (Reg.NT_CFG_mode p) == 0) then 6
  else 0

/-- The next count that a window reads: those of the lap before the window's. -/
def State.nextRead (s : State) : Int :=
  max 0 (((s.lap : Int) - (if s.audio.exchLap = s.lap + 1 then 0 else 1)) * s.nLap)

/-- A context starts (R262): a receiver reads on from the next window with k = 0, a transmitter's packets begin at the first
packet boundary of the next lap. What command 3 and command 4 left waiting stays. -/
def State.openCtx (s : State) (c : Nat) : State :=
  let x := s.ctx c
  let next := ((s.lap : Int) + 1) * s.nLap
  let m0 := (next + s.cP c - 1) / s.cP c * s.cP c
  let x : Ctx := { Ctx.reset with
    mRead := s.nextRead
    w := s.nextRead
    len := x.len
    dRx := x.dRx
    newD := x.newD
    newLen := x.newLen
    m0 := m0
    seq := (m0 % 65536).toNat
    blocks := s.rd Reg.APT_GCFG_start_laps
    csStage := x.csStage
    csUse := x.csUse
    csLoad := x.csLoad }
  ((s.setCtx c x).cw c Reg.STM_STATUS_k 0).setCst c 1

/-- The enabled contexts start with processing, whose first lap and anchor set their counts (R262, R286). -/
def State.openStreams (s : State) : State :=
  (s.net.ctx.map (·.1)).foldl (fun s c => if s.cst c = 0 ∨ 5 ≤ s.cst c then s else s.openCtx c) s

/-- STREAM_ENABLE (R261, R262). -/
def streamEnable (s : State) : State :=
  let c := s.selCtx
  if s.cst c ≠ 0 then s
  else
    let r := s.enableReason c
    if r ≠ 0 then (s.cw c Reg.STM_STATUS_reason r).stmEvent c 1
    else
      let len := 64 * s.cr c Reg.STM_DRX_len64
      let s := (s.engineAlloc 3 c (s.cShelves c len) (s.cr c Reg.STM_CFG_mirror == 1)).getD s
      let x : Ctx := { s.ctx c with len := len, dRx := s.cr c Reg.STM_DRX_d_rx, newD := none, newLen := none, csLoad := false }
      let s := (s.setCtx c x).openCtx c
      let s := (s.cw c Reg.STM_STATUS_path_a 0).cw c Reg.STM_STATUS_path_b 0
      s.stmEvent c 0

/-- A context ends disabled: its buffer is released; a transmitter's tables of channel status stay. -/
def State.dropCtx (s : State) (c : Nat) : State :=
  let x := s.ctx c
  let s := s.setCtx c { Ctx.reset with csStage := x.csStage, csUse := x.csUse }
  let s := (s.setCst c 0).cw c Reg.STM_STATUS_k 0
  let s := (s.cw c Reg.STM_STATUS_path_a 0).cw c Reg.STM_STATUS_path_b 0
  if (s.allocHeld 3 c).isSome then s.freeAlloc 3 c else s

/-- A multicast IPv4 address. -/
def multicast (a : Nat) : Bool := a / 2 ^ 28 == 0xE

/-- Groups that no enabled context of a port uses are left, with a report (R277). -/
def State.leaveGroups (s : State) (port : Nat) : State :=
  let used := ((s.net.ctx.map (·.1)).filter (fun d => decide (d < 512) && s.cst d != 0 && s.cst d != 6 &&
    s.cPath d port)).map (fun d => s.cDst d port)
  let np := s.nport port
  let gone := np.groups.filter (fun g => !used.contains g)
  let s := s.setNport port { np with groups := np.groups.filter (fun g => used.contains g) }
  gone.foldl (fun s g => s.sendReport port .leave g 0) s

/-- STREAM_DISABLE (R262): a receiver fades as under R267, a transmitter over 32 samples from the next lap. -/
def streamDisable (s : State) : State :=
  let c := s.selCtx
  let st := s.cst c
  if st = 0 ∨ st = 6 then s
  else if c < 512 then
    let x := s.ctx c
    let s := if st = 5 ∨ x.k = 0 then s.dropCtx c
      else (s.setCtx c { x with newD := some x.dRx, newLen := none }).setCst c 6
    (s.leaveGroups 0).leaveGroups 1
  else if st = 5 ∨ !s.run then s.dropCtx c
  else (s.setCtx c { s.ctx c with stopAt := s.lap + 2 }).setCst c 6

/-- STREAM_APPLY_DRX_LEN (R267, R268): the values of the last command take effect, in place of any that wait. -/
def streamApplyDrxLen (s : State) : State :=
  let c := s.selCtx
  let st := s.cst c
  if 512 ≤ c ∨ st = 0 ∨ 5 ≤ st then s
  else
    let x := s.ctx c
    let len := 64 * s.cr c Reg.STM_DRX_len64
    let d := s.cr c Reg.STM_DRX_d_rx
    if !s.drxOk c d len then s.stmEvent c 1
    else
      let need := s.cShelves c (max len x.len)
      let have_ := match s.allocHeld 3 c with
        | none => 0
        | some a => a.count
      let grown := if need ≤ have_ then some s
        else (s.freeAlloc 3 c).engineAlloc 3 c need (s.cr c Reg.STM_CFG_mirror == 1)
      match grown with
      | none => s.stmEvent c 1
      | some s => s.setCtx c { x with
          newD := if x.newD.isNone ∧ d = x.dRx then none else some d
          newLen := if x.newLen.isNone ∧ len = x.len then none else some len }

/-- DRX_TAKE_EFFECT (R267): at the first lap boundary after k has reached 0. -/
def drxTakeEffect (c : Nat) (s : State) : State :=
  let x := s.ctx c
  match x.newD with
  | none => s
  | some d =>
    if c < 512 ∧ x.force ∧ x.k = 0 then
      if s.cst c = 6 then s.dropCtx c
      else s.setCtx c { x with dRx := d, newD := none, force := false }
    else s

/-- LEN_TAKE_EFFECT (R268): at the next wrap of the read pointer. -/
def lenTakeEffect (c : Nat) (s : State) : State :=
  let x := s.ctx c
  match x.newLen with
  | none => s
  | some len =>
    if 512 ≤ c ∨ x.reads = 0 ∨ x.reads ≠ x.len then s
    else
      let hi := x.here.foldl max (x.mRead - 1)
      let lost := x.here.filter (fun m => decide (m < hi - len + 1))
      let keep := x.here.filter (fun m => decide (hi - len + 1 ≤ m))
      let s := s.setCtx c { x with len := len, newLen := none, here := keep, w := max x.mRead (hi - len + 1), reads := 0 }
      let s := if lost.isEmpty then s else (s.cbump c Reg.STM_SLIP_count lost.length).stmEvent c 8
      match s.allocHeld 3 c with
      | none => s
      | some a =>
        let b : Alloc := { a with count := min a.count (s.cShelves c len) }
        s.setAlloc b

/-- STREAM_CS_LOAD (R273). -/
def streamCsLoad (s : State) : State :=
  let c := s.selCtx
  if 512 ≤ c then s.setCtx c { s.ctx c with csLoad := true } else s

/-- STREAM_LOST (R266). -/
def streamLost (c : Nat) (s : State) : State :=
  if 1 ≤ s.cst c ∧ s.cst c ≤ 3 ∧ s.rd Reg.STM_GCFG_rx_timeout ≤ (s.ctx c).idle then
    ((s.setCtx c { s.ctx c with back := false }).setCst c 4).stmEvent c 4
  else s

/-- The path bit of a context. -/
def pathBit (port : Nat) : Fld := if port = 0 then Reg.STM_STATUS_path_a else Reg.STM_STATUS_path_b

/-- PATH_DOWN (R269). -/
def pathDown (c port : Nat) (s : State) : State :=
  let idle := if port = 0 then (s.ctx c).idleA else (s.ctx c).idleB
  if s.cr c (pathBit port) = 1 ∧ s.rd Reg.STM_GCFG_rx_timeout ≤ idle then (s.cw c (pathBit port) 0).stmEvent c 5
  else s

/-! ### The jitter buffer (R264, R269) -/

/-- The key of a channel's word of a count. -/
def bufKey (m : Int) (ch : Nat) : Nat := (m % 2 ^ 31).toNat * 64 + ch

/-- Stores one frame of a packet: the samples of a count and their AM824 bits. -/
def storeCount (m : Int) : List (A48 × Nat) → Nat → Ctx → Ctx
  | [], _, x => { x with here := m :: x.here, storedLap := true, back := true }
  | (v, b) :: t, ch, x =>
    storeCount m t (ch + 1) { x with buf := x.buf.insert (bufKey m ch) v, bits := x.bits.insert (bufKey m ch) b }

/-- Places the frames of a packet from count m up; answers the context and whether any was late, early or
already stored. -/
def placeFrames : Int → List (List (A48 × Nat)) → Ctx → Bool × Bool × Bool → Ctx × Bool × Bool × Bool
  | _, [], x, r => (x, r)
  | m, f :: fs, x, (late, early, dup) =>
    if m < max x.w x.mRead then placeFrames (m + 1) fs x (true, early, dup)
    else if max x.w x.mRead + x.len ≤ m then placeFrames (m + 1) fs x (late, true, dup)
    else if x.here.contains m then placeFrames (m + 1) fs x (late, early, true)
    else placeFrames (m + 1) fs (storeCount m f 0 x) (late, early, dup)

/-- The count that an RTP timestamp denotes for a context (R260, R264): of the counts that recur every 2^32 the
one nearest m_read. The sample of RTP time τ is presented D_rx later (DEDUCED, log 31). -/
def State.countOfRtp (s : State) (c : Nat) (r : Nat) : Int :=
  let x := s.ctx c
  let m := (r : Int) + x.dRx - s.cr c Reg.STM_RTP_OFS_ofs - s.time.anchor
  x.mRead + ((m - x.mRead + 2 ^ 31) % 2 ^ 32 - 2 ^ 31)

/-- The mean of the skews measured, in µs (R269). -/
def meanSkew (l : List Int) : Int := if l.isEmpty then 0 else l.foldl (· + ·) 0 / l.length / 1000

/-- Arrivals of counts on both paths: the difference B − A of each count received on both (R269). -/
def State.noteSkew (s : State) (c port : Nat) (counts : List Int) (arr : Int) : State :=
  let x := s.ctx c
  let other := if port = 0 then x.arrB else x.arrA
  let diffs := counts.filterMap (fun m => (other.find? (fun e => e.1 == m)).map (fun e =>
    if port = 0 then e.2 - arr else arr - e.2))
  let own := ((counts.map (fun m => (m, arr))) ++ (if port = 0 then x.arrA else x.arrB)).take 4096
  let x := { x with skew := (diffs ++ x.skew).take 64 }
  let x := if port = 0 then { x with arrA := own } else { x with arrB := own }
  let s := s.setCtx c x
  if x.skew.length < 64 then s
  else
    let us := meanSkew x.skew
    let ovr := decide (s.rd Reg.STM_GCFG_skew_max * 1000 < us.natAbs)
    let s := (s.cw c Reg.STM_SKEW_us (BitVec.ofInt 16 us).toNat).cw c Reg.STM_SKEW_valid 1
    let s := if ovr && !x.skewEp then s.stmEvent c 7 else s
    s.setCtx c { s.ctx c with skewEp := ovr }

/-- A path offers a packet to a context: its counter, and the path is up (R269). -/
def State.pathOffered (s : State) (c port : Nat) : State :=
  let s := s.cbump c (if port = 0 then Reg.STM_PKTS_A_count else Reg.STM_PKTS_B_count) 1
  let s := if s.cr c (pathBit port) = 0 then (s.cw c (pathBit port) 1).stmEvent c 6 else s
  let x := s.ctx c
  s.setCtx c (if port = 0 then { x with idleA := 0 } else { x with idleB := 0 })

/-- A packet that keeps the form enters the buffer, with its counters (R264, R269). -/
def State.offerPacket (s : State) (c port rtp : Nat) (frames : List (List (A48 × Nat))) (arr : Int) : State :=
  let m := s.countOfRtp c rtp
  let x := s.ctx c
  let (x, late, early, dup) := placeFrames m frames x (false, false, false)
  let s := s.setCtx c x
  let s := if late then s.cbump c Reg.STM_LATE_count 1 else s
  let s := if early then s.cbump c Reg.STM_EARLY_count 1 else s
  let s := if dup then s.cbump c Reg.STM_DUP_count 1 else s
  if s.cr c Reg.STM_CFG_paths = 3 then
    s.noteSkew c port ((List.range frames.length).map (fun (i : Nat) => m + i)) arr
  else s

/-! ### Reading (R265, R266) -/

/-- One count read by a context: its outputs by channel and the context after it. -/
def readCount (nch : Nat) (vzero : Bool) (x : Ctx) : List A48 × Ctx :=
  let m := x.mRead
  let present := x.here.contains m
  let val (ch : Nat) : A48 :=
    if vzero && bitAt (x.bits.get 0 (bufKey m ch)) 0 then 0 else x.buf.get 0 (bufKey m ch)
  let h := if present then
      (List.range nch).foldl (fun (t : Tbl A48) ch => t.put 0 ch (val ch)) x.h else x.h
  let k := if present && !x.force then min (x.k + 1) 32 else x.k - 1
  let g : A48 := BitVec.ofNat 48 (k * 2 ^ 34)
  let gone (t : Nat) : Bool := t / 64 == (m % 2 ^ 31).toNat
  ((List.range nch).map (fun ch => gainA g (h.get 0 ch)),
    { x with
      h := h, k := k, mRead := m + 1
      here := x.here.filter (fun n => decide (m < n))
      buf := x.buf.drop gone
      bits := x.bits.drop gone
      reads := if x.reads = x.len then 1 else x.reads + 1
      absent := x.absent || !present })

/-- A status and user bit join a block (R250): answers the block and whether a completed one failed its CRCC. -/
def gatherBit (b : CsBlock) (z c u : Bool) : CsBlock × Bool :=
  let b := if z then { b with bits := some [], user := [] } else b
  match b.bits with
  | none => (b, false)
  | some l =>
    if 192 ≤ l.length then (b, false)
    else
      let b := { b with bits := some (l ++ [c]), user := b.user ++ [u] }
      if l.length < 191 then (b, false)
      else
        let bytes := bytesOf (l ++ [c]) 24
        if (bytes.headD 0).getLsbD 0 && crcc (bytes.take 23) != bytes.getD 23 0 then (b, true)
        else ({ b with latched := bytes, latchedUser := bytesOf b.user 24 }, false)

/-- The bits of the count that an AM824 context reads next join the blocks of its channels, in the order of the counts (R270);
a block begins in both channels of a pair, and an absent count ends the blocks being gathered. -/
def State.gatherCount (s : State) (c : Nat) (present : Bool) : State :=
  (List.range (s.cNch c)).foldl (fun s ch =>
    let x := s.ctx c
    let b := x.cs.get CsBlock.reset ch
    if present then
      let w (k : Nat) : Nat := x.bits.get 0 (bufKey x.mRead k)
      let r := gatherBit b (bitAt (w ch ||| w (ch - ch % 2)) 3) (bitAt (w ch) 2) (bitAt (w ch) 1)
      let s := s.setCtx c { x with cs := x.cs.insert ch r.1 }
      if r.2 then s.cbump c Reg.STM_FORM_count 1 else s
    else s.setCtx c { x with cs := x.cs.put CsBlock.reset ch { b with bits := none, user := [] } }) s

/-- One count read by a context, with its counters, state and events (R265, R266, R270). -/
def State.streamRead (s : State) (c : Nat) : List A48 × State :=
  let present := (s.ctx c).here.contains (s.ctx c).mRead
  let s := if s.cr c Reg.STM_CFG_enc = 2 then s.gatherCount c present else s
  let x := s.ctx c
  let r := readCount (s.cNch c) (s.cr c Reg.STM_CFG_v_zero == 1 && s.cr c Reg.STM_CFG_enc == 2) x
  let y := r.2
  let s := (s.setCtx c y).cw c Reg.STM_STATUS_k y.k
  let s := if present then s else s.cbump c Reg.STM_CONCEAL_count 1
  let s := if present && (s.cst c == 1 || (s.cst c == 4 && x.back)) then s.setCst c 2 else s
  let s := if s.cst c = 2 ∧ (!present || x.force) then s.setCst c 3 else s
  let s := if x.k = 32 ∧ y.k = 31 then s.stmEvent c 2 else s
  let s := if x.k = 31 ∧ y.k = 32 then (if s.cst c = 3 then s.setCst c 2 else s).stmEvent c 3 else s
  (r.1, s)

/-- The counts of a lap read by a context, transposed to samples by channel. -/
def State.streamLap (s : State) (c : Nat) : Nat → List (List A48) → List (List A48) × State
  | 0, acc => (acc, s)
  | n + 1, acc =>
    let r := s.streamRead c
    r.2.streamLap c n ((acc.zip r.1).map (fun e => e.1 ++ [e.2]))

/-- A context that reads: it is enabled and not held. -/
def State.streamReads (s : State) (c : Nat) : Bool :=
  decide (c < 512) && s.cst c != 0 && s.cst c != 5

/-- The AM824 bits that the counts of the next lap read carry, by source code (R270). -/
def State.streamBits (s : State) : Tbl (List Nat) :=
  ((s.net.ctx.map (·.1)).filter (fun c => s.streamReads c && s.cr c Reg.STM_CFG_enc == 2)).foldl
    (fun (t : Tbl (List Nat)) c =>
      let x := s.ctx c
      (List.range (s.cNch c)).foldl (fun (t : Tbl (List Nat)) ch =>
        t.insert (0x1000 + s.cBase c + ch)
          ((List.range s.nLap).map (fun (j : Nat) => x.bits.get 0 (bufKey (x.mRead + j) ch)))) t) []

/-- STREAM_READ of every receive context for a capture lap, by source code, after the port-level gain. -/
def State.captureStreams (s : State) : Tbl (List A48) × State :=
  ((s.net.ctx.map (·.1)).filter (fun c => s.streamReads c)).foldl (fun (a : Tbl (List A48) × State) c =>
    let s := a.2
    let s := s.setCtx c { s.ctx c with absent := false }
    let r := s.streamLap c s.nLap (List.replicate (s.cNch c) [])
    let g := r.2.portGain (0x100 + c)
    ((r.1.zipIdx).foldl (fun (t : Tbl (List A48)) e =>
      t.insert (0x1000 + s.cBase c + e.2) (s.portOut (0x100 + c) g.1 e.1)) a.1, g.2)) ([], s)

/-- The receive context that supplies a network channel. -/
def State.rxOf (s : State) (ch : Nat) : Option Nat :=
  (s.net.ctx.map (·.1)).find? (fun c => decide (c < 512) && s.cst c != 0 &&
    decide (s.cBase c ≤ ch) && decide (ch < s.cBase c + s.cNch c))

/-- A network receive channel is failed in the lap (R79, R266). -/
def State.rxFailed (s : State) (ch : Nat) : Bool :=
  match s.rxOf ch with
  | none => true
  | some c => s.cst c != 2 || (s.ctx c).absent

/-- Receive contexts are forced down by an epoch step until its lap (R294), and by a rate change (R332). -/
def State.streamsMuted (s : State) : Bool :=
  (match s.time.epoch with
    | none => false
    | some e => decide (s.lap < e.lap)) || s.syn.change.isSome

/-! ### Transmitting (R262, R271) -/

/-- An epoch step takes effect in the running lap (R294). -/
def State.epochNow (s : State) : Bool :=
  match s.time.epoch with
  | none => false
  | some e => decide (e.lap ≤ s.lap)

/-- The gate of a transmit context over the samples of a lap: closed during the starting blocks and in QUIET, then
searching; a disable fades from its lap on, and from the lap of an epoch step a channel searches (R262, R294, R412). -/
def State.txGate (s : State) (c ch : Nat) : ChanGate :=
  let x := s.ctx c
  let g := x.gates.get ChanGate.closed ch
  let g := if x.stopAt = s.lap + 1 then g.stop else g
  if g = .closed ∧ x.blocks = 0 ∧ (x.stopAt = 0 ∨ (s.epochNow ∧ s.cst c ≠ 6)) ∧ s.pstate = 2 then .search 0 else g

/-- One channel of a transport lap enters a transmit context's buffer (R245, R271, R273, R279). `bits`: those that
the samples carry. -/
def State.txChan (s : State) (c ch : Nat) (gs vs : List A48) (bits : List Nat) : State :=
  let x := s.ctx c
  let counts := s.countsOf (s.lap + 1)
  let bs := (counts.zip bits).foldl (fun (t : Tbl Nat) e => t.put 0 (bufKey e.1 ch) e.2) x.bits
  s.setCtx c { x with outNext := x.outNext.insert ch (s.portOut (0x100 + c) gs vs), bits := bs }

/-- A context's channel status byte (R273): byte 23 is the CRCC. -/
def txCsByte (t : Tbl Byte) (k : Nat) : Byte :=
  if k = 23 then crcc ((List.range 23).map (fun i => t.get 0 i)) else t.get 0 k

/-- The bits of the samples of a lap: those that they carry, or generated ones; a load of channel status takes effect at the
count of a block start (R273). -/
def Ctx.labelLap (nch : Nat) : List Int → Ctx → Ctx
  | [], x => x
  | m :: t, x =>
    let x := if m % 192 = 0 ∧ x.csLoad then { x with csUse := x.csStage, csLoad := false } else x
    let k := (m % 192).toNat
    let own := 4 * b2n ((txCsByte x.csUse (k / 8)).getLsbD (k % 8)) + 8 * b2n (k == 0)
    Ctx.labelLap nch t { x with
      bits := (List.range nch).foldl (fun (t : Tbl Nat) ch =>
        let b := x.bits.get 0 (bufKey m ch)
        if 16 ≤ b then t else t.insert (bufKey m ch) (16 + b % 2 + own)) x.bits }

/-- The gate of one channel of a transmit context over the samples of the lap that begins. -/
def State.txGateRun (s : State) (c ch : Nat) (xs : List A48) : State :=
  let x := s.ctx c
  let T := s.msSamples (s.rd Reg.APT_GCFG_unmute_to)
  let r := gateRun T (s.txGate c ch) (x.prev.get 0 ch) xs
  let buf := ((s.countsOf s.lap).zip r.1).foldl (fun (t : Tbl A48) e => t.insert (bufKey e.1 ch) e.2) x.buf
  s.setCtx c { x with gates := x.gates.insert ch r.2.1, prev := x.prev.insert ch r.2.2, buf := buf }

/-- The gates of a transmit context at the boundary of a lap (R245, R262). -/
def State.gateTx (s : State) (c : Nat) : State :=
  let l := (s.ctx c).outNext
  let s := l.foldl (fun (s : State) e => s.txGateRun c e.1 e.2) s
  let x := s.ctx c
  let x := if s.run && s.cr c Reg.STM_CFG_enc == 2 then Ctx.labelLap (s.cNch c) (s.countsOf s.lap) x else x
  let s := s.setCtx c { x with outNext := [], stopAt := if s.epochNow && s.cst c != 6 then 0 else x.stopAt }
  if s.cst c = 1 ∧ x.blocks = 0 ∧ !x.gates.isEmpty ∧ x.gates.all (fun e => e.2.isOpen) then s.setCst c 2 else s

/-- Every transmit context takes its channels' values of a transport lap (R271), with the bits that `bits` gives. -/
def State.deliverStreams (s : State) (val : Nat → List A48) (bits : Nat → List Nat) : State :=
  ((s.net.ctx.map (·.1)).filter (fun c => decide (512 ≤ c) && s.cst c != 0 && s.cst c != 5)).foldl (fun s c =>
    let g := s.portGain (0x100 + c)
    (List.range (g.2.cNch c)).foldl (fun s ch =>
      s.txChan c ch g.1 (val (0x1000 + s.cBase c + ch)) (if s.cr c Reg.STM_CFG_enc = 2 then bits (c * 64 + ch) else [])) g.2) s

/-- The contexts' part of a lap boundary: idle laps, forced fades and starting blocks (R262, R266, R267, R269). -/
def State.streamsBoundary (s : State) : State :=
  (s.net.ctx.map (·.1)).foldl (fun s c =>
    let x := s.ctx c
    if s.cst c = 0 ∨ s.cst c = 5 then s
    else if c < 512 then
      s.setCtx c { x with
        idle := if x.storedLap then 0 else x.idle + 1
        storedLap := false
        idleA := x.idleA + 1
        idleB := x.idleB + 1
        force := x.newD.isSome || s.streamsMuted }
    else
      let s := s.gateTx c
      s.setCtx c { s.ctx c with blocks := x.blocks - 1 }) s

/-- Contexts that a rate puts beyond the count are held; held ones whose range it permits resume (R261). -/
def State.holdStreams (s : State) : State :=
  (s.net.ctx.map (·.1)).foldl (fun s c =>
    if s.cst c = 0 then s
    else if !s.cRangeOk c then s.setCst c 5
    else if s.cst c = 5 then s.openCtx c
    else s) s

/-- STREAM_LOST (R266). -/
def execStreamLost (ctx : Nat) (s : State) : Host.Outcome State Fault Refusal :=
  whenWf (.streamLost ctx) (streamLost ctx s)

/-- PATH_DOWN (R269). -/
def execPathDown (ctx path : Nat) (s : State) : Host.Outcome State Fault Refusal :=
  whenWf (.pathDown ctx path) (pathDown ctx path s)

/-- STREAM_ENABLE (R262). -/
def execStreamEnable (s : State) : Host.Outcome State Fault Refusal :=
  whenWf .streamEnable (streamEnable s)

/-- STREAM_DISABLE (R262). -/
def execStreamDisable (s : State) : Host.Outcome State Fault Refusal :=
  whenWf .streamDisable (streamDisable s)

/-- STREAM_APPLY_DRX_LEN (R267). -/
def execStreamApplyDrxLen (s : State) : Host.Outcome State Fault Refusal :=
  whenWf .streamApplyDrxLen (streamApplyDrxLen s)

/-- DRX_TAKE_EFFECT (R267). -/
def execDrxTakeEffect (ctx : Nat) (s : State) : Host.Outcome State Fault Refusal :=
  whenWf (.drxTakeEffect ctx) (drxTakeEffect ctx s)

/-- LEN_TAKE_EFFECT (R268). -/
def execLenTakeEffect (ctx : Nat) (s : State) : Host.Outcome State Fault Refusal :=
  whenWf (.lenTakeEffect ctx) (lenTakeEffect ctx s)

/-- STREAM_CS_LOAD (R273). -/
def execStreamCsLoad (s : State) : Host.Outcome State Fault Refusal :=
  whenWf .streamCsLoad (streamCsLoad s)

end Sys2Proof.Machine
end

