-- ==== Sys2Proof/Machine/Graph.lean ====
section
/-! DEFINITION. The fixed graph (chapter 04): sources and their health, A/B selection, route
points and their fades, delay units, insert points and the layout mute. -/

namespace Sys2Proof.Machine

/-! ### Sources (R72, R74, R79, R91) -/

/-- A source code names an index within the count of the current rate, and for a TDM input a slot of its port. -/
def State.srcValid (s : State) (v : Nat) : Bool :=
  v == 0 || (decide (v % 4096 < srcCountAt s.high (v / 4096)) &&
    (v / 4096 != 2 || decide (v % 32 < s.portChans (v % 4096 / 32))))

/-- d_in of a source, in samples (R91). -/
def State.dIn (s : State) (v : Nat) : Nat :=
  match v / 4096 with
  | 1 => match s.rxOf (v % 4096) with
    | some c => (s.ctx c).dRx
    | none => 0
  | 2 => 1
  | 3 => 2
  | _ => 0

/-- Playback rings that carry a channel (R196). -/
def State.playRing (s : State) (ch : Nat) : Option Nat :=
  (List.range 64).find? (fun r => s.ringOn r && s.ringFunc r == 3 &&
    decide (s.rd (Reg.HST_RAUD_c0 r) ≤ ch) && decide (ch ≤ s.rd (Reg.HST_RAUD_c0 r) + s.rd (Reg.HST_RAUD_nc_m1 r)))

/-- The samples of a playback channel for a capture lap, zero where one was not fetched, and whether all were (R197);
none while bus mastering is off (R179). -/
def State.playLap (s : State) (ch lap : Nat) : Option (List A48 × Bool) :=
  match s.playRing ch with
  | none => none
  | some r =>
    let g := s.ring r
    let keys := (List.range s.nLap).map (fun j => (lap * s.nLap + j) * 256 + ch)
    if s.ringRuns r && s.on Reg.HST_STATUS_bme then some (keys.map (fun k => g.samples.get 0 k), keys.all (fun k => g.samples.has k)) else none

/-- The key under which a ring channel's samples of a capture lap are held. -/
def chanKey (lap ch : Nat) : Nat := lap % 16 * 2048 + ch

/-- A source is failed in a lap that has just ended (R79). A source beyond capacity is failed. -/
def State.srcFailed (s : State) (v lap : Nat) : Bool :=
  if !s.srcValid v then true
  else match v / 4096 with
    | 1 => s.rxFailed (v % 4096)
    | 2 => s.portFailed (v % 4096 / 32)
    | 3 => s.portFailed (16 + v % 4096 / 2)
    | 4 => !s.casc.chanHist.has (chanKey lap (v % 4096))
    | 5 => !((s.playLap (v % 4096) lap).any (·.2))
    | 0 => true
    | _ => false

/-! ### Route points (R74, R89, R90) -/

/-- The fade of a change to a value: its own, or that of the change to it that was held while a fade ran (R90). -/
def RoutePt.fadeOf (p : RoutePt) (v : RVal) (len : Nat) (power : Bool) : Nat × Bool :=
  match p.held with
  | some h => if h.val = v then (h.len, h.power) else (len, power)
  | none => (len, power)

/-- A new value at a route point: it starts a fade or cuts, or it is held while a fade runs. Answers whether it was
held. -/
def RoutePt.change (p : RoutePt) (v : RVal) (len : Nat) (power : Bool) : RoutePt × Bool :=
  let own := p.fadeOf v len power
  if fadeRuns p.fade then
    let want := match p.held with
      | some h => h.val
      | none => p.cur
    if v = want then (p, false) else ({ p with held := some ⟨v, len, power⟩ }, true)
  else if v = p.cur then ({ p with held := none }, false)
  else if own.1 = 0 then ({ p with cur := v, old := v, fade := none, held := none }, false)
  else ({ p with cur := v, old := p.cur, fade := some ⟨own.1, 0, own.2⟩, held := none }, false)

/-- A point that nothing sounds through in a lap of n samples: its fade goes on. -/
def RoutePt.pass (p : RoutePt) (n : Nat) : RoutePt :=
  { p with fade := p.fade.map (fun f => { f with pos := min f.len (f.pos + n) }) }

/-- A fade whose last sample has passed ends, and the held change starts (R90). -/
def RoutePt.fadeEnd (p : RoutePt) : RoutePt :=
  match p.fade with
  | none => p
  | some f =>
    if f.runs then p
    else
      let q := { p with fade := none, old := p.cur, held := none }
      match p.held with
      | none => q
      | some h => (q.change h.val h.len h.power).1

/-- One lap of a route point whose value is given by `val`: its samples and the point after them. -/
def RoutePt.lap (p : RoutePt) (val : RVal → List A48) : List A48 × RoutePt :=
  if fadeRuns p.fade then
    let r := fadeLap p.fade ((val p.old).zip (val p.cur))
    (r.1, { p with fade := r.2 })
  else (val p.cur, p)

/-- Counts a held change (R90). -/
def State.deferred (s : State) (held : Bool) : State :=
  if held then (s.bump Reg.GRF_ROUTE_DEFER_count 1).setEvent Reg.GRF_EVENT_ev 2 else s

/-- A route point begins or ends an episode of an invalid source (R74). -/
def State.noteInvalid (s : State) (p : RoutePt) : RoutePt × State :=
  let bad := !s.srcValid p.cur.src
  ({ p with invalid := bad }, s.setEventIf (bad && !p.invalid) Reg.GRF_EVENT_ev 3)

/-- An input point. -/
def State.inPt (s : State) (i : Nat) : RoutePt := s.audio.inPt.get (RoutePt.at 0) i

/-- Stores an input point. -/
def State.setInPt (s : State) (i : Nat) (p : RoutePt) : State :=
  { s with audio := { s.audio with inPt := s.audio.inPt.insert i p } }

/-- An output point: sink kind × 4096 + index. -/
def State.outPt (s : State) (k : Nat) : RoutePt := s.audio.outPt.get (RoutePt.at 0) k

/-- Stores an output point. -/
def State.setOutPt (s : State) (k : Nat) (p : RoutePt) : State :=
  { s with audio := { s.audio with outPt := s.audio.outPt.insert k p } }

/-- An insert point. -/
def State.insPt (s : State) (k : Nat) : RoutePt := s.audio.insPt.get RoutePt.noRack k

/-- Stores an insert point. -/
def State.setInsPt (s : State) (k : Nat) (p : RoutePt) : State :=
  { s with audio := { s.audio with insPt := s.audio.insPt.insert k p } }

/-- A direct output point: its source is the number of the point (R112). -/
def State.dirPt (s : State) (i : Nat) : RoutePt := s.audio.dirPt.get (RoutePt.at 3) i

/-- Stores a direct output point. -/
def State.setDirPt (s : State) (i : Nat) (p : RoutePt) : State :=
  { s with audio := { s.audio with dirPt := s.audio.dirPt.insert i p } }

/-- A route change at an input point. -/
def State.changeIn (s : State) (i : Nat) (v : RVal) (len : Nat) (power : Bool) : State :=
  let r := (s.inPt i).change v len power
  let q := s.noteInvalid r.1
  (q.2.setInPt i q.1).deferred r.2

/-- A route change at an output point. -/
def State.changeOut (s : State) (k : Nat) (v : RVal) (len : Nat) (power : Bool) : State :=
  let r := (s.outPt k).change v len power
  let q := s.noteInvalid r.1
  (q.2.setOutPt k q.1).deferred r.2

/-- A route change at an insert point. -/
def State.changeIns (s : State) (k : Nat) (v : RVal) (len : Nat) (power : Bool) : State :=
  let r := (s.insPt k).change v len power
  (s.setInsPt k r.1).deferred r.2

/-- A route change at a direct output point. -/
def State.changeDir (s : State) (i : Nat) (v : RVal) (len : Nat) (power : Bool) : State :=
  let r := (s.dirPt i).change v len power
  (s.setDirPt i r.1).deferred r.2

/-- Every route point's episode of an invalid source is judged anew (R74: a rate change, a format change). -/
def State.checkInvalid (s : State) : State :=
  let s := (s.audio.inPt.map (·.1)).foldl (fun s i =>
    let q := s.noteInvalid (s.inPt i)
    q.2.setInPt i q.1) s
  (s.audio.outPt.map (·.1)).foldl (fun s k =>
    let q := s.noteInvalid (s.outPt k)
    q.2.setOutPt k q.1) s

/-! ### A/B selection (R80 to R82) -/

/-- A strip's selection. -/
def State.ab (s : State) (i : Nat) : Ab := s.audio.ab.get Ab.reset i

/-- Stores a strip's selection. -/
def State.setAb (s : State) (i : Nat) (a : Ab) : State := { s with audio := { s.audio with ab := s.audio.ab.insert i a } }

/-- Source A or B of a strip. -/
def State.srcOf (s : State) (i : Nat) (b : Bool) : Nat := s.code 4 i (if b then 1 else 0)

/-- The difference of the port terms of A and B, B - A; 0 when B is none (R81). -/
def State.padDiff (s : State) (i : Nat) : Int :=
  if s.srcOf i true = 0 then 0 else (s.dIn (s.srcOf i true) : Int) - s.dIn (s.srcOf i false)

/-- The difference is larger than the engine can align (R81). -/
def State.padOver (s : State) (i : Nat) : Bool := decide (8192 < (s.padDiff i).natAbs)

/-- The alignment delay of A or B; none is applied where the difference is too large. -/
def State.padOf (s : State) (i : Nat) (b : Bool) : Nat :=
  let d := s.padDiff i
  if s.padOver i then 0 else if b then (-d).toNat else d.toNat

/-- A side of a strip is failed in a lap (R79, R81). -/
def State.sideFailed (s : State) (i : Nat) (b : Bool) (lap : Nat) : Bool :=
  s.srcFailed (s.srcOf i b) lap || (b && s.padOver i)

/-- The value a strip's input point presents for a selection. -/
def State.inVal (s : State) (i : Nat) (b : Bool) : RVal := ⟨s.srcOf i b, s.padOf i b⟩

/-- The pad_range episode of a strip (R81). -/
def State.notePad (s : State) (i : Nat) : State :=
  let ovr := s.padOver i
  let a := s.ab i
  (s.setAb i { a with padRange := ovr }).setEventIf (ovr && !a.padRange) Reg.GRF_EVENT_ev 7

/-- A run count after one more lap. -/
def runCount (met : Bool) (n : Nat) : Nat := if met then min (n + 1) 65535 else 0

/-- What R80 wants. -/
def abWant (mode failLaps revertLaps : Nat) (a : Ab) : Bool :=
  if mode = 0 then false
  else if mode = 1 then true
  else if !a.selB && decide (failLaps ≤ a.failA) && decide (1 ≤ a.okB) then true
  else if a.selB && decide (failLaps ≤ a.failB) && decide (1 ≤ a.okA) then false
  else if a.selB && mode == 3 && decide (revertLaps ≤ a.okA) then false
  else a.selB

/-- AB_EVALUATE (R80): one strip at a lap boundary, the lap just ended given. -/
def State.abEvaluate (s : State) (lap i : Nat) : State :=
  let s := s.notePad i
  let fa := s.sideFailed i false lap
  let fb := s.sideFailed i true lap
  let a := s.ab i
  let a := { a with
    failA := runCount fa a.failA, okA := runCount (!fa) a.okA, failB := runCount fb a.failB, okB := runCount (!fb) a.okB }
  let failLaps := s.code 4 i 3
  let want := abWant (s.code 4 i 2) failLaps (s.code 4 i 4) a
  let moved := want != a.selB
  let a := { a with selB := want }
  let bad := s.srcOf i false != 0 && s.srcOf i true != 0 &&
    (if want then decide (failLaps ≤ a.failB) && decide (1 ≤ a.failA)
      else decide (failLaps ≤ a.failA) && decide (1 ≤ a.failB))
  let s := s.setEventIf (bad && !a.both) Reg.GRF_EVENT_ev 1
  let s := s.setAb i { a with both := bad }
  let s := if moved then (s.bump Reg.GRF_FAILOVERS_count 1).setEvent Reg.GRF_EVENT_ev 0 else s
  s.changeIn i (s.inVal i want) (s.code 4 i 5) true

/-- AB_REEVALUATE (R82): a page swap changed a strip's sources or mode. -/
def State.abReevaluate (s : State) (lap i : Nat) (prof : Prof) : State :=
  let s := s.notePad i
  let mode := s.code 4 i 2
  let sel := if mode = 0 then false else if mode = 1 then true
    else if !s.sideFailed i false lap then false
    else !s.sideFailed i true lap
  let s := s.setAb i { s.ab i with selB := sel, failA := 0, okA := 0, failB := 0, okB := 0, both := false }
  s.changeIn i (s.inVal i sel) prof.route prof.power

/-- Strips whose input patch is not at its defaults, or that have a selection; of the strips that the engine has at the
rate in force (R2): those beyond are not evaluated (DEDUCED, log entry 19). -/
def State.abStrips (s : State) : List Nat :=
  let keys (t : Tbl A48) := (t.filter (fun e => pidClass e.1 == 4)).map (fun e => pidIndex e.1)
  ((keys s.vault.page0 ++ keys s.vault.page1 ++ s.audio.ab.map (·.1)).eraseDups).filter (fun i =>
    !s.high || decide (i < 512))

/-- A health code of GRF_AB_STATE and of a snapshot: 0 healthy, 1 failed, 2 none or beyond capacity. -/
def State.healthCode (s : State) (i : Nat) (b : Bool) : Nat :=
  let v := s.srcOf i b
  if v = 0 ∨ !s.srcValid v then 2 else b2n (s.audio.failed.get false v || (b && s.padOver i))

/-- Marks the sources that strips name, at the end of a lap (R79). -/
def State.markHealth (s : State) (lap : Nat) : State :=
  let codes := s.abStrips.flatMap (fun i => [s.srcOf i false, s.srcOf i true])
  let failed := codes.foldl (fun (t : Tbl Bool) v => t.insert v (s.srcFailed v lap)) []
  { s with audio := { s.audio with failed := failed } }

/-- Sources that a page swap names anew take the mark of the lap that has just ended (R79, R93). -/
def State.markNew (s : State) (lap i : Nat) : State :=
  let add (t : Tbl Bool) (v : Nat) : Tbl Bool := if t.has v then t else t.insert v (s.srcFailed v lap)
  { s with audio := { s.audio with failed := add (add s.audio.failed (s.srcOf i false)) (s.srcOf i true) } }

/-! ### Delay units (R99, R100) -/

/-- Stores a delay unit's record: key object × 8 + tap. -/
def State.setDelay (s : State) (key : Nat) (u : DelayU) : State :=
  { s with audio := { s.audio with delay := s.audio.delay.insert key u } }

/-- The parameter that sets a delay: a strip's dly or a rack's tap_dly. -/
def delayPid (key : Nat) : Nat :=
  let o := key / 8
  if o < 1344 then pid (placeClass o) (placeIndex o) 2 else pid 7 (o - 1344) (0x20 + 2 * (key % 8))

/-- DELAY_COMPARE (R100). -/
def State.delayCompare (s : State) (key : Nat) : State :=
  let u := s.audio.delay.get DelayU.reset key
  let p := delayPid key
  let d := (s.vault.live p).toNat
  if !u.valid then s.setDelay key ⟨d, d, none, true⟩
  else if d = u.cur ∨ fadeRuns u.fade then s
  else
    let prof := s.profOf p
    if prof.route = 0 then s.setDelay key ⟨d, d, none, true⟩
    else s.setDelay key ⟨d, u.cur, some ⟨prof.route, 0, prof.power⟩, true⟩

/-- The delay units of a placed object: one of a strip, one for each tap of a multi-tap delay. -/
def State.delayKeys (s : State) (o : Nat) : List Nat :=
  if o < 1344 then [8 * o]
  else if s.rackKind o = 3 then (List.range (s.code 7 (o - 1344) 1)).map (fun t => 8 * o + t)
  else []

/-- DELAY_FADE_END (R100). -/
def delayFadeEnd (key : Nat) (s : State) : State :=
  let u := s.audio.delay.get DelayU.reset key
  match u.fade with
  | none => s
  | some f => if f.runs then s else (s.setDelay key { u with fade := none, old := u.cur }).delayCompare key

/-- Writes a lap of values into an owner's line from a count on, in both lines during a relocation (R99, R225). -/
def State.lineLap (s : State) (kind index : Nat) (m : Nat) : List A48 → State
  | [] => s
  | v :: vs =>
    let s := match s.allocOf kind index with
      | none => s
      | some a => s.linePut a.first a.count m v
    let s := match s.fab.relocs.find? (fun r => kind == 1 && r.index == index && r.both) with
      | none => s
      | some r =>
        let s := s.linePut r.first r.count m v
        match r.twin with
        | none => s
        | some t => s.linePut t r.count m v
    s.lineLap kind index (m + 1) vs

/-- A lap read from an owner's line, d samples back. -/
def State.lineBack (s : State) (kind index m n : Nat) (d : Nat) : List A48 :=
  match s.allocOf kind index with
  | none => List.replicate n 0
  | some a => (List.range n).map (fun (j : Nat) => s.lineGet a.first a.count (((m + j : Nat) : Int) - d))

/-- DELAY_UNIT (R99): a strip's values of the running lap through its delay. -/
def State.delayLap (s : State) (o : Nat) (vs : List A48) : List A48 × State :=
  let m := s.lap * s.nLap
  let idx := lineIndex o
  let s := s.lineLap 1 idx m vs
  let u := s.delayU o
  if (s.allocOf 1 idx).isNone || (u.cur == 0 && !fadeRuns u.fade) then (vs, s)
  else
    let new := s.lineBack 1 idx m vs.length u.cur
    if fadeRuns u.fade then
      let old := s.lineBack 1 idx m vs.length u.old
      let r := fadeLap u.fade (old.zip new)
      (r.1, s.setDelay (8 * o) { u with fade := r.2 })
    else (new, s)

/-! ### Insert points (R83) -/

/-- D_rack of an instance, in samples (R83, R133). -/
def State.dRack (s : State) (r : Nat) : Nat := if s.code 7 r 0 = 1 then 2 * 2 ^ s.code 7 r 1 else 0

/-- A lap of samples d back in a history that holds the lap's samples first, newest first. -/
def histBack (n d : Nat) (h : List A48) : List A48 := (List.range n).map (fun j => h.getD (n - 1 - j + d) 0)

/-- What an insert point passes on at the end of a lap for one setting. -/
def State.insVal (s : State) (k : Nat) (v : RVal) : List A48 :=
  let n := s.nLap
  let h := s.audio.insHist.get [] k
  if v.src = 0xFFFF then histBack n 0 h
  else if v.aux = 0 ∧ (s.slotOf (1344 + v.src)).isSome then s.audio.rackOut.get s.zeroLap (1344 + v.src)
  else histBack n (s.dRack v.src) h

/-- The insert points of present columns pass on their lap: what entered them is in `insIn` (R83). -/
def State.insertLap (s : State) : State :=
  let live := (s.audio.insIn.filter (fun e => s.layout.insOn e.1)).map (·.1)
  let s := live.foldl (fun s k =>
    let h := ((s.audio.insIn.get s.zeroLap k).reverse ++ s.audio.insHist.get [] k).take 1032
    { s with audio := { s.audio with insHist := s.audio.insHist.insert k h } }) s
  let s := { s with audio := { s.audio with
    insOut := [], insPt := s.audio.insPt.map (fun e => if live.contains e.1 then e else (e.1, e.2.pass s.nLap)) } }
  live.foldl (fun s k =>
    let r := (s.insPt k).lap (s.insVal k)
    let s := { s with audio := { s.audio with insOut := s.audio.insOut.insert k r.1 } }
    if fadeRuns (s.insPt k).fade then s.setInsPt k r.2 else s) s

/-! ### The layout mute and layout changes (R87, R88, R438) -/

/-- The mute gain of sample i of a lap: none where it is 1.0. -/
def State.muteGain (s : State) (j : Nat) : Option A48 :=
  let i := s.audio.mutePos + j
  match s.audio.mutePhase with
  | .pass => none
  | .fadeOut => some (if i < 32 then gOut false 32 i else 0)
  | .silent => some 0
  | .fadeIn => if i < 32 then some (gIn false 32 i) else none

/-- A sink's lap through the layout mute. -/
def State.muteLap (s : State) (vs : List A48) : List A48 :=
  if s.audio.mutePhase = .pass then vs
  else (vs.zipIdx).map (fun e => match s.muteGain e.2 with
    | none => e.1
    | some g => gainA g e.1)

/-- A layout mute gain other than 1.0 acts in this lap (R174). -/
def State.layoutMuted (s : State) : Bool := (List.range s.nLap).any (fun j => (s.muteGain j).isSome)

/-- The mute's position after a lap. -/
def State.muteStep (s : State) : State :=
  let a := s.audio
  match a.mutePhase with
  | .fadeOut =>
    let i := a.mutePos + s.nLap
    { s with audio := { a with mutePos := if i < 32 then i else 0, mutePhase := if i < 32 then .fadeOut else .silent } }
  | .fadeIn =>
    let i := a.mutePos + s.nLap
    { s with audio := { a with mutePos := if i < 32 then i else 0, mutePhase := if i < 32 then .fadeIn else .pass } }
  | _ => s

/-- The mute begins a fade to silence, unless it is silent or fading already. -/
def State.muteOut (s : State) : State :=
  match s.audio.mutePhase with
  | .silent => s
  | .fadeOut => s
  | _ => { s with audio := { s.audio with mutePhase := .fadeOut, mutePos := 0 } }

/-- The mute begins its fade-in, unless a neighbour's layout still differs (R88). -/
def State.muteIn (s : State) : State :=
  if s.casc.layoutMute || s.audio.mutePhase != .silent then s
  else { s with audio := { s.audio with mutePhase := .fadeIn, mutePos := 0, muteLap := 0 } }

/-- A neighbour's live layout begins or ceases to differ (R88). -/
def State.layoutDiffers (s : State) (bad : Bool) : State :=
  if bad == s.casc.layoutMute then s
  else
    let s := { s with casc := { s.casc with layoutMute := bad } }.wr Reg.GRF_LAYOUT_STATUS_mismatch (b2n bad)
    if bad then ({ s with audio := { s.audio with muteLap := 0 } }.muteOut).setEvent Reg.GRF_EVENT_ev 6
    else { s with audio := { s.audio with muteLap := s.lap + s.layout.sMtx + 2 } }

/-- At a lap boundary a mute of R88 fades in from its lap on, once its fade-out is complete; an apply that has begun its own
fade-out holds it until its fade-in. -/
def State.muteBoundary (s : State) : State :=
  if s.audio.muteLap ≠ 0 ∧ s.audio.muteLap ≤ s.lap ∧ s.rd Reg.GRF_LAYOUT_STATUS_state ≠ 2 ∧
      s.rd Reg.GRF_LAYOUT_STATUS_state ≠ 3 then s.muteIn else s

/-- The setting of an insert point in the live page. -/
def State.insLive (s : State) (k : Nat) : RVal :=
  let c := placeClass (k / 2)
  let i := placeIndex (k / 2)
  ⟨s.code c i (0xF00 + 2 * (k % 2)), s.code c i (0xF01 + 2 * (k % 2))⟩

/-- The insert points that have a setting in either page. -/
def State.insKeys (s : State) : List Nat :=
  ((s.vault.pids (fun p => decide (1 ≤ pidClass p) && decide (pidClass p ≤ 3) && decide (0xF00 ≤ pidNum p) &&
    decide (pidNum p ≤ 0xF03))).map (fun p =>
      2 * placeOf (pidClass p) (pidIndex p) + (pidNum p - 0xF00) / 2)).eraseDups

/-- A layout comes into force: points of columns that it brings present their live settings, and those of columns that
it lacks present none (R83). -/
def State.insTake (s : State) (before : Layout) : State :=
  s.insKeys.foldl (fun s k =>
    if s.layout.insOn k == before.insOn k then s
    else s.setInsPt k (if s.layout.insOn k then ⟨s.insLive k, s.insLive k, none, none, false⟩ else RoutePt.noRack)) s

/-- A layout command is refused (R87). -/
def State.layoutRefuse (s : State) (reason : Nat) : State :=
  let s := s.wr Reg.GRF_LAYOUT_STATUS_reason reason
  let s := if s.audio.layout.isSome then s else s.wr Reg.GRF_LAYOUT_STATUS_state 4
  s.setEvent Reg.GRF_EVENT_ev 5

/-- LAYOUT_APPLY_AT_LAP and LAYOUT_APPLY_EARLIEST (R87, R438): `target` is none for the earliest lap. -/
def layoutApply (target : Option Nat) (s : State) : State :=
  let first := s.lap + 6 + s.fLap
  if s.audio.layout.isSome then s.layoutRefuse 2
  else if s.run && (match target with
    | some l => decide (l < first)
    | none => false) then s.layoutRefuse 1
  else
    let bits := (s.reg Reg.GRF_LAYOUT_in_ins.off).toNat
    let lap := if s.run then target.getD first else 0
    let s := { s with audio := { s.audio with layout := some ⟨lap, bits⟩ } }
    (s.wr Reg.GRF_LAYOUT_STATUS_state 1).wr Reg.GRF_LAYOUT_STATUS_reason 0

/-- LAYOUT_ABANDON (R87): until the fade-out begins. -/
def layoutAbandon (s : State) : State :=
  if s.audio.layout.isSome ∧ s.rd Reg.GRF_LAYOUT_STATUS_state = 1 then
    { s with audio := { s.audio with layout := none } }.wr Reg.GRF_LAYOUT_STATUS_state 0
  else s

/-- LAYOUT_FADE_OUT_START (R87): in lap t - F. -/
def layoutFadeOut (s : State) : State :=
  match s.audio.layout with
  | some p =>
    if s.run ∧ s.rd Reg.GRF_LAYOUT_STATUS_state = 1 ∧ s.lap + s.fLap = p.lap then
      s.muteOut.wr Reg.GRF_LAYOUT_STATUS_state 2
    else s
  | none => s

/-- LAYOUT_TAKE_EFFECT (R87): at lap t. -/
def layoutTake (s : State) : State :=
  match s.audio.layout with
  | some p =>
    if s.run ∧ s.rd Reg.GRF_LAYOUT_STATUS_state = 2 ∧ s.lap = p.lap then
      let s := ((s.putLayout p.bits).insTake s.layout).wr Reg.GRF_LAYOUT_STATUS_state 3
      { s with audio := { s.audio with mutePhase := .silent, mutePos := 0 } }
    else s
  | none => s

/-- LAYOUT_FADE_IN_START (R87): in lap t + S_m + 2. -/
def layoutFadeIn (s : State) : State :=
  match s.audio.layout with
  | some p =>
    if s.run ∧ s.rd Reg.GRF_LAYOUT_STATUS_state = 3 ∧ s.lap = p.lap + s.layout.sMtx + 2 then s.muteIn else s
  | none => s

/-- LAYOUT_DONE (R87): after the fade-in. -/
def layoutDone (s : State) : State :=
  match s.audio.layout with
  | some p =>
    if s.run ∧ s.rd Reg.GRF_LAYOUT_STATUS_state = 3 ∧ p.lap + s.layout.sMtx + 2 + s.fLap ≤ s.lap then
      let s := { s with audio := { s.audio with layout := none } }
      (s.wr Reg.GRF_LAYOUT_STATUS_state 0).setEvent Reg.GRF_EVENT_ev 4
    else s
  | none => s

/-- An armed layout is in force at processing start (R438). -/
def State.layoutAtStart (s : State) : State :=
  match s.audio.layout with
  | some p =>
    let s := ((s.putLayout p.bits).insTake s.layout).wr Reg.GRF_LAYOUT_STATUS_state 0
    { s with audio := { s.audio with layout := none } }.setEvent Reg.GRF_EVENT_ev 4
  | none => s

/-! ### Generators (R144, R145) -/

/-- A generator. -/
def State.genAt (s : State) (g : Nat) : Gen := s.audio.gens.get (Gen.reset g) g

/-- Stores a generator. -/
def State.setGen (s : State) (g : Nat) (x : Gen) : State :=
  { s with audio := { s.audio with gens := s.audio.gens.insert g x } }

/-- A mode and a seed become effective: a mode that becomes sine starts its phase at 0, one that becomes noise, and
a new seed, start the noise word at the seed. -/
def Gen.take (x : Gen) (mode seed : Nat) : Gen :=
  { x with
    mode := mode
    seed := seed
    phi := if mode = 1 ∧ x.mode ≠ 1 then 0 else x.phi
    w := if (mode = 2 ∧ x.mode ≠ 2) ∨ seed ≠ x.seed then seed else x.w }

/-- A generator's new mode and seed as a route change: source mode, second value seed (R90, R145). -/
def Gen.change (x : Gen) (v : RVal) (len : Nat) (power : Bool) : Gen × Bool :=
  if fadeRuns x.fade then
    let want : RVal := match x.held with
      | some h => h.val
      | none => ⟨x.mode, x.seed⟩
    if v = want then (x, false) else ({ x with held := some ⟨v, len, power⟩ }, true)
  else if v = ⟨x.mode, x.seed⟩ then ({ x with held := none }, false)
  else
    let y := { x.take v.src v.aux with oldMode := x.mode, oldPhi := x.phi, oldW := x.w, held := none }
    ({ y with fade := if len = 0 then none else some ⟨len, 0, power⟩ }, false)

/-- A generator's fade ends. -/
def Gen.fadeEnd (x : Gen) : Gen :=
  match x.fade with
  | none => x
  | some f =>
    if f.runs then x
    else
      let y := { x with fade := none, held := none }
      match x.held with
      | none => y
      | some h => (y.change h.val h.len h.power).1

/-- The next noise word (R145). -/
def noiseNext (w : Nat) : Nat :=
  let w := w ^^^ (w * 2 ^ 13 % 2 ^ 32)
  let w := w ^^^ (w / 2 ^ 17)
  w ^^^ (w * 2 ^ 5 % 2 ^ 32)

/-- One sample of a waveform: its value before the level, its phase and its noise word after it. -/
def genWave (mode phi w inc period : Nat) (m : Int) : A48 × Nat × Nat :=
  match mode with
  | 1 => (BitVec.ofInt 48 (fxRound (fxSinTurn phi (2 ^ 48)) 39), (phi + inc) % 2 ^ 48, w)
  | 2 =>
    let v := noiseNext w
    (BitVec.ofInt 48 ((BitVec.ofNat 32 v).toInt * 2 ^ 8), phi, v)
  | 3 => (if m % (max period 1 : Nat) = 0 then a48One else 0, phi, w)
  | _ => (0, phi, w)

/-- GENERATOR_SAMPLE (R145): the counts of a lap with their gains. -/
def genLap (inc period : Nat) : List (Int × A48) → Gen → List A48 × Gen
  | [], x => ([], x)
  | (m, g) :: t, x =>
    let a := genWave x.mode x.phi x.w inc period m
    let new := gainA g a.1
    let y := { x with phi := a.2.1, w := a.2.2 }
    let r :=
      if fadeRuns x.fade then
        let b := genWave x.oldMode x.oldPhi x.oldW inc period m
        (fadeSample x.fade (gainA g b.1) new, { y with oldPhi := b.2.1, oldW := b.2.2, fade := fadeNext x.fade })
      else (new, y)
    let q := genLap inc period t r.2
    (r.1 :: q.1, q.2)

/-- The generators' samples of a capture lap, by source code. -/
def State.captureGens (s : State) (lap : Nat) : Tbl (List A48) × State :=
  (List.range 8).foldl (fun (a : Tbl (List A48) × State) g =>
    let s := a.2
    let x := s.genAt g
    let sm := s.smooth x.g (pid 8 g 0) (pid 8 g 1)
    let r := genLap (s.par 8 g 2).toNat (s.code 8 g 4) ((s.countsOf lap).zip sm.1) { x with g := sm.2 }
    (a.1.insert (0x6000 + g) (s.unlessLate (pid 8 g 0) r.1), s.setGen g r.2)) ([], s)

/-! ### Fade ends -/

/-- ROUTE_FADE_END (R90). -/
def routeFadeEnd (pt : Point) (s : State) : State :=
  match pt with
  | .input n =>
    let q := s.noteInvalid (s.inPt n).fadeEnd
    q.2.setInPt n q.1
  | .insert obj stage => s.setInsPt (2 * obj + stage) (s.insPt (2 * obj + stage)).fadeEnd
  | .direct n => s.setDirPt n (s.dirPt n).fadeEnd
  | .sink k =>
    let q := s.noteInvalid (s.outPt k).fadeEnd
    q.2.setOutPt k q.1
  | .gen n => s.setGen n (s.genAt n).fadeEnd

/-- LAYOUT_APPLY_AT_LAP (R87). -/
def execLayoutApplyAtLap (s : State) : Host.Outcome State Fault Refusal :=
  whenWf .layoutApplyAtLap (layoutApply (some (s.rd64 Reg.GRF_LAYOUT_LAP_LO_lap Reg.GRF_LAYOUT_LAP_HI_lap)) s)

/-- LAYOUT_APPLY_EARLIEST (R87). -/
def execLayoutApplyEarliest (s : State) : Host.Outcome State Fault Refusal :=
  whenWf .layoutApplyEarliest (layoutApply none s)

/-- LAYOUT_ABANDON (R87). -/
def execLayoutAbandon (s : State) : Host.Outcome State Fault Refusal :=
  whenWf .layoutAbandon (layoutAbandon s)

/-- LAYOUT_FADE_OUT_START (R87). -/
def execLayoutFadeOutStart (s : State) : Host.Outcome State Fault Refusal :=
  whenWf .layoutFadeOutStart (layoutFadeOut s)

/-- LAYOUT_TAKE_EFFECT (R87). -/
def execLayoutTakeEffect (s : State) : Host.Outcome State Fault Refusal :=
  whenWf .layoutTakeEffect (layoutTake s)

/-- LAYOUT_FADE_IN_START (R87). -/
def execLayoutFadeInStart (s : State) : Host.Outcome State Fault Refusal :=
  whenWf .layoutFadeInStart (layoutFadeIn s)

/-- LAYOUT_DONE (R87). -/
def execLayoutDone (s : State) : Host.Outcome State Fault Refusal :=
  whenWf .layoutDone (layoutDone s)

/-- ROUTE_FADE_END (R90). -/
def execRouteFadeEnd (point : Point) (s : State) : Host.Outcome State Fault Refusal :=
  whenWf (.routeFadeEnd point) (routeFadeEnd point s)

/-- DELAY_FADE_END (R100). -/
def execDelayFadeEnd (tap : Nat) (s : State) : Host.Outcome State Fault Refusal :=
  whenWf (.delayFadeEnd tap) (delayFadeEnd tap s)

end Sys2Proof.Machine
end

