-- ==== Sys2Proof/Machine/Placement.lean ====
section
/-! DEFINITION. Placement (R55 to R58, R67, R111, R131, R133, R438). -/

namespace Sys2Proof.Machine

/-! ### Cost and footprint -/

/-- What an object asks of its slot: quarter cycles per sample, the quarter cycles counted again because a
transition can crossfade them, and the words of P, S and X. -/
structure Load where
  cost : Nat
  extra : Nat
  p : Nat
  st : Nat
  x : Nat
  w : Nat
  deriving DecidableEq, Repr

/-- No load. -/
def Load.zero : Load := ⟨0, 0, 0, 0, 0, 0⟩

/-- The sum of two loads; W holds the values of one object at a time (R48). -/
def Load.add (a b : Load) : Load :=
  ⟨a.cost + b.cost, a.extra + b.extra, a.p + b.p, a.st + b.st, a.x + b.x, max a.w b.w⟩

/-- The kind, size and parts a rack's loft holds (R135). -/
def State.rackShape (s : State) (r : Nat) : Nat × Nat × Nat :=
  ((s.vault.loft (pid 7 r 0)).toNat, (s.vault.loft (pid 7 r 1)).toNat, (s.vault.loft (pid 7 r 2)).toNat)

/-- The shelves a rack of a shape needs at least (R133). -/
def shelvesOf : Nat × Nat × Nat → Nat
  | (1, b, p) => (3 * 2 ^ b * p + 127) / 128
  | (3, _, _) => 1
  | _ => 0

/-- Whether a shape is valid: the size lies in the range of its kind (R134). -/
def shapeValid : Nat × Nat × Nat → Bool
  | (0, _, _) => true
  | (1, b, p) => decide (4 ≤ b ∧ b ≤ 9) && decide (1 ≤ p ∧ p ≤ 64)
  | (2, t, _) => decide (1 ≤ t ∧ t ≤ 240)
  | (3, n, _) => decide (1 ≤ n ∧ n ≤ 8)
  | _ => false

/-- Whether a rack's shape is valid and its shelves are allocated (R133). -/
def State.rackReady (s : State) (r : Nat) : Bool :=
  let sh := s.rackShape r
  shapeValid sh &&
    (shelvesOf sh == 0 || match s.allocOf 2 r with
      | none => false
      | some a => decide (shelvesOf sh ≤ a.count))

/-- A rack's load (R133). -/
def rackLoad (n : Nat) : Nat × Nat × Nat → Load
  | (1, b, p) => ⟨4 * (4 * (b + 1) + 2 * p + 2), 4 * (2 * p + 2 * (b + 1)), 8, 3 * 2 ^ b + 10, 2 * n + 1024, 8 * 2 ^ b⟩
  | (2, t, _) => ⟨16 * t + 8, 16 * t, 16 * t + 8, 3 * (16 * t) + 8, 2 * n, 0⟩
  | (3, k, _) => ⟨4 * (k + 3), 4 * k, 24, 40, (2 + 2 * k) * n, 0⟩
  | _ => Load.zero

/-- An object's load: R55 with R111 and R131. A strip's delay tap counts one cycle (DEDUCED from R133,
log 12). -/
def State.loadOf (s : State) (o : Nat) : Load :=
  let n := s.nLap
  match placeClass o with
  | 1 => ⟨4 * 48 + s.nBus, 4 * (20 + 1) + s.nBus, 63 + 41 + 256, 183 + 20 + 128, 3 * n, 0⟩
  | 2 => ⟨4 * 56, 4 * (20 + 1), 63 + 41, 183 + 21, 3 * n, 0⟩
  | 3 => ⟨4 * 12 + s.nBus, 4 * (6 + 1) + s.nBus, 21 + 6 + 256, 57 + 7 + 128, 3 * n, 0⟩
  | _ => rackLoad n (s.rackShape (placeIndex o))

/-- Cycles of a lap from quarter cycles per sample, rounded up (R55). -/
def State.lapCycles (s : State) (q : Nat) : Nat := (q * s.nLap + 3) / 4

/-- The load of the objects a table places on a slot. -/
def State.slotLoad (s : State) (table : Tbl Nat) (slot : Nat) : Load :=
  (table.filter (fun e => e.2 == slot + 1)).foldl (fun a e => a.add (s.loadOf e.1)) Load.zero

/-- The most cycles a slot may cost under R56. -/
def slotBudget : Nat := 46080

/-- The reason a slot is refused: 1 budget, 2 bank footprint, 0 none (R56, R57, R133). -/
def State.slotReason (s : State) (table : Tbl Nat) (slot : Nat) : Nat :=
  let l := s.slotLoad table slot
  if s.lapCycles (l.cost + l.extra) > slotBudget then 1
  else if l.p > 16384 ∨ l.st > 16384 ∨ l.x > 16384 ∨ l.w > 16384 ∨
      (table.any (fun e => e.2 == slot + 1 && decide (1344 ≤ e.1) && !s.rackReady (e.1 - 1344))) then 2
  else 0

/-- An entry lies at or beyond its capacity at the current rate (R56). -/
def State.entryHigh (s : State) (o : Nat) : Bool :=
  s.high && (match placeClass o with
    | 1 => decide (512 ≤ o)
    | 2 => decide (128 ≤ placeIndex o)
    | 3 => decide (32 ≤ placeIndex o)
    | _ => false)

/-- The staged placement: index to slot + 1. -/
def State.stagedTable (s : State) : Tbl Nat :=
  (s.tile.staged.filter (fun e => decide (32 ≤ e.2))).map (fun e => (e.1, e.2 % 32 + 1))

/-- The first check of R57 that fails: the reason, and the slot for reasons 1 and 2. -/
def State.placeCheck (s : State) (target : Option Nat) : Nat × Nat :=
  let table := s.stagedTable
  if s.run && s.power.gated then (6, 0)
  else if s.tile.pend.isSome then (5, 0)
  else if s.run && (match target with | some l => decide (l < s.lap + 6) | none => false) then (4, 0)
  else if table.any (fun e => s.entryHigh e.1) then (3, 0)
  else
    match (List.range 32).find? (fun slot => s.slotReason table slot != 0) with
    | some slot => (s.slotReason table slot, slot)
    | none => (0, 0)

/-- Entries that move between two slots of one heat (R58). -/
def movers (old new : Tbl Nat) : List Nat :=
  (new.filter (fun e => old.get 0 e.1 != 0 && old.get 0 e.1 != e.2 &&
    (old.get 0 e.1 - 1) / 8 == (e.2 - 1) / 8)).map (·.1)

/-- A placement command (R57, R438): refused with a reason, or armed for a lap. -/
def placeApply (target : Option Nat) (s : State) : State :=
  let r := s.placeCheck target
  if r.1 = 0 then
    let lap := if s.run then target.getD (s.lap + 6) else 0
    let table := s.stagedTable
    let moving := !(movers s.tile.placed table).isEmpty && s.run
    let s := { s with tile := { s.tile with pend := some ⟨lap, table, []⟩ } }
    ((s.wr Reg.TIL_PLACE_STATUS_state (if moving then 1 else 2)).wr Reg.TIL_PLACE_STATUS_reason 0).wr
      Reg.TIL_PLACE_STATUS_slot 0
  else
    let s := s.wr Reg.TIL_PLACE_STATUS_reason r.1
    let s := s.wr Reg.TIL_PLACE_STATUS_slot r.2
    let s := if s.tile.pend.isSome then s else s.wr Reg.TIL_PLACE_STATUS_state 3
    s.setEvent Reg.TIL_EVENT_ev 7

/-- What TIL_SLOTs shows: the costs of the placement in force at the rate in force (R55, R56, R71). -/
def State.slotCost (s : State) (slot : Nat) : Nat :=
  let l := s.slotLoad s.tile.placed slot
  min 4095 ((s.lapCycles l.cost + 15) / 16) + 65536 * min 4095 ((s.lapCycles (l.cost + l.extra) + 15) / 16)

/-- An object leaves the placement: it stops, what it put out in the lap before leaves as usual (R58). -/
def State.stopObj (s : State) (o : Nat) : State :=
  let s := s.zeroState o
  { s with tile := { s.tile with ramp := s.tile.ramp.erase o, cold := s.tile.cold.erase o } }

/-- Whether an object of a new table restarts cold: it is new, or comes from another heat (R58). -/
def restartsCold (old : Tbl Nat) (e : Nat × Nat) : Bool :=
  old.get 0 e.1 == 0 || (old.get 0 e.1 - 1) / 8 != (e.2 - 1) / 8

/-- Every object takes its new slot at once (R58). -/
def takePlacement (table : Tbl Nat) (s : State) : State :=
  let old := s.tile.placed
  let s := { s with tile := { s.tile with placed := table, pend := none } }
  let gone := (old.filter (fun e => table.get 0 e.1 == 0)).map (·.1)
  let s := gone.foldl State.stopObj s
  ((table.filter (restartsCold old)).map (·.1)).foldl State.coldObj s

/-- PLACE_DATA_ACCESS (R57): reads or writes the staging entry and advances the index. -/
def placeData (write : Bool) (val : Word) (s : State) : State :=
  let i := s.rd Reg.TIL_PLACE_ADDR_index
  let s := if write
    then { s with tile := { s.tile with
      staged := s.tile.staged.put 0 i (val.toNat % 32 + 32 * (val.toNat / 2 ^ 31)) }, resp := .ok 0 }
    else
      let e := s.tile.staged.get 0 i
      { s with resp := .ok (BitVec.ofNat 64 (e % 32 + 2 ^ 31 * (e / 32))) }
  s.wr Reg.TIL_PLACE_ADDR_index (i + 1)

/-- PLACE_DATA_ACCESS (R57). -/
def execPlaceDataAccess (write : Bool) (val : Word) (s : State) : Host.Outcome State Fault Refusal :=
  whenWf (.placeDataAccess write val) (placeData write val s)

/-- PLACE_APPLY_AT_LAP (R57, R438). -/
def execPlaceApplyAtLap (s : State) : Host.Outcome State Fault Refusal :=
  whenWf .placeApplyAtLap (placeApply (some (s.rd64 Reg.TIL_PLACE_LAP_LO_lap Reg.TIL_PLACE_LAP_HI_lap)) s)

/-- PLACE_APPLY_EARLIEST (R57, R438). -/
def execPlaceApplyEarliest (s : State) : Host.Outcome State Fault Refusal :=
  whenWf .placeApplyEarliest (placeApply none s)

/-- PLACE_ABANDON (R57, R438): a pending apply is dropped. -/
def execPlaceAbandon (s : State) : Host.Outcome State Fault Refusal :=
  whenWf .placeAbandon
    (if s.tile.pend.isSome then
      { s with tile := { s.tile with pend := none } }.wr Reg.TIL_PLACE_STATUS_state 0
    else s)

/-- The heat bridge has copied a moving object (R58); with the last of them the apply is armed. -/
def migrationCopy (o : Nat) (s : State) : State :=
  match s.tile.pend with
  | none => s
  | some p =>
    let mv := movers s.tile.placed p.table
    if mv.contains o && !p.copied.contains o then
      let p := { p with copied := p.copied ++ [o] }
      let s := { s with tile := { s.tile with pend := some p } }
      if mv.all (fun x => p.copied.contains x) then s.wr Reg.TIL_PLACE_STATUS_state 2 else s
    else s

/-- MIGRATION_COPY (R58). -/
def execMigrationCopy (obj : Nat) (s : State) : Host.Outcome State Fault Refusal :=
  whenWf (.migrationCopy obj) (migrationCopy obj s)

/-- PLACEMENT_TAKE_EFFECT (R58): at the target lap boundary. -/
def execPlacementTakeEffect (s : State) : Host.Outcome State Fault Refusal :=
  whenWf .placementTakeEffect
    (match s.tile.pend with
    | none => s
    | some p =>
      if s.run && s.lap == p.lap then
        ((takePlacement p.table s).wr Reg.TIL_PLACE_STATUS_state 0).setEvent Reg.TIL_EVENT_ev 6
      else s)

/-- A tile whose slot's objects ramp no more is active (R67, R71). -/
def State.settleTile (s : State) (slot : Nat) : State :=
  match s.slotTile slot with
  | none => s
  | some t =>
    if s.tstate t = 1 ∧ (s.objsOn slot).all (fun o => (s.tile.ramp.get none o).isNone) then s.setTstate t 0
    else s

/-- An object's ramp has run: it passes its values unchanged (R67). -/
def warmUpRampEnd (o : Nat) (s : State) : State :=
  match s.tile.ramp.get none o with
  | none => s
  | some r =>
    if r.len ≤ r.pos then
      let s := { s with tile := { s.tile with ramp := s.tile.ramp.erase o } }
      match s.slotOf o with
      | none => s
      | some slot => s.settleTile slot
    else s

/-- WARM_UP_RAMP_END (R67). -/
def execWarmUpRampEnd (obj : Nat) (s : State) : Host.Outcome State Fault Refusal :=
  whenWf (.warmUpRampEnd obj) (warmUpRampEnd obj s)

end Sys2Proof.Machine
end

