-- ==== Sys2Proof/Machine/Rings.lean ====
section
/-! DEFINITION. Descriptor rings: doorbells, taking, enabling, halting, moderation and reset (R179, R181,
R184 to R203). -/

namespace Sys2Proof.Machine

/-! ### Decode misses (R184) -/

/-- A decode miss of a BAR: counted, captured while none is held, and completed by the BAR's policy. -/
def State.decodeMiss (s : State) (bar off : Nat) (write : Bool) : State :=
  let s := s.bump Reg.HST_MISS_COUNT_count 1
  let s := if s.on Reg.HST_MISS_INFO_valid then s else
    let s := (s.wr Reg.HST_MISS_INFO_bar bar).wr Reg.HST_MISS_INFO_write (b2n write)
    let s := (s.wr Reg.HST_MISS_INFO_valid 1).wr Reg.HST_MISS_OFF_offset off
    s.setEvent Reg.HST_EVENT_ev 1
  let pol := if bar = 0 then Reg.HST_CFG_pol_bar0 else if bar = 1 then Reg.HST_CFG_pol_bar2 else Reg.HST_CFG_pol_bar4
  { s with resp := if s.on pol then .ok 0 else .unsupported }

/-! ### Doorbells (R181, R186) -/

/-- The last doorbell index written of a ring. -/
def State.doorbell (s : State) (r : Nat) : Nat := s.host.doorbell.get 0 r

/-- Entries of a ring that the engine owns (R186). -/
def State.owned (s : State) (r : Nat) : Nat :=
  (s.doorbell r + 65536 - s.rd (Reg.HST_RSTAT_eidx r)) % 65536

/-- A doorbell write of a ring: ignored while the ring is disabled; entries beyond the ring's size halt it. -/
def State.ringDoorbell (s : State) (r idx : Nat) : State :=
  if !s.ringOn r then s.setEvent Reg.HST_EVENT_ev 2
  else
    let s := { s with host := { s.host with doorbell := s.host.doorbell.insert r idx } }
    if s.ringRuns r && decide (s.ringSize r < s.owned r) then s.haltRing r 4 else s

/-- Host accesses reach the engine: it is powered and neither POR_N nor PERST_N is low (R404, R406). -/
def State.hostReaches (s : State) : Bool := s.power.main && !s.power.porLow && !s.power.perstLow

/-- DOORBELL_WRITE (R181, R184, R186), and BAR2's other accesses: a doorbell write takes bits [15:0]; a read
answers the last index written and the engine's index; an odd word reads 0 and ignores writes; any other access, and
in KEEP every access (R413), is a decode miss. -/
def doorbellWrite (off size : Nat) (write : Bool) (val : Word) (s : State) : State :=
  if !s.hostReaches then s
  else if off % 4 ≠ 0 ∨ size ≠ 4 ∨ 0x1FF < off ∨ s.pstate = 6 then s.decodeMiss 1 off write
  else if off % 8 = 4 then { s with resp := .ok 0 }
  else if write then { s with resp := .ok 0 }.ringDoorbell (off / 8) (val.toNat % 65536)
  else { s with resp := .ok (BitVec.ofNat 64 (s.doorbell (off / 8) + 65536 * s.rd (Reg.HST_RSTAT_eidx (off / 8)))) }

/-! ### Taking descriptors (R187 to R194) -/

/-- The ring function of a type code, and whether the type chains (R191): none for a reserved code. -/
def typeFunc : Nat → Option (Nat × Bool)
  | 0x01 => some (1, true)
  | 0x02 => some (1, true)
  | 0x03 => some (1, false)
  | 0x04 => some (1, false)
  | 0x05 => some (2, false)
  | 0x08 => some (3, false)
  | 0x09 => some (4, false)
  | 0x0C => some (5, true)
  | 0x0D => some (6, false)
  | 0x10 => some (7, false)
  | 0x11 => some (8, false)
  | 0x14 => some (9, true)
  | _ => none

/-- The direction of a ring function: true for engine → host; none for an unused or reserved code. -/
def funcDir : Nat → Option Bool
  | 1 => some false
  | 2 => some true
  | 3 => some false
  | 4 => some true
  | 5 => some false
  | 6 => some true
  | 7 => some true
  | 8 => some true
  | 9 => some false
  | _ => none

/-- Bits of word 0 that a type leaves reserved: bit 30 and its unused flags [23:18]. -/
def reservedBits (type : Nat) : Nat :=
  2 ^ 30 + (match type with
    | 0x02 => 0xF80000
    | 0x03 => 0x800000
    | 0x08 => 0xF80000
    | _ => 0xFC0000)

/-- A type's length is in range (R193, R194). -/
def lengthOk (type len : Nat) : Bool :=
  match type with
  | 0x01 => decide (1 ≤ len) && decide (len ≤ 1024)
  | 0x02 => decide (1 ≤ len) && decide (len ≤ 1024)
  | 0x03 => decide (len < 16)
  | 0x04 => len == 0
  | 0x05 => decide (1 ≤ len) && len % 64 == 0
  | 0x08 => decide (1 ≤ len)
  | 0x09 => decide (1 ≤ len)
  | 0x0C => decide (1 ≤ len) && decide (len ≤ 9216)
  | 0x0D => decide (64 ≤ len) && decide (len ≤ 16384)
  | 0x10 => len == 0
  | _ => true

/-- A type's buffer address is aligned, or words 2 and 3 are 0 where it uses none (R193, R194). -/
def addressOk (type addr : Nat) : Bool :=
  match type with
  | 0x01 => addr % 16 == 0
  | 0x02 => addr % 16 == 0
  | 0x04 => addr == 0
  | 0x05 => addr % 64 == 0
  | 0x08 => addr % 4 == 0
  | 0x09 => addr % 4 == 0
  | 0x10 => addr == 0
  | _ => true

/-- Words 4 to 7 hold only what a type defines there, in the first or in a later segment (R193, R194). -/
def wordsOk (type : Nat) (first : Bool) (w4 w5 w6 w7 : Nat) : Bool :=
  match type with
  | 0x03 => true
  | 0x04 => w4 &&& 0xFFC000FC == 0 && w6 == 0 && w7 == 0
  | 0x08 => w6 == 0 && w7 == 0
  | 0x0C => (if first then decide (w4 < 64) else w4 == 0) && w5 == 0 && w6 == 0 && w7 == 0
  | 0x14 => if first then decide (w4 < 65536) else w4 == 0 && w5 == 0 && w6 == 0 && w7 == 0
  | _ => w4 == 0 && w5 == 0 && w6 == 0 && w7 == 0

/-- One entry has its type's form (R189, R190, R193, R194). -/
def formOk (type : Nat) (first : Bool) (e : List Word) : Bool :=
  let w (n : Nat) : Nat := (e.getD n 0).toNat
  entryType e == type && w 0 &&& reservedBits type == 0 && lengthOk type (w 0 % 65536) &&
    addressOk type (w 2 + 2 ^ 32 * w 3) && wordsOk type first (w 4) (w 5) (w 6) (w 7)

/-- The bytes of a chain's segments. -/
def chainBytes (segs : List (List Word)) : Nat := segs.foldl (fun a e => a + (e.headD 0).toNat % 65536) 0

/-- A whole chain has its type's form; a frame has at most 9 216 bytes (R194). -/
def chainOk (type : Nat) (segs : List (List Word)) : Bool :=
  (segs.zipIdx).all (fun e => formOk type (e.2 == 0) e.1) && (type != 0x0C || decide (chainBytes segs ≤ 9216))

/-- Whether an entry has CHAIN set. -/
def chained (e : List Word) : Bool := (e.headD 0).getLsbD 16

/-- Whether an entry's own bit is 1. -/
def ownBit (e : List Word) : Bool := (e.headD 0).getLsbD 31

/-- The segments up to the first without CHAIN; none where the list ends before. -/
def chainOf : List (List Word) → Option (List (List Word))
  | [] => none
  | e :: t => if chained e then (chainOf t).map (e :: ·) else some [e]

/-- Takes segments from a ring: the engine index moves beyond them, and they become a descriptor. -/
def State.take (s : State) (r : Nat) (segs : List (List Word)) : State × Desc :=
  let e := s.rd (Reg.HST_RSTAT_eidx r)
  let g := s.ring r
  let d : Desc := ⟨g.next, e, segs, .taken, 0, 0, 0, [], 0, 0, [], []⟩
  ((s.setRing r { g with next := g.next + 1, descs := g.descs ++ [d] }).wr (Reg.HST_RSTAT_eidx r)
    (e + segs.length), d)

/-- Takes segments and completes them at once with a transfer code. -/
def State.takeBad (s : State) (r : Nat) (segs : List (List Word)) (xfer : Nat) : State :=
  let (s, d) := s.take r segs
  s.completeXfer r d xfer

/-- Takes a chain that begins with a well-typed entry (R187, R190, R192). -/
def State.takeChain (s : State) (r type : Nat) (entries : List (List Word)) : State :=
  if (entries.take 64).length = 64 ∧ (entries.take 64).all chained then
    if 64 ≤ s.owned r then
      if (entries.take 64).all ownBit then (s.takeBad r (entries.take 64) 3).haltRing r 3 else s.haltRing r 5
    else s
  else
    match chainOf entries with
    | none => s
    | some segs =>
      if s.owned r < segs.length then s
      else if !segs.all ownBit then s.haltRing r 5
      else if chainOk type segs then (s.take r segs).1
      else s.takeBad r segs 5

/-- DESCRIPTOR_TAKE (R187 to R192): `entries` are the ring's entries from the engine index on, as host memory
holds them. An accepted COMMIT and a waiting vault descriptor hold their ring (R151, R154). -/
def descriptorTake (r : Nat) (entries : List (List Word)) (s : State) : State :=
  if !s.ringRuns r || !s.on Reg.HST_STATUS_bme || (s.ring r).hold ||
      (s.ring r).descs.any (fun d => d.stage == .waiting) || s.owned r == 0 then s
  else
    match entries with
    | [] => s
    | e :: _ =>
      if !ownBit e then s.haltRing r 5
      else
        match typeFunc (entryType e) with
        | none => s.takeBad r [e] 4
        | some (f, chains) =>
          if f ≠ s.ringFunc r then s.takeBad r [e] 4
          else if chained e && !chains then s.takeBad r [e] 5
          else s.takeChain r (entryType e) entries

/-! ### Enable and disable (R185, R196, R200, R201) -/

/-- The channel range of an audio ring: first and count (R196). -/
def State.chanRange (s : State) (r : Nat) : Nat × Nat :=
  (s.rd (Reg.HST_RAUD_c0 r), s.rd (Reg.HST_RAUD_nc_m1 r) + 1)

/-- The channel range is legal: within 256 channels and apart from other enabled rings of the function. -/
def State.rangeOk (s : State) (r : Nat) : Bool :=
  let (c, n) := s.chanRange r
  decide (c + n ≤ 256) &&
    (List.range 64).all (fun q => q == r || !s.ringOn q || s.ringFunc q != s.ringFunc r ||
      decide (c + n ≤ (s.chanRange q).1) || decide ((s.chanRange q).1 + (s.chanRange q).2 ≤ c))

/-- Staging shelves of a playback ring (R196). -/
def State.stagingShelves (s : State) (r : Nat) : Nat :=
  (s.rd (Reg.HST_RAUD_lead r) * (s.chanRange r).2 + 31) / 32

/-- A refused enable (R185). -/
def State.refuseEnable (s : State) (r reason : Nat) : State :=
  ((s.wr (Reg.HST_RCTRL_en r) 0).wr (Reg.HST_RSTAT_state r) 0).wr (Reg.HST_RSTAT_reason r) reason

/-- A ring whose descriptors are gone: an unbroken span of being enabled ends, and descriptor numbers are not used
again (R201). -/
def Ring.restart (g : Ring) : Ring := { Ring.reset with epoch := g.epoch + 1, next := g.next }

/-- An enabled ring starts with both indices at 0. -/
def State.startRing (s : State) (r : Nat) : State :=
  let s := (s.wr (Reg.HST_RCTRL_en r) 1).setReg (Reg.HST_RSTAT_eidx r).off 0
  let s := s.wr (Reg.HST_RSTAT_state r) 1
  let s := { s with host := { s.host with doorbell := s.host.doorbell.insert r 0 } }
  s.setRing r (s.ring r).restart

/-- RING_ENABLE (R185, R196): a ring that is enabled or draining is left as it is. -/
def ringEnable (r : Nat) (s : State) : State :=
  if s.rd (Reg.HST_RSTAT_state r) ≠ 0 then s
  else
    let f := s.ringFunc r
    let base := s.rd64 (Reg.HST_RBASE_LO_base r) (Reg.HST_RBASE_HI_base r)
    if funcDir f ≠ some (s.on (Reg.HST_RCFG_dir r)) then s.refuseEnable r 6
    else if base % min (32 * s.ringSize r) 4096 ≠ 0 then s.refuseEnable r 6
    else if (f == 3 || f == 4) && !s.rangeOk r then s.refuseEnable r 7
    else if f = 3 then
      match s.engineAlloc 4 r (s.stagingShelves r) false with
      | none => s.refuseEnable r 8
      | some t => t.startRing r
    else s.startRing r

/-- Marks what a disable flushes (R200): a waiting vault descriptor and every descriptor in progress of the
other types; a vault descriptor that the vault is processing completes normally. -/
def Desc.flushed (d : Desc) : Bool :=
  d.stage == .waiting || (d.stage != .done && decide (5 ≤ d.type) && d.type != 0x10)

/-- What a disable drops without a write-back: an accepted COMMIT (R201), and posted event buffers, which R200 does not
name. A COMMIT that the ring master has not answered yet is still processed. -/
def State.drops (s : State) (r : Nat) (d : Desc) : Bool :=
  (d.type == 3 && s.vault.arms.any (fun a => a.own == some (r, d.id))) || (d.type == 0x10 && d.stage != .done)

/-- VLT_STATUS.waiting: the rings whose next vault descriptor waits (R176). -/
def State.countWaiting (s : State) : State :=
  s.wr Reg.VLT_STATUS_waiting (s.host.rings.filter (fun e => e.2.descs.any (fun d => d.stage == .waiting))).length

/-- Whether a frame waits for a port on behalf of one of a ring's descriptors. -/
def EgTag.of (r : Nat) (ids : List Nat) : EgTag → Bool
  | .host q id _ => q == r && ids.contains id
  | .hostCopy q id => q == r && ids.contains id
  | _ => false

/-- The frames of flushed descriptors leave the egress queues: a flushed FRAME_TX has no effect (R190, R200). -/
def State.unqueue (s : State) (r : Nat) (ids : List Nat) : State :=
  { s with net := { s.net with ports := s.net.ports.map (fun (e : Nat × NetPort) =>
    (e.1, { e.2 with queues := e.2.queues.map (fun (q : Nat × List EgFrame) => (q.1, q.2.filter (fun f => !f.tag.of r ids))) })) } }

/-- RING_DISABLE (R200, R201). -/
def ringDisable (r : Nat) (s : State) : State :=
  if !s.ringOn r then s
  else
    let s := (s.wr (Reg.HST_RCTRL_en r) 0).wr (Reg.HST_RSTAT_state r) 3
    let g := s.ring r
    let out := g.descs.filter Desc.flushed
    let s := s.setRing r { g with hold := false, descs := g.descs.filter (fun d => !s.drops r d) }
    (out.foldl (fun s d => s.completeXfer r d 6) (s.unqueue r (out.map (·.id)))).countWaiting

/-- A disabled ring: its staging shelves are free (R196). -/
def State.ringOff (s : State) (r : Nat) : State :=
  let s := s.wr (Reg.HST_RSTAT_state r) 0
  let s := (s.setRing r (s.ring r).restart).countWaiting
  if (s.allocHeld 4 r).isSome then s.freeAlloc 4 r else s

/-- RING_DRAINED (R200). -/
def ringDrained (r : Nat) (s : State) : State :=
  if s.rd (Reg.HST_RSTAT_state r) = 3 ∧ (s.ring r).descs.isEmpty then s.ringOff r else s

/-! ### Failures, bus mastering and moderation (R179, R199, R202) -/

/-- A descriptor whose type reads host memory, and whose data the engine has not got yet. -/
def Desc.reads (d : Desc) : Bool := d.stage == .taken && [0x01, 0x02, 0x08, 0x0C, 0x14].contains d.type

/-- A failed read of host memory (R199): `of` names the descriptor that it belongs to, by its place among those of the ring
that still read; none where the ring's entries themselves were read. The descriptor completes with a transfer code, and a
ring that runs halts. -/
def State.hostReadFail (s : State) (r code : Nat) (of : Option Nat) : State :=
  match of with
  | none => if s.ringRuns r then s.haltRing r code else s
  | some k =>
    match ((s.ring r).descs.filter Desc.reads)[k]? with
    | none => s
    | some d =>
      let t := s.completeXfer r d code
      if s.ringRuns r then t.haltRing r code else t

/-- Sends the messages of every vector that is pending and no longer masked. -/
def State.sendPending (s : State) : State :=
  (s.host.pba.map (·.1)).foldl (fun s v => if s.host.pba.get false v then s.msix v else s) s

/-- BUS_MASTER_ENABLE (R179): set, it lets the rings go on and sends the pending messages. -/
def busMasterEnable (on : Bool) (s : State) : State :=
  let s := s.wr Reg.HST_STATUS_bme (b2n on)
  if on then ((List.range 64).foldl (fun s r => s.flushRing r) s).sendPending else s

/-- MODERATION_TIMER (R202). -/
def moderationTimer (r : Nat) (s : State) : State :=
  let laps := s.rd (Reg.HST_RMOD_laps r)
  match (s.ring r).since with
  | none => s
  | some l => if laps ≠ 0 ∧ l + laps ≤ s.lap then s.signalRing r else s

/-! ### Function Level Reset (R203) -/

/-- The items of the PARAM_WRITEs that wait, ring by ring (R203). -/
def State.waitingItems (s : State) : List (List (Word × Word × BitVec 64)) :=
  s.host.rings.flatMap (fun e => (e.2.descs.filter (fun d => d.stage == .waiting && d.type == 1)).map (·.items))

/-- Resets what R203 resets: configuration space, every HST register with the MSI-X table when `table`, and
every ring; the link's speed and width stay. Abandoned descriptors get no write-back; the items of a waiting PARAM_WRITE
are still the vault's to write. -/
def State.hostReset (s : State) (table : Bool) : State :=
  let speed := s.rd Reg.HST_STATUS_speed
  let width := s.rd Reg.HST_STATUS_width
  let bme := if table then 0 else s.rd Reg.HST_STATUS_bme
  let mse := if table then 0 else s.rd Reg.HST_STATUS_mse
  let s := { s with
    fab := { s.fab with allocs := s.fab.allocs.filter (fun a => a.kind != 4) }
    vault := { s.vault with orphans := s.vault.orphans ++ s.waitingItems } }
  let s := { s with
    regs := s.regs.drop (fun k => decide (0xC000 ≤ k) && decide (k < 0xD000))
    hiLatch := s.hiLatch.drop (fun k => decide (0xC000 ≤ k) && decide (k < 0xD000))
    loHold := s.loHold.drop (fun k => decide (0xC000 ≤ k) && decide (k < 0xD000))
    host := { s.host with
      rings := s.host.rings.map (fun (e : Nat × Ring) => (e.1, e.2.restart))
      doorbell := []
      lost := 0
      bar := if table then [] else s.host.bar
      recNow := []
      recOut := []
      msix := if table then [] else s.host.msix
      pba := if table then [] else s.host.pba
      msixEn := if table then false else s.host.msixEn
      msixMask := if table then false else s.host.msixMask } }
  let s := (s.wr Reg.HST_STATUS_speed speed).wr Reg.HST_STATUS_width width
  ((s.wr Reg.HST_STATUS_bme bme).wr Reg.HST_STATUS_mse mse).cellarStatus.countWaiting

/-- FUNCTION_LEVEL_RESET (R203). -/
def functionLevelReset (s : State) : State :=
  let s := s.hostReset true
  { s with host := { s.host with flr := true } }.wr Reg.GLB_RESET_CAUSE_flr 1

/-- FLR_DONE (R203). -/
def flrDone (s : State) : State :=
  if s.host.flr then { s with host := { s.host with flr := false } }.setEvent Reg.HST_EVENT_ev 6 else s

/-! ### Buffers that host software posts (R194, R198) -/

/-- The oldest taken buffer of a type is posted: the engine may fill it. -/
def State.post (s : State) (r type : Nat) : State :=
  match s.oldest r type .taken with
  | none => s
  | some d => s.setDesc r { d with stage := .posted }

/-- AUDIO_REC (R198): a record ring starts at the first lap boundary after its first buffer. -/
def audioRec (r : Nat) (s : State) : State :=
  match s.oldest r 0x09 .taken with
  | none => s
  | some _ =>
    let s := s.post r 0x09
    let g := s.ring r
    if g.recFrom = 0 then s.setRing r { g with recFrom := if s.run then s.lap + 2 else 1 } else s

/-! ### Playback (R43, R196, R197) -/

/-- Bytes of a word of a format. -/
def fmtBytes (fmt : Nat) : Nat := if fmt = 0 then 2 else 4

/-- Bits of a sample of a format. -/
def fmtBits (fmt : Nat) : Nat := if fmt = 0 then 16 else if fmt = 1 then 24 else 32

/-- Stores one frame's words, a channel after another (R196). -/
def storeFrame (fmt m c : Nat) (data : List Byte) : Nat → Nat → Tbl A48 → Tbl A48
  | _, 0, t => t
  | ch, n + 1, t =>
    let w := ofLe ((data.drop (ch * fmtBytes fmt)).take (fmtBytes fmt))
    storeFrame fmt m c data (ch + 1) n (t.insert (m * 256 + c + ch) (pcmIn (fmtBits fmt) w))

/-- Gives frames consecutive counts: a frame whose lap is too early, or whose count was covered before, is
discarded (R197). Answers the samples and how many frames were discarded. -/
def playFrames (s : State) (r : Nat) (old : List (Nat × Nat)) (fb : Nat) :
    Nat → Nat → List Byte → Tbl A48 → Nat → Tbl A48 × Nat
  | _, 0, _, t, lost => (t, lost)
  | m, n + 1, data, t, lost =>
    let bad := decide (m / s.nLap < s.lap + s.rd (Reg.HST_RAUD_lead r)) ||
      old.any (fun u => decide (u.1 ≤ m) && decide (m < u.1 + u.2))
    if bad then playFrames s r old fb (m + 1) n (data.drop fb) t (lost + 1)
    else
      let (c, nc) := s.chanRange r
      playFrames s r old fb (m + 1) n (data.drop fb)
        (storeFrame (s.rd (Reg.HST_RAUD_fmt r)) m c data 0 nc t) lost

/-- AUDIO_PLAY (R197): `data` is the frame buffer as host memory holds it. -/
def audioPlay (r : Nat) (data : List Byte) (s : State) : State :=
  if !s.ringRuns r || !s.on Reg.HST_STATUS_bme then s
  else
    match s.oldest r 0x08 .taken with
    | none => s
    | some d =>
      let fb := fmtBytes (s.rd (Reg.HST_RAUD_fmt r)) * (s.chanRange r).2
      if data.length ≠ d.len * fb then s
      else
        let g := s.ring r
        let m0 := if bitAt (d.word 0) 18 then g.follow.getD ((s.lap + s.rd (Reg.HST_RAUD_lead r)) * s.nLap)
          else d.word64 4
        let (t, lost) := playFrames s r g.fetched fb m0 d.len data g.samples 0
        let s := s.setRing r { g with
          samples := t
          fetched := g.fetched ++ [(m0, d.len)]
          follow := some (m0 + d.len)
          firstLap := some (g.firstLap.getD (m0 / s.nLap)) }
        s.complete r d.id (if lost = 0 then 0x40 else 0x42) 0 lost []

/-- DOORBELL_WRITE (R186). -/
def execDoorbellWrite (off size : Nat) (write : Bool) (val : Word) (s : State) : Host.Outcome State Fault Refusal :=
  whenWf (.doorbellWrite off size write val) (doorbellWrite off size write val s)

/-- DESCRIPTOR_TAKE (R187). -/
def execDescriptorTake (ring : Nat) (entries : List (List Word)) (s : State) : Host.Outcome State Fault Refusal :=
  whenWf (.descriptorTake ring entries) (descriptorTake ring entries s)

/-- RING_ENABLE (R185). -/
def execRingEnable (ring : Nat) (s : State) : Host.Outcome State Fault Refusal :=
  whenWf (.ringEnable ring) (ringEnable ring s)

/-- RING_DISABLE (R200). -/
def execRingDisable (ring : Nat) (s : State) : Host.Outcome State Fault Refusal :=
  whenWf (.ringDisable ring) (ringDisable ring s)

/-- RING_DRAINED (R200). -/
def execRingDrained (ring : Nat) (s : State) : Host.Outcome State Fault Refusal :=
  whenWf (.ringDrained ring) (ringDrained ring s)

/-- HOST_READ_TIMEOUT (R199). -/
def execHostReadTimeout (ring : Nat) (of : Option Nat) (s : State) : Host.Outcome State Fault Refusal :=
  whenWf (.hostReadTimeout ring of) (s.hostReadFail ring 1 of)

/-- HOST_READ_ERROR (R199). -/
def execHostReadError (ring : Nat) (of : Option Nat) (s : State) : Host.Outcome State Fault Refusal :=
  whenWf (.hostReadError ring of) (s.hostReadFail ring 2 of)

/-- BUS_MASTER_ENABLE (R179). -/
def execBusMasterEnable (on : Bool) (s : State) : Host.Outcome State Fault Refusal :=
  whenWf (.busMasterEnable on) (busMasterEnable on s)

/-- MODERATION_TIMER (R202). -/
def execModerationTimer (ring : Nat) (s : State) : Host.Outcome State Fault Refusal :=
  whenWf (.moderationTimer ring) (moderationTimer ring s)

/-- FUNCTION_LEVEL_RESET (R203). -/
def execFunctionLevelReset (s : State) : Host.Outcome State Fault Refusal :=
  whenWf .functionLevelReset (functionLevelReset s)

/-- FLR_DONE (R203). -/
def execFlrDone (s : State) : Host.Outcome State Fault Refusal :=
  whenWf .flrDone (flrDone s)

/-- SNAPSHOT_BUFFER (R194). -/
def execSnapshotBuffer (ring : Nat) (s : State) : Host.Outcome State Fault Refusal :=
  whenWf (.snapshotBuffer ring) (s.post ring 0x05)

/-- FRAME_RX_BUF (R194). -/
def execFrameRxBuf (ring : Nat) (s : State) : Host.Outcome State Fault Refusal :=
  whenWf (.frameRxBuf ring) (s.post ring 0x0D)

/-- EVENT_BUFFER (R194). -/
def execEventBuffer (ring : Nat) (s : State) : Host.Outcome State Fault Refusal :=
  whenWf (.eventBuffer ring) (s.post ring 0x10)

/-- HEALTH_BUFFER (R194). -/
def execHealthBuffer (ring : Nat) (s : State) : Host.Outcome State Fault Refusal :=
  whenWf (.healthBuffer ring) (s.post ring 0x11)

/-- AUDIO_REC (R198). -/
def execAudioRec (ring : Nat) (s : State) : Host.Outcome State Fault Refusal :=
  whenWf (.audioRec ring) (audioRec ring s)

/-- AUDIO_PLAY (R197). -/
def execAudioPlay (ring : Nat) (data : List Byte) (s : State) : Host.Outcome State Fault Refusal :=
  whenWf (.audioPlay ring data) (audioPlay ring data s)

end Sys2Proof.Machine
end

