-- ==== Sys2Proof/Machine/Vault.lean ====
section
/-! DEFINITION. The scene vault (chapter 08): writes and reads of pages, commits and their entry laps, page exchange,
reloads, groups and snapshots. -/

namespace Sys2Proof.Machine

/-! ### The ring seen from the vault (R159, R168, R340) -/

/-- The engine is in the ring. -/
def State.inRing (s : State) : Bool := s.rd Reg.EXL_STATUS_state == 4

/-- The engine's ring position; 0 when it stands alone. -/
def State.ringPos (s : State) : Nat := if s.inRing then s.casc.pos else 0

/-- This engine is the ring master, or stands alone. -/
def State.isMaster (s : State) : Bool :=
  !s.inRing || (s.on Reg.EXL_STATUS_master_ok && s.rd Reg.EXL_STATUS_master_pos == s.casc.pos)

/-- The hops to a position by the shorter direction that reaches it. -/
def State.hopsTo (s : State) (q : Nat) : Nat :=
  if !s.inRing || q == s.casc.pos then 0
  else
    let e := s.rd (Reg.EXL_MAP_east q)
    let w := s.rd (Reg.EXL_MAP_west q)
    match s.on (Reg.EXL_MAP_east_ok q), s.on (Reg.EXL_MAP_west_ok q) with
    | true, true => min e w
    | true, false => e
    | false, true => w
    | false, false => 0

/-! ### Objects and groups (R150, R151) -/

/-- An object exists (R146). -/
def objectExists (ob : Nat) : Bool :=
  let i := pidIndex ob
  match pidClass ob with
  | 1 => decide (i < 1024)
  | 2 => decide (i < 256)
  | 3 => decide (i < 64)
  | 4 => decide (i < 1024)
  | 5 => pidNum ob % 16 == 0 && decide (i < sinkCount (pidNum ob / 16))
  | 6 => decide (i < 1024)
  | 7 => decide (i < 704)
  | 8 => decide (i < 8)
  | 9 => gainIndexOk i
  | _ => false

/-- The groups that are armed. -/
def VaultSt.armedMask (v : VaultSt) : BitVec 64 := v.arms.foldl (fun m a => m ||| a.mask) 0

/-- The groups that are switching or refreshing. -/
def VaultSt.switchMask (v : VaultSt) : BitVec 64 := v.switching.foldl (fun m a => m ||| a.mask) 0

/-- The objects that have words of their own in either page. -/
def VaultSt.objects (v : VaultSt) : List Nat :=
  ((v.page0.map (fun e => objOf e.1)) ++ (v.page1.map (fun e => objOf e.1))).eraseDups

/-- VLT_STATUS follows the vault. -/
def State.vaultStatus (s : State) : State :=
  let s := (s.wr Reg.VLT_STATUS_armed s.vault.arms.length).wr Reg.VLT_STATUS_refreshing (b2n (!s.vault.refresh.isEmpty))
  let s := s.countWaiting.wr Reg.VLT_STATUS_unsynced (b2n (s.vault.unsynced != 0))
  s.wr Reg.VLT_STATUS_master (b2n s.isMaster)

/-! ### Muted objects (R65, R169 to R172) -/

/-- A placed object does not run: it is cold, or held muted for want of its slot or its pages. -/
def State.objFrozen (s : State) (o : Nat) : Bool :=
  s.tile.cold.get false o || (match s.slotOf o with
    | none => true
    | some slot => s.slotIsolated slot) || (placeObjs o).any (fun ob => s.obFrozen ob)

/-- A placed object passes zero: it does not run, or it is muted for a late commit. -/
def State.objMuted (s : State) (o : Nat) : Bool := s.objFrozen o || (placeObjs o).any (fun ob => s.obLate ob)

/-- Placed objects that a mask covers. -/
def State.placedIn (s : State) (mask : BitVec 64) : List Nat :=
  (s.tile.placed.map (·.1)).filter (fun o => (placeObjs o).any (fun ob => s.vault.covers mask ob))

/-! ### The head of a vault ring (R149, R151, R154) -/

/-- Whether a descriptor that names groups must wait: there is no store yet, or a group is switching. -/
def State.mustWait (s : State) (mask : BitVec 64) : Bool :=
  !s.on Reg.VLT_STATUS_store_ok || (mask &&& s.vault.switchMask) != 0

/-- A vault ring's oldest descriptor that is not complete. -/
def State.vaultFront (s : State) (r : Nat) : Option Desc :=
  if s.ringFunc r = 1 then (s.ring r).descs.find? (fun d => d.stage != .done) else none

/-- A vault ring presents a descriptor to the vault: one taken, or one whose wait is over. -/
def State.presents (s : State) (r : Nat) : Bool :=
  match s.vaultFront r with
  | some d => d.stage == .taken || (d.stage == .waiting && !s.mustWait (BitVec.ofNat 64 d.count0))
  | none => false

/-- The ring whose turn it is (R154): the first one that presents a descriptor, in ascending order with wrap-round, after
the ring served last. Before any is served the round begins with ring 0 (DESIGN CHOICE, log entry 34). -/
def State.vaultTurn (s : State) : Option Nat :=
  ((List.range 64).map (fun k => (s.vault.robin + k) % 64)).find? s.presents

/-- The vault serves a ring's descriptor: the round goes on with the next ring (R154). -/
def State.serveRing (s : State) (r : Nat) : State := { s with vault := { s.vault with robin := (r + 1) % 64 } }

/-- The descriptor of a type that the vault serves now: the one taken at the head of the ring whose turn it is. -/
def State.vaultHead (s : State) (r type : Nat) : Option Desc :=
  if s.vaultTurn = some r then
    match s.vaultFront r with
    | some d => if d.type = type ∧ d.stage = .taken then some d else none
    | none => none
  else none

/-- A descriptor waits for the groups of a mask, and holds its ring, with the items that the vault has read; one of a ring
that is being disabled completes FLUSHED (R200). -/
def State.vaultWait (s : State) (r : Nat) (d : Desc) (mask : BitVec 64) (items : List (Word × Word × BitVec 64)) : State :=
  if s.rd (Reg.HST_RSTAT_state r) = 3 then s.completeXfer r d 6
  else (s.setDesc r { d with stage := .waiting, count0 := mask.toNat, items := items }).vaultStatus

/-- WAITING_DESCRIPTOR_RELEASE (R151): the vault takes the waiting descriptor as if it had just arrived. -/
def waitingRelease (r : Nat) (s : State) : State :=
  match (s.ring r).descs.find? (fun d => d.stage == .waiting) with
  | none => s
  | some d =>
    if s.mustWait (BitVec.ofNat 64 d.count0) then s
    else (s.setDesc r { d with stage := .taken, count0 := 0, items := [] }).vaultStatus

/-! ### PARAM_WRITE and PARAM_READ (R152, R153) -/

/-- The kind and size a page holds for a rack instance. -/
def VaultSt.shapeIn (v : VaultSt) (loft : Bool) (p : Nat) : Nat × Nat :=
  let rd (n : Nat) := (if loft then v.loft (pid 7 (pidIndex p) n) else v.storeLive (pid 7 (pidIndex p) n)).toNat
  if pidClass p = 7 then (rd 0, rd 1) else (0, 0)

/-- A parameter ID is valid in a page (R146). -/
def VaultSt.pidOk (v : VaultSt) (loft : Bool) (p : Nat) : Bool :=
  let k := v.shapeIn loft p
  (paramDef k.1 k.2 p).isSome

/-- An insert parameter that names a rack (R78). -/
def isRackPid (p : Nat) : Bool :=
  decide (1 ≤ pidClass p) && decide (pidClass p ≤ 3) && (pidNum p == 0xF00 || pidNum p == 0xF02)

/-- A value is one that the vault accepts for a parameter, over the loft as the items before it leave it. -/
def State.itemOk (s : State) (v : VaultSt) (p : Nat) (x : A48) : Bool :=
  let k := v.shapeIn true p
  match paramDef k.1 k.2 p with
  | none => false
  | some d =>
    let c := pidClass p
    let i := pidIndex p
    let n := pidNum p
    d.rng.ok x &&
    (if 1 ≤ c ∧ c ≤ 3 ∧ n = 2 then decide (x.toNat ≤ s.delayCap (placeOf c i))
     else if c = 7 ∧ 0x20 ≤ n ∧ n < 0x30 ∧ n % 2 = 0 then
       decide (x.toNat ≤ match s.allocOf 2 i with
         | none => 0
         | some a => lineCap a.count)
     else if c = 7 ∧ n < 4 then (s.slotOf (1344 + i)).isNone
     else if isRackPid p ∧ x.toNat ≠ 0xFFFF then
       (v.pids (fun q => isRackPid q && q != p)).all (fun q => v.loft q != x)
     else true)

/-- An item's parameter ID and value, with the bits that must be zero. -/
def itemPid (e : Word × Word × BitVec 64) : Nat := e.1.toNat
def itemVal (e : Word × Word × BitVec 64) : A48 := e.2.2.setWidth 48

/-- The first invalid item of a buffer, or the vault with every item written. -/
def State.writeItems (s : State) : List (Word × Word × BitVec 64) → Nat → VaultSt → Nat ⊕ VaultSt
  | [], _, v => .inr v
  | e :: es, i, v =>
    if e.2.1 = 0 ∧ e.2.2.toNat < 2 ^ 48 ∧ s.itemOk v (itemPid e) (itemVal e) then
      s.writeItems es (i + 1) (v.setLoft (itemPid e) (itemVal e))
    else .inl i

/-- Words per page of the store that are in use: those of every object but the racks, and the racks' (R148). -/
def storeWords (v : VaultSt) : Nat :=
  ((v.pids (fun p => pidClass p == 7 && pidNum p == 0)).map (fun p =>
    let rd (n : Nat) := (v.loft (pid 7 (pidIndex p) n)).toNat
    if rd 1 = 0 then 0 else (rackLoad 8 (rd 0, rd 1, rd 2)).p)).foldl (· + ·) 425512

/-- Room of the store in words per page. -/
def storeRoom : Nat := 540672

/-- The groups that items name. -/
def State.itemMask (s : State) (items : List (Word × Word × BitVec 64)) : BitVec 64 :=
  items.foldl (fun m e => if s.vault.pidOk true (itemPid e) then
    m ||| (1#64 <<< s.vault.groupOf (objOf (itemPid e))) else m) 0

/-- Parameters written since their object lost words of the store (R172). -/
def noteWritten (items : List (Word × Word × BitVec 64)) (t : Tbl (Option PageLoss)) : Tbl (Option PageLoss) :=
  items.foldl (fun t e =>
    match t.get none (objOf (itemPid e)) with
    | some (.store w) => t.insert (objOf (itemPid e)) (some (.store (if w.contains (itemPid e) then w else itemPid e :: w)))
    | _ => t) t

/-- Items of a descriptor's segments. -/
def Desc.itemCount (d : Desc) : Nat := d.segs.foldl (fun a g => a + (g.headD 0).toNat % 65536) 0

/-- The items of one PARAM_WRITE written to the loft, or the code and the detail that refuse them all (R152). -/
def State.loftWrite (s : State) (items : List (Word × Word × BitVec 64)) : (Nat × Nat) ⊕ State :=
  match s.writeItems items 0 s.vault with
  | .inl i => .inl (0x10, min i 0xFFFE)
  | .inr v =>
    if (s.itemMask items &&& s.vault.armedMask) ≠ 0 then .inl (0x11, 0)
    else if storeRoom < storeWords v && items.any (fun e => pidClass (itemPid e) == 7) then .inl (0x12, 0)
    else .inr { s with vault := { v with loss := noteWritten items v.loss } }

/-- PARAM_WRITE (R152): the items are those of the host's buffer. -/
def paramWrite (r : Nat) (items : List (Word × Word × BitVec 64)) (s : State) : State :=
  match s.vaultHead r 1 with
  | none => s
  | some d =>
    if items.length ≠ d.itemCount then s
    else
      let s := s.serveRing r
      let mask := s.itemMask items
      if s.mustWait mask then s.vaultWait r d mask items
      else
        match s.loftWrite items with
        | .inl e => s.complete r d.id e.1 0 e.2 []
        | .inr t => t.complete r d.id 0 0 0 []

/-- The items that a reset of the host interface left without a descriptor are written to the loft as soon as they need not
wait; items that the vault refuses write nothing (R203). -/
def State.writeOrphans (s : State) : State :=
  let ready := s.vault.orphans.filter (fun l => !s.mustWait (s.itemMask l))
  let s := { s with vault := { s.vault with orphans := s.vault.orphans.filter (fun l => s.mustWait (s.itemMask l)) } }
  ready.foldl (fun s l => match s.loftWrite l with
    | .inl _ => s
    | .inr t => t) s

/-- The host addresses of the value fields of a descriptor's items. -/
def Desc.valueAddrs (d : Desc) : List Nat :=
  d.segs.flatMap (fun g =>
    (List.range ((g.headD 0).toNat % 65536)).map (fun i => (g.getD 2 0).toNat + 2 ^ 32 * (g.getD 3 0).toNat + 16 * i + 8))

/-- An object's words of the store cannot be read: the mirror serves, or the object is held muted (R172). -/
def State.storeLoss (s : State) (ob : Nat) : State :=
  if s.on Reg.VLT_STORE_mirrored then s
  else
    let s := (s.wr Reg.VLT_STORE_ERR_valid 1).wr Reg.VLT_STORE_ERR_index (pidIndex ob)
    let s := s.wr Reg.VLT_STORE_ERR_class (pidClass ob)
    { s with vault := { s.vault with loss := s.vault.loss.insert ob (some (.store [])) } }.setEvent Reg.VLT_EVENT_ev 4

/-- A word of the store as PARAM_READ finds it: zero where it is uncorrectable in every copy (R172, R227). -/
def State.storeWord (s : State) (loft : Bool) (bad : List Nat) (p : Nat) : A48 :=
  if bad.contains (objOf p) && !s.on Reg.VLT_STORE_mirrored then 0
  else if loft then s.vault.loft p else s.vault.storeLive p

/-- PARAM_READ (R153): `bad` are objects of the vault whose store words are uncorrectable (R172). With bus mastering off
nothing is written to the host (R179): the read waits. -/
def paramRead (r : Nat) (items : List (Word × Word × BitVec 64)) (bad : List Nat) (s : State) : State :=
  match s.vaultHead r 2 with
  | none => s
  | some d =>
    if items.length ≠ d.itemCount || !s.on Reg.HST_STATUS_bme then s
    else if !s.on Reg.VLT_STATUS_store_ok then (s.serveRing r).vaultWait r d 0 []
    else
      let s := s.serveRing r
      let loft := bitAt (d.word 0) 18
      match items.findIdx? (fun e => e.2.1 != 0 || !s.vault.pidOk loft (itemPid e)) with
      | some i => s.complete r d.id 0x10 0 (min i 0xFFFE) []
      | none =>
        let s := (d.valueAddrs.zip items).foldl (fun s e =>
          s.emit (.hostWrite e.1 (leBytes 8 (s.storeWord loft bad (itemPid e.2)).toNat))) s
        let s := (bad.filter (fun ob => items.any (fun e => objOf (itemPid e) == ob))).eraseDups.foldl State.storeLoss s
        let g := if loft then 0 else s.vault.gen
        s.complete r d.id 0 0 0 [(4, BitVec.ofNat 32 g), (5, BitVec.ofNat 32 (g / 2 ^ 32))]

/-! ### Commits (R155 to R160, R165, R168) -/

/-- The values of a transition profile (R165). -/
def State.profile (s : State) (n : Nat) : Prof :=
  ⟨s.rd (Reg.VLT_PROF_A_gain_len n), s.rd (Reg.VLT_PROF_A_filt_len n), s.rd (Reg.VLT_PROF_B_route_len n),
    s.on (Reg.VLT_PROF_B_route_kind n)⟩

/-- The request that a COMMIT carries (R155). The profile's values are those of the engine that takes the COMMIT, in the lap
in which it takes it: in a ring R165 does not say whose registers, nor whether they are read as the request leaves or as
the master accepts it (DESIGN CHOICE, log entry 34). -/
def State.requestOf (s : State) (r : Nat) (d : Desc) : CommitReq where
  op := bitsOf (d.word 0) 18 2
  mask := BitVec.ofNat 64 (d.word64 2)
  base := d.word64 4
  mode := bitsOf (d.word 0) 20 2
  target := d.word64 6
  strict := bitAt (d.word 0) 22
  profile := d.word 0 % 16
  prof := s.profile (d.word 0 % 16)
  issuer := s.ringPos
  taken := s.lap
  own := some (r, d.id)

/-- A COMMIT completes (R156, R157): its status, its register and, for a refusal, the count. -/
def State.commitDone (s : State) (r id op code : Nat) (wb : List (Nat × Word)) : State :=
  let s := if (s.ring r).descs.any (fun d => d.id == id) then s.setRing r { s.ring r with hold := false } else s
  let s := s.noteCommit r op code
  let s := if 0x20 ≤ code ∧ code < 0x2A then (s.bump Reg.VLT_REFUSED_COUNT_count 1).setEvent Reg.VLT_EVENT_ev 1 else s
  s.complete r id code 0 0 wb

/-- The answer to a request: at once to the issuer's own ring, or by the relay of R168. -/
def State.answer (s : State) (q : CommitReq) (code : Nat) : State :=
  if q.issuer = s.ringPos then
    match q.own with
    | some (r, id) => s.commitDone r id q.op code []
    | none => s
  else { s with casc := { s.casc with sendRefused := s.casc.sendRefused ++ [⟨q.issuer, q.own, code, q.op⟩] } }

/-- The earliest permitted lap of a request (R159). -/
def State.earliest (s : State) (q : CommitReq) : Nat := q.taken + 2 + s.hopsTo q.issuer + s.layout.h

/-- The entry lap that a request names (R159): the first lap whose sample 0 has a media time at or after the target,
plus one, in mode 2. -/
def State.namedLap (s : State) (q : CommitReq) : Int :=
  match q.mode with
  | 0 => s.earliest q
  | 1 => q.target
  | _ => -((s.time.anchor * 1000000000 - (q.target : Int) * s.fs) / (s.nLap * 1000000000)) + 1

/-- The checks 1 to 3 of R157. -/
def State.formCode (s : State) (q : CommitReq) : Nat :=
  if !s.on Reg.VLT_CFG_commit_en then 0x26
  else if q.op = 3 ∨ q.mode = 3 then 0x29
  else if q.mask = 0 then 0x25
  else 0

/-- The masked group generations: whether one exceeds the base. -/
def VaultSt.staleAt (v : VaultSt) (mask : BitVec 64) (base : Nat) : Bool :=
  (List.range 64).any (fun g => mask.getLsbD g && decide (base < v.gGen.get 0 g))

/-- The checks of R157 on an apply commit; 0 accepts it. -/
def State.applyCode (s : State) (q : CommitReq) : Nat :=
  if s.formCode q ≠ 0 then s.formCode q
  else if s.vault.gen < q.base then 0x21
  else if s.vault.staleAt q.mask q.base then 0x20
  else if (q.mask &&& s.vault.armedMask) ≠ 0 then 0x23
  else if 8 ≤ s.vault.arms.length then 0x24
  else if q.strict ∧ s.namedLap q < s.earliest q then 0x22
  else 0

/-- The lowest free arm slot. -/
def VaultSt.freeSlot (v : VaultSt) : Nat :=
  ((List.range 8).find? (fun n => v.arms.all (fun a => a.slot != n))).getD 0

/-- The armed commits that VLT_STATUS counts change. -/
def State.setArms (s : State) (l : List Arm) : State := ({ s with vault := { s.vault with arms := l } }).vaultStatus

/-- The descriptor to which an accepted COMMIT will write back; one whose ring is not enabled at the acceptance gets no
write-back and is gone (R201). -/
def State.keepOwn (s : State) (own : Option (Nat × Nat)) : Option (Nat × Nat) × State :=
  match own with
  | none => (none, s)
  | some (r, id) =>
    if s.ringOn r then (own, s)
    else
      let g := s.ring r
      (none, s.setRing r { g with descs := g.descs.filter (fun d => d.id != id) })

/-- An accepted commit is armed (R157, R160): its descriptor holds its ring when this engine issued it. -/
def State.arm (s : State) (q : CommitReq) : State :=
  let first := s.earliest q
  let late := decide (s.namedLap q < first)
  let lap := if late then first else (s.namedLap q).toNat
  let (own, s) := s.keepOwn (if q.issuer = s.ringPos then q.own else none)
  let a : Arm := ⟨s.vault.freeSlot, q.mask, lap, q.profile, q.prof, q.issuer, q.strict, late,
    own, false, lap, none⟩
  let s := s.setArms (s.vault.arms ++ [a])
  let s := if s.inRing then { s with casc := { s.casc with
      sendBatons := s.casc.sendBatons ++ [⟨.arm, q.mask, lap, q.profile, q.prof, q.issuer, q.strict, late⟩] } } else s
  match own with
  | none => s
  | some (r, id) =>
    let s := s.setRing r { s.ring r with hold := true }
    match (s.ring r).descs.find? (fun d => d.id == id) with
    | none => s
    | some d => s.setDesc r { d with stage := .active }

/-- The master's decision on an apply request (R157, R168). -/
def State.decideApply (s : State) (q : CommitReq) : State :=
  let c := s.applyCode q
  if c = 0 then s.arm q else s.answer q c

/-- The lofts of the groups of a mask take the live values of the store (R160). -/
def VaultSt.refreshMask (v : VaultSt) (mask : BitVec 64) : VaultSt :=
  (v.pids (fun p => v.covers mask (objOf p))).foldl (fun (v : VaultSt) p => v.setLoft p (v.storeLive p)) v

/-- A baton that carries a discard or a withdrawal. -/
def State.sendBaton (s : State) (op : BatonOp) (q : CommitReq) (lap : Nat) : State :=
  if s.inRing then { s with casc := { s.casc with
    sendBatons := s.casc.sendBatons ++ [⟨op, q.mask, lap, q.profile, q.prof, q.issuer, q.strict, false⟩] } } else s

/-- The master's decision on a discard (R160). -/
def State.decideDiscard (s : State) (q : CommitReq) : State :=
  if s.formCode q ≠ 0 then s.answer q (s.formCode q)
  else if (q.mask &&& s.vault.armedMask) ≠ 0 then s.answer q 0x23
  else
    let s := ({ s with vault := s.vault.refreshMask q.mask }).sendBaton .discard q s.lap
    if q.issuer = s.ringPos then s.answer q 0x02 else s

/-- An armed commit is withdrawn on this engine: its own COMMIT completes ABANDONED (R160). -/
def State.withdraw (s : State) (mask : BitVec 64) : State :=
  match s.vault.arms.find? (fun a => a.mask == mask) with
  | none => s
  | some a =>
    let s := s.setArms (s.vault.arms.filter (fun b => b.mask != mask))
    match a.own with
    | none => s
    | some (r, id) => s.commitDone r id 0 0x03 []

/-- The master's decision on an abandon (R160). -/
def State.decideAbandon (s : State) (q : CommitReq) : State :=
  if s.formCode q ≠ 0 then s.answer q (s.formCode q)
  else
    match s.vault.arms.find? (fun a => a.mask == q.mask) with
    | none => s.answer q 0x27
    | some a =>
      if a.lap < s.earliest q then s.answer q 0x22
      else
        let s := (s.withdraw q.mask).sendBaton .withdraw q a.lap
        let s := { s with casc := { s.casc with
          sendBatons := s.casc.sendBatons.filter (fun b => !(b.op == .arm && b.mask == q.mask)) } }
        if q.issuer = s.ringPos then s.answer q 0x03 else s

/-- The master's decision on any request. -/
def State.judge (s : State) (q : CommitReq) : State :=
  match q.op with
  | 1 => s.decideDiscard q
  | 2 => s.decideAbandon q
  | _ => s.decideApply q

/-- A COMMIT is taken (R154, R157, R168): it waits, it is decided here, or it goes to the ring master. -/
def takeCommit (ops : List Nat) (r : Nat) (s : State) : State :=
  match s.vaultHead r 3 with
  | none => s
  | some d =>
    let q := s.requestOf r d
    let t := s
    let s := s.serveRing r
    if !ops.contains q.op then t
    else if s.mustWait q.mask then s.vaultWait r d q.mask []
    else if s.isMaster then s.judge q
    else if s.formCode q ≠ 0 then s.answer q (s.formCode q)
    else
      let s := s.setRing r { s.ring r with hold := true }
      let s := s.setDesc r { d with stage := .active }
      { s with
        vault := { s.vault with forwards := s.vault.forwards ++ [⟨r, d.id, s.lap⟩] }
        casc := { s.casc with sendForwards := s.casc.sendForwards ++ [q] } }

/-- A commit applies in the running lap: its entry lap begins. -/
def State.entryDue (s : State) : Bool := s.vault.arms.any (fun a => a.dist && a.reach == s.lap)

/-- FORWARDED_COMMIT_CHECK (R168): the requests that arrived, in ascending order of issuing engine, at the head of the lap:
after the commits that apply in it. One that names a switching group waits before any check (R157) and is then treated as
if it had arrived in the lap in which it is checked (R151). -/
def State.checkForwarded (s : State) : State :=
  if s.entryDue then s
  else if s.isMaster then
    let ready := s.vault.requests.filter (fun q => !s.mustWait q.mask)
    let wait := (s.vault.requests.filter (fun q => s.mustWait q.mask)).map (fun (q : CommitReq) =>
      { q with taken := max q.taken (s.lap + 1 - s.hopsTo q.issuer) })
    let s := { s with vault := { s.vault with requests := wait } }
    ((List.range 8).flatMap (fun p => ready.filter (fun q => q.issuer == p))).foldl State.judge s
  else { s with vault := { s.vault with requests := [] } }

/-- Forwarded COMMITs that no answer has reached within 16 laps complete RING_UNAVAILABLE (R156). -/
def State.expireForwards (s : State) (all : Bool) : State :=
  let old := s.vault.forwards.filter (fun f => all || decide (f.lap + 16 < s.lap))
  let s := { s with vault := { s.vault with forwards := s.vault.forwards.filter (fun f => !old.contains f) } }
  old.foldl (fun s f =>
    let op := match (s.ring f.ring).descs.find? (fun d => d.id == f.desc) with
      | none => 0
      | some d => bitsOf (d.word 0) 18 2
    s.commitDone f.ring f.desc op 0x28 []) s

/-! ### Batons and entry laps (R158, R161, R168, R169) -/

/-- BATON_DISTRIBUTE (R168): in the lap before the entry lap. -/
def batonDistribute (s : State) : State :=
  { s with vault := { s.vault with
    arms := s.vault.arms.map (fun a => if a.reach = s.lap + 1 then { a with dist := true } else a) } }

/-- An object's ramp begins after it was held muted (R67), unless it is still. -/
def State.rampObjs (s : State) (l : List Nat) (len : Nat) : State :=
  l.foldl (fun s o => if s.tile.cold.get false o then s else s.startRamp o len) s

/-- Every parameter of an object is among those written since it lost words of the store. -/
def VaultSt.allWritten (v : VaultSt) (ob : Nat) (w : List Nat) : Bool :=
  (List.range 4096).all (fun n => !v.pidOk true (if pidClass ob = 5 then ob else ob + n) ||
    w.contains (if pidClass ob = 5 then ob else ob + n))

/-- Objects that lost words of the store and are whole again once a commit covers them (R172). -/
def State.healStore (s : State) (mask : BitVec 64) : State :=
  let healed := (s.vault.loss.filter (fun e => match e.2 with
    | some (.store w) => s.vault.covers mask e.1 && s.vault.allWritten e.1 w
    | _ => false)).map (·.1)
  if healed.isEmpty then s
  else
    let s := { s with vault := { s.vault with
      loss := s.vault.loss.drop (fun ob => healed.contains ob)
      rampIn := s.vault.rampIn ++ [(⟨mask, some healed, s.lap, s.warmLen, false⟩ : PointRamp)] } }
    s.rampObjs (healed.filterMap objPlace) s.warmLen

/-- A commit among those sorted by their entry lap, in the order of acceptance. -/
def Arm.sortIn (a : Arm) : List Arm → List Arm
  | [] => [a]
  | b :: t => if a.lap < b.lap then a :: b :: t else b :: a.sortIn t

/-- A commit whose entry lap in the ring has come takes the next number: it applies now, or its baton was late (R158, R168:
an engine's numbers mirror the master's). -/
def VaultSt.number (v : VaultSt) (a : Arm) : VaultSt :=
  { v with
    gen := v.gen + 1
    arms := v.arms.map (fun b => if b.slot = a.slot then { b with num := some (v.gen + 1) } else b) }

/-- The commits whose entry lap in the ring has come are numbered, and VLT_GEN shows the last (R158, R161). -/
def State.numberArms (s : State) : State :=
  let due := s.vault.arms.filter (fun a => a.num.isNone && decide (a.lap ≤ s.lap) &&
    (decide (a.lap < a.reach) || (a.dist && a.reach == s.lap)))
  if due.isEmpty then s
  else
    let v := (due.foldl (fun l a => a.sortIn l) []).foldl VaultSt.number s.vault
    { s with vault := v }.wr64 Reg.VLT_GEN_LO_gen Reg.VLT_GEN_HI_gen v.gen

/-- The objects of a mask that no tile runs ramp in from the running lap. -/
def State.rampPoints (s : State) (mask : BitVec 64) (len : Nat) (late : Bool) : State :=
  if mask = 0 then s
  else { s with vault := { s.vault with rampIn := s.vault.rampIn ++ [(⟨mask, none, s.lap, len, late⟩ : PointRamp)] } }

/-- One commit applies (R158, R161). -/
def State.applyArm (s : State) (a : Arm) : State :=
  let v := s.vault
  let g := a.num.getD (v.gen + 1)
  let flip := v.objects.filter (fun ob => v.covers a.mask ob)
  let synced := s.placedIn (a.mask &&& v.unsynced)
  let s := { s with vault := { v with
    gen := max v.gen g
    gGen := (List.range 64).foldl (fun (t : Tbl Nat) n => if a.mask.getLsbD n then t.put 0 n g else t) v.gGen
    arms := v.arms.filter (fun b => b.mask != a.mask)
    storeBit := flip.foldl (fun (t : Tbl Bool) ob => t.put false ob (!t.get false ob)) v.storeBit
    switching := v.switching ++ [(⟨a.mask, s.lap, g, a.prof, []⟩ : Switching)]
    unsynced := v.unsynced &&& ~~~a.mask } }
  let s := s.wr64 Reg.VLT_GEN_LO_gen Reg.VLT_GEN_HI_gen (max v.gen g)
  let s := (s.rampObjs synced s.warmLen).rampPoints (a.mask &&& v.unsynced) s.warmLen false
  let s := if a.lap < a.reach then
      (s.rampObjs (s.placedIn a.mask) (s.rd Reg.TIL_RAMP_resume_samples)).rampPoints a.mask
        (s.rd Reg.TIL_RAMP_resume_samples) true
    else s
  let s := (s.healStore a.mask).vaultStatus.setEvent Reg.VLT_EVENT_ev 0
  let s := if a.late then (s.bump Reg.VLT_LATE_COUNT_count 1).setEvent Reg.VLT_EVENT_ev 2 else s
  match a.own with
  | none => s
  | some (r, id) => s.commitDone r id 0 (if a.late then 0x01 else 0x00)
      [(4, BitVec.ofNat 32 g), (5, BitVec.ofNat 32 (g / 2 ^ 32)),
       (6, BitVec.ofNat 32 a.lap), (7, BitVec.ofNat 32 (a.lap / 2 ^ 32))]

/-- ENTRY_LAP (R158, R161): every commit whose entry lap this is applies, in the order of acceptance; the requests that
other engines forwarded are checked after them. -/
def entryLap (s : State) : State :=
  let t := s.numberArms
  let due := t.vault.arms.filter (fun a => a.dist && a.reach == t.lap)
  if due.isEmpty then t else (due.foldl State.applyArm t).checkForwarded

/-! ### Page exchange (R162 to R164, R166) -/

/-- A swap that flips an element's bit, and the parameters of it whose live value changes. -/
def State.exchangeElem (s : State) (sw : Switching) (e : Nat) : State :=
  let v := s.vault
  let bit := v.bankBit.get false e
  let changed := v.pids (fun p => elemOf p == e && v.page bit p != v.page (!bit) p)
  { s with vault := { v with
    bankBit := v.bankBit.put false e (!bit)
    chg := changed.foldl (fun (t : Tbl Chg) p => t.insert p ⟨sw.gen, sw.prof⟩) v.chg
    swap := v.swap.insert e ⟨s.lap, sw.prof⟩ } }

/-- A live parameter changed at this lap's exchange of its element. -/
def State.changedNow (s : State) (sw : Switching) (p : Nat) : Bool := (s.vault.chg.get ⟨0, Prof.cut⟩ p).gen == sw.gen

/-- A swap at an insert point: a point of an absent column ignores it (R83). -/
def State.swapIns (s : State) (k : Nat) (v : RVal) (len : Nat) (power : Bool) : State :=
  if s.layout.insOn k then s.changeIns k v len power else s

/-- The route change, delay comparison or re-evaluation that an element's exchange brings (R82, R89, R100, R112,
R145). -/
def State.afterExchange (s : State) (sw : Switching) (e : Nat) : State :=
  let i := pidIndex e
  let len := sw.prof.route
  let pw := sw.prof.power
  let chg (n : Nat) : Bool := s.changedNow sw (e / 4096 * 4096 + n)
  match pidClass e, pidNum e with
  | 1, 0 =>
    let s := if !chg 0x105 then s
      else if (s.slotOf i).isSome && !s.tile.cold.get false i then s.changeDir i ⟨s.code 1 i 0x105, 0⟩ len pw
      else s.setDirPt i (RoutePt.at (s.code 1 i 0x105))
    if (s.slotOf i).isSome then s.delayCompare (8 * i) else s
  | 1, 1 => s.swapIns (2 * i) ⟨s.code 1 i 0xF00, s.code 1 i 0xF01⟩ len pw
  | 2, 0 => if (s.slotOf (1024 + i)).isSome then s.delayCompare (8 * (1024 + i)) else s
  | 2, 1 => s.swapIns (2 * (1024 + i)) ⟨s.code 2 i 0xF00, s.code 2 i 0xF01⟩ len pw
  | 2, 2 => s.swapIns (2 * (1024 + i) + 1) ⟨s.code 2 i 0xF02, s.code 2 i 0xF03⟩ len pw
  | 3, 1 => s.swapIns (2 * (1280 + i)) ⟨s.code 3 i 0xF00, s.code 3 i 0xF01⟩ len pw
  | 3, 2 => s.swapIns (2 * (1280 + i) + 1) ⟨s.code 3 i 0xF02, s.code 3 i 0xF03⟩ len pw
  | 3, 3 => if (s.slotOf (1280 + i)).isSome then s.delayCompare (8 * (1280 + i)) else s
  | 4, _ => if chg 0 || chg 1 || chg 2 then (s.markNew (s.lap - 1) i).abReevaluate (s.lap - 1) i sw.prof else s
  | 5, n => s.changeOut (n / 16 * 4096 + i) ⟨s.code 5 i n, 0⟩ len pw
  | 7, _ => if (s.slotOf (1344 + i)).isSome then (s.delayKeys (1344 + i)).foldl State.delayCompare s else s
  | 8, _ =>
    let r := (s.genAt i).change ⟨s.code 8 i 0, (s.par 8 i 3).toNat⟩ len pw
    (s.setGen i r.1).deferred r.2
  | _, _ => s

/-- The elements of a commit that have not exchanged and whose position a lap has reached. -/
def State.pendingElems (s : State) (sw : Switching) (p : Nat) : List Nat :=
  (s.vault.objects.filter (fun ob => s.vault.covers sw.mask ob)).flatMap (fun ob =>
    (elemsOf ob).filter (fun e => s.vault.bankBit.get false e != s.vault.storeBit.get false ob &&
      decide (s.elemPos e ≤ p)))

/-- A page swap in the tile that a heat's spare copies begins the copy anew (R60). -/
def State.recopy (s : State) (slots : List Nat) (h : Nat) : State :=
  let k := s.heat h
  let t := s.rd (Reg.TIL_HEAT_checked_tile h)
  if k.step = .copying && slots.any (fun n => s.slotTile n == some t) then s.setHeat h { k with copyFrom := s.lap } else s

/-- The exchange of one commit at a position. -/
def State.exchange (s : State) (p : Nat) (sw : Switching) : State :=
  let es := s.pendingElems sw p
  let s := es.foldl (fun s e => s.exchangeElem sw e) s
  let s := es.foldl (fun s e => s.afterExchange sw e) s
  let slots := (es.filterMap (fun e => objPlace e)).filterMap (fun o => s.slotOf o)
  let s := { s with vault := { s.vault with
    refresh := es.foldl (fun (t : Tbl Nat) e =>
      t.insert (if pidClass e = 5 then e else e / 4096 * 4096) (s.lap + 1)) s.vault.refresh
    reloading := s.vault.reloading.drop (fun k => slots.contains k)
    switching := s.vault.switching.map (fun (x : Switching) =>
      if x.gen = sw.gen then { x with exchanged := x.exchanged ++ [p] } else x) } }
  ([0, 1, 2, 3].foldl (fun s h => s.recopy slots h) s).vaultStatus

/-- PAGE_EXCHANGE (R162): in lap t + p, every element of position p. -/
def pageExchange (p : Nat) (s : State) : State :=
  (s.vault.switching.filter (fun x => x.lap + p == s.lap && !x.exchanged.contains p)).foldl
    (fun s sw => s.exchange p sw) s

/-- Every element of an object has exchanged. -/
def State.exchangedObj (s : State) (ob : Nat) : Bool :=
  (elemsOf ob).all (fun e => s.vault.bankBit.get false e == s.vault.storeBit.get false ob)

/-- LOFT_REFRESH_COMPLETE (R164): the object's loft repeats its live page; `bad`: a word of it in the store was
uncorrectable (R172). -/
def loftRefresh (ob : Nat) (bad : Bool) (s : State) : State :=
  if s.vault.refresh.has ob && s.exchangedObj ob then
    let s := if bad then s.storeLoss ob else s
    let v := s.vault
    let v := (v.pids (fun p => objOf p == ob)).foldl (fun (v : VaultSt) p => v.setLoft p (v.storeLive p)) v
    ({ s with vault := { v with refresh := v.refresh.erase ob } }).vaultStatus
  else s

/-- The lock release lap of a commit (R164). -/
def State.releaseLap (s : State) (x : Switching) : Nat := x.lap + max (s.layout.pTile + 3) s.layout.sMtx

/-- LOCK_RELEASE (R164): at the end of the lock release lap the groups of the commit open. -/
def lockRelease (s : State) : State :=
  let opens (x : Switching) : Bool := decide (s.releaseLap x ≤ s.lap) &&
    (s.vault.objects.filter (fun ob => s.vault.covers x.mask ob)).all (fun ob =>
      s.exchangedObj ob && !s.vault.refresh.has ob)
  ({ s with vault := { s.vault with switching := s.vault.switching.filter (fun x => !opens x) } }).vaultStatus.writeOrphans

/-! ### Groups and joining a ring (R150, R170) -/

/-- GROUP_CHANGE (R150): a write of VLT_GROUP_DATA. -/
def groupChange (val : Word) (s : State) : State :=
  let sub := s.rd Reg.VLT_GROUP_ADDR_sub
  let cls := s.rd Reg.VLT_GROUP_ADDR_class
  let ob := pid cls (s.rd Reg.VLT_GROUP_ADDR_index) sub
  if !objectExists ob || (cls != 5 && sub != 0) then s
  else
    let g := val.toNat % 64
    let busy := s.vault.armedMask ||| s.vault.switchMask
    if busy.getLsbD g || busy.getLsbD (s.vault.groupOf ob) then s.setEvent Reg.VLT_EVENT_ev 6
    else { s with vault := { s.vault with group := s.vault.group.put 0 ob g } }

/-- ENGINE_JOIN (R170): the ring's generations are taken; a group whose generation differs is unsynced, and its
objects on this engine are cold. -/
def engineJoin (s : State) : State :=
  if s.inRing && !s.isMaster && !s.casc.joined && (List.range 16).all (fun p => s.casc.pieces.contains p) then
    let differ := (List.range 64).filter (fun g => s.casc.ringGens.get 0 g != s.vault.gGen.get 0 g)
    let mask : BitVec 64 := differ.foldl (fun m g => m ||| (1#64 <<< g)) 0
    let s := (s.placedIn mask).foldl (fun s o => (s.chill o).zeroOut o) s
    let s := { s with
      vault := { s.vault with
        unsynced := s.vault.unsynced ||| mask
        gen := s.casc.ringGen
        gGen := s.casc.ringGens }
      casc := { s.casc with pieces := [], joined := true } }
    ((s.wr64 Reg.VLT_GEN_LO_gen Reg.VLT_GEN_HI_gen s.vault.gen).vaultStatus).setEventIf (mask != 0) Reg.VLT_EVENT_ev 8
  else s

/-! ### Reloads (R171, R172) -/

/-- Objects placed on a slot that wait for a reload of their own. -/
def State.waitObjs (s : State) (slot : Nat) : List Nat :=
  (s.objsOn slot).filter (fun o => s.vault.objReload.get false o)

/-- A slot needs a reload: its tile returned to duty, or it holds an object that waits. -/
def State.needsReload (s : State) (slot : Nat) : Bool :=
  s.vault.slotReload.get false slot || !(s.waitObjs slot).isEmpty

/-- The objects of the vault on a slot that a reload reads. -/
def State.reloadObs (s : State) (slot : Nat) : List Nat :=
  ((if s.vault.slotReload.get false slot then s.objsOn slot else s.waitObjs slot).flatMap placeObjs)

/-- SLOT_RELOAD (R171, R172): `bad` are objects of the vault whose store words are uncorrectable. It does not start
while a group of the slot is switching. -/
def slotReload (slot : Nat) (bad : List Nat) (s : State) : State :=
  let obs := s.reloadObs slot
  if !s.needsReload slot || s.vault.reloading.get false slot || !s.on Reg.VLT_STATUS_store_ok ||
      obs.any (fun ob => s.vault.switchMask.getLsbD (s.vault.groupOf ob)) then s
  else
    let s := { s with vault := { s.vault with reloading := s.vault.reloading.insert slot true } }
    (bad.filter (fun ob => obs.contains ob)).foldl State.storeLoss s

/-- An object's reload is complete: its state is zero, its pages are whole, and it warms up. -/
def State.warmObj (s : State) (o : Nat) : State :=
  let s := (s.zeroState o).zeroOut o
  let loss := (placeObjs o).foldl (fun (t : Tbl (Option PageLoss)) ob =>
    if t.get none ob = some .reloading then t.erase ob else t) s.vault.loss
  { s with
    tile := { s.tile with cold := s.tile.cold.erase o }
    vault := { s.vault with objReload := s.vault.objReload.erase o, loss := loss } }.startRamp o s.warmLen

/-- RELOAD_COMPLETE (R171): a whole slot's state banks S0 and S1 are zero, and so is the state of every object read. -/
def reloadComplete (slot : Nat) (s : State) : State :=
  if !s.vault.reloading.get false slot then s
  else
    let whole := s.vault.slotReload.get false slot
    let objs := if whole then s.objsOn slot else s.waitObjs slot
    let s := { s with vault := { s.vault with
      reloading := s.vault.reloading.erase slot
      slotReload := s.vault.slotReload.erase slot } }
    let s := match s.slotTile slot with
      | some t =>
        if whole then
          let x := s.tileAt t
          let s := s.setTile t { x with tgen := s.vault.gen, bank := x.bank.drop (fun k => k / 16384 == 2 || k / 16384 == 3) }
          if s.tstate t = 2 then s.setTstate t (if objs.isEmpty then 0 else 1) else s
        else s
      | none => s
    (objs.foldl State.warmObj s).setEvent Reg.VLT_EVENT_ev 5

/-! ### Snapshots (R173 to R175, R183, R193) -/

/-- SNAP_CFG (R193). -/
def snapCfg (r : Nat) (s : State) : State :=
  match s.vaultHead r 4 with
  | none => s
  | some d =>
    let s := s.serveRing r
    if !s.on Reg.VLT_STATUS_store_ok then s.vaultWait r d 0 []
    else
      let n := d.word 5 % 65536
      let phi := d.word 5 / 65536
      let flags := bitsOf (d.word 4) 8 8
      let q := bitsOf (d.word 4) 16 6
      let st := d.word 4 % 4
      if (n ≠ 0 ∧ n ≤ phi) ∨ 32 ≤ flags ∨ !(s.ringOn q && s.ringFunc q == 2) then s.complete r d.id 0x43 0 0 []
      else
        let old := s.vault.snap.get SnapCfg.off st
        let c : SnapCfg := { old with next := old.next ++ [⟨n, phi, flags, q, s.lap + 2⟩] }
        ({ s with vault := { s.vault with snap := s.vault.snap.insert st c } }).complete r d.id 0x40 0 0 []

/-- The strip that a placement index shows in the running lap: its written state, else its read state. -/
def State.stripNow (s : State) (o : Nat) : Strip := s.audio.stripsW.get (s.audio.strips.get Strip.cold o) o

/-- An object's meter record (R129). -/
def State.meterRecord (s : State) (o : Nat) : List Word :=
  let x := s.stripNow o
  let c := placeClass o
  let m := x.mute
  [x.meter.pk, x.meter.rms, if c = 3 then 0 else x.d1.gs, if c = 3 then 0 else x.d2.gs, if c = 2 then x.d3.gs else 0,
   BitVec.ofNat 32 (x.meter.clipLaps % 65536 + 65536 * b2n m.use + 2 ^ 17 * b2n (m.searching || m.fade.isSome) +
     2 ^ 18 * b2n (c != 3 && x.d1.gate) + 2 ^ 19 * b2n (decide (0 < x.fader.r)))]

/-- The objects of a class below their capacity, by placement index. -/
def State.classObjs (s : State) (c : Nat) : List Nat :=
  let n := (match c with
    | 1 => 1024
    | 2 => 256
    | _ => 64) / (if s.high then 2 else 1)
  (List.range n).map (fun i => placeOf c i)

/-- An object's status in a snapshot: 0 active, 1 warming, 2 cold or muted, 3 not placed (R174). An object whose ramp is
still to start put out zero in the lap. -/
def State.objStatus (s : State) (o : Nat) : Nat :=
  if (s.slotOf o).isNone then 3
  else if s.objMuted o then 2
  else match s.tile.ramp.get none o with
    | none => 0
    | some r => if r.pos = 0 then 2 else 1

/-- Small codes packed into words, `per` to a word of `bits` each. -/
def packCodes (bits per : Nat) : Nat → List Nat → List Word
  | 0, _ => []
  | _, [] => []
  | n + 1, l => BitVec.ofNat 32 ((l.take per).foldr (fun v a => a * 2 ^ bits + v) 0) :: packCodes bits per n (l.drop per)

/-- A strip's A/B byte (R174). -/
def State.abByte (s : State) (i : Nat) : Nat :=
  b2n (s.ab i).selB + 2 * s.healthCode i false + 8 * s.healthCode i true + 32 * b2n (fadeRuns (s.inPt i).fade)

/-- The sections that the lap just processed gives a snapshot, by number: 0 to 2 meter records, 3 to 5 object status,
6 A/B state. -/
def State.gather (s : State) (x : Snap) : Snap :=
  let l := s.layout
  let add (c pos : Nat) (t : Tbl (List Word)) : Tbl (List Word) :=
    if x.lap + pos ≤ s.lap && !t.has (c - 1) then
      let os := s.classObjs c
      (t.insert (c - 1) (os.flatMap s.meterRecord)).insert (c + 2) (packCodes 2 16 os.length (os.map s.objStatus))
    else t
  let secs := add 3 l.posMtx (add 2 l.posBus (add 1 l.posStrip x.sections))
  if x.lap = s.lap then
    { x with
      gen := s.vault.gen
      sections := secs.insert 6 (packCodes 8 4 1024 ((List.range (1024 / (if s.high then 2 else 1))).map s.abByte)) }
  else { x with sections := secs }

/-- The media time of a count in ns since the PTP epoch, rounded down (R18). -/
def State.mediaNs (s : State) (m : Int) : Nat := ((m + s.time.anchor) * 1000000000 / s.fs).toNat

/-- The late batons' mark of an entry lap (R169, R174). -/
def VaultSt.lateAt (v : VaultSt) (lap : Nat) : Bool := v.lateMute.any (fun l => decide (l.2.1 ≤ lap) && decide (lap < l.2.2))

/-- At the end of a lap the open snapshots gather what the lap processed. -/
def State.gatherSnaps (s : State) : State :=
  { s with vault := { s.vault with snaps := s.vault.snaps.map s.gather } }

/-- An entry lap meets a setting's period and phase (R173). -/
def SnapSet.meets (x : SnapSet) (lap : Nat) : Bool := x.period != 0 && decide (x.start ≤ lap) && lap % x.period == x.phase

/-- A setting begins to govern its stream with the first entry lap from its start on that meets its period and phase; a
period of 0, which no lap meets, with its start (R193; DESIGN CHOICE, log entry 36). -/
def SnapSet.governs (x : SnapSet) (lap : Nat) : Bool := x.meets lap || (x.period == 0 && decide (x.start ≤ lap))

/-- A stream at the begin of an entry lap: the newest setting that governs it from now on takes over. -/
def SnapCfg.turn (lap : Nat) (c : SnapCfg) : SnapCfg :=
  c.next.foldl (fun (c : SnapCfg) x =>
    if x.governs lap then { c with cur := x, next := (c.next.dropWhile (fun y => y != x)).drop 1 } else c) c

/-- At a lap boundary the streams whose period the new entry lap meets take a snapshot (R173). -/
def State.openSnaps (s : State) : State :=
  let s := { s with vault := { s.vault with snap := s.vault.snap.map (fun (e : Nat × SnapCfg) => (e.1, e.2.turn s.lap)) } }
  let due := (s.vault.snap.filter (fun (e : Nat × SnapCfg) => e.2.cur.meets s.lap)).map
    (fun (e : Nat × SnapCfg) => (⟨e.1, s.lap, 0, e.2.cur.flags, e.2.cur.ring, 0, false, s.mediaNs (((s.lap : Int) - 1) * s.nLap), []⟩ : Snap))
  { s with vault := { s.vault with snaps := s.vault.snaps ++ due } }

/-- In the lap that transports a snapshot's samples its header takes whether the layout mute acts on them (R174). -/
def State.judgeSnaps (s : State) : State :=
  { s with vault := { s.vault with snaps := s.vault.snaps.map (fun (x : Snap) =>
    if !x.judged && decide (x.lap + s.layout.sMtx ≤ s.lap) then
      { x with judged := true, word8 := x.word8 + 2 * b2n s.layoutMuted } else x) } }

/-- The status section's words padded with zero to 64 bytes (R174). -/
def padWords (n : Nat) (l : List Word) : List Word := l ++ List.replicate ((n - l.length % n) % n) 0

/-- The words of a snapshot's sections, in the order of R174. -/
def Snap.body (x : Snap) : List Word :=
  let sec (n : Nat) : List Word := x.sections.get [] n
  (if bitAt x.flags 0 then sec 0 else []) ++ (if bitAt x.flags 1 then sec 1 else []) ++
  (if bitAt x.flags 2 then sec 2 else []) ++
  (if bitAt x.flags 3 then padWords 16 (sec 3 ++ sec 4 ++ sec 5) else []) ++ (if bitAt x.flags 4 then sec 6 else [])

/-- A snapshot's words: header, sections, trailer (R174). -/
def State.snapWords (s : State) (x : Snap) (seq : Nat) : List Word :=
  let w (n : Nat) : Word := BitVec.ofNat 32 n
  let body := x.body
  let word8 := b2n (s.vault.lateAt x.lap) + x.word8
  [w x.lap, w (x.lap / 2 ^ 32), w x.gen, w (x.gen / 2 ^ 32), w x.time, w (x.time / 2 ^ 32), w (x.stream + 256 * x.flags),
   w seq, w word8, w (128 + 4 * body.length), 0, 0, 0, 0, 0, 0] ++ body ++
  [w seq, w x.lap, w (x.lap / 2 ^ 32)] ++ List.replicate 13 0

/-- SNAPSHOT_WRITE (R173, R175, R183): from lap e + p_tile + 1, once the lap that transports its samples has begun. The area keeps every snapshot taken, delivered or not
(DEDUCED, log 96). -/
def snapshotWrite (st : Nat) (s : State) : State :=
  match s.vault.snaps.find? (fun x => x.stream == st) with
  | none => s
  | some x =>
    if s.lap < x.lap + s.layout.pTile + 1 || !x.judged then s
    else
      let c := s.vault.snap.get SnapCfg.off st
      let seq := if c.seq = 2 ^ 32 - 1 then 1 else c.seq + 1
      let data := wordBytes (s.snapWords x seq)
      let at_ := st * 0x20000 + b2n c.second * 0x10000
      let s := { s with
        vault := { s.vault with
          snaps := s.vault.snaps.erase x
          snap := s.vault.snap.insert st { c with seq := seq, second := !c.second } }
        host := { s.host with snapArea := putBytes s.host.snapArea at_ data } }
      match (s.buffer x.ring 2).filter (fun d => decide (data.length ≤ d.len)) with
      | some d => s.deliver x.ring d data [(4, BitVec.ofNat 32 seq)]
      | none => (s.bump Reg.VLT_SNAP_DROP_count 1).setEvent Reg.VLT_EVENT_ev 7

/-- PARAM_WRITE (R152). -/
def execParamWrite (ring : Nat) (items : List (Word × Word × BitVec 64)) (s : State) : Host.Outcome State Fault Refusal :=
  whenWf (.paramWrite ring items) (paramWrite ring items s)

/-- PARAM_READ (R153). -/
def execParamRead (ring : Nat) (items : List (Word × Word × BitVec 64)) (bad : List Nat) (s : State) : Host.Outcome State Fault Refusal :=
  whenWf (.paramRead ring items bad) (paramRead ring items bad s)

/-- COMMIT_APPLY (R157). -/
def execCommitApply (ring : Nat) (s : State) : Host.Outcome State Fault Refusal :=
  whenWf (.commitApply ring) (takeCommit [0, 3] ring s)

/-- COMMIT_DISCARD (R160). -/
def execCommitDiscard (ring : Nat) (s : State) : Host.Outcome State Fault Refusal :=
  whenWf (.commitDiscard ring) (takeCommit [1] ring s)

/-- COMMIT_ABANDON (R160). -/
def execCommitAbandon (ring : Nat) (s : State) : Host.Outcome State Fault Refusal :=
  whenWf (.commitAbandon ring) (takeCommit [2] ring s)

/-- SNAP_CFG (R193). -/
def execSnapCfg (ring : Nat) (s : State) : Host.Outcome State Fault Refusal :=
  whenWf (.snapCfg ring) (snapCfg ring s)

/-- WAITING_DESCRIPTOR_RELEASE (R151). -/
def execWaitingDescriptorRelease (ring : Nat) (s : State) : Host.Outcome State Fault Refusal :=
  whenWf (.waitingDescriptorRelease ring) (waitingRelease ring s)

/-- GROUP_CHANGE (R150). -/
def execGroupChange (val : Word) (s : State) : Host.Outcome State Fault Refusal :=
  whenWf (.groupChange val) (groupChange val s)

/-- BATON_DISTRIBUTE (R168). -/
def execBatonDistribute (s : State) : Host.Outcome State Fault Refusal :=
  whenWf .batonDistribute (batonDistribute s)

/-- ENTRY_LAP (R161). -/
def execEntryLap (s : State) : Host.Outcome State Fault Refusal :=
  whenWf .entryLap (entryLap s)

/-- PAGE_EXCHANGE (R162). -/
def execPageExchange (p : Nat) (s : State) : Host.Outcome State Fault Refusal :=
  whenWf (.pageExchange p) (pageExchange p s)

/-- LOFT_REFRESH_COMPLETE (R164). -/
def execLoftRefreshComplete (obj : Nat) (bad : Bool) (s : State) : Host.Outcome State Fault Refusal :=
  whenWf (.loftRefreshComplete obj bad) (loftRefresh obj bad s)

/-- LOCK_RELEASE (R164). -/
def execLockRelease (s : State) : Host.Outcome State Fault Refusal :=
  whenWf .lockRelease (lockRelease s)

/-- ENGINE_JOIN (R170). -/
def execEngineJoin (s : State) : Host.Outcome State Fault Refusal :=
  whenWf .engineJoin (engineJoin s)

/-- SLOT_RELOAD (R171). -/
def execSlotReload (slot : Nat) (bad : List Nat) (s : State) : Host.Outcome State Fault Refusal :=
  whenWf (.slotReload slot bad) (slotReload slot bad s)

/-- RELOAD_COMPLETE (R171). -/
def execReloadComplete (slot : Nat) (s : State) : Host.Outcome State Fault Refusal :=
  whenWf (.reloadComplete slot) (reloadComplete slot s)

/-- SNAPSHOT_WRITE (R173). -/
def execSnapshotWrite (stream : Nat) (s : State) : Host.Outcome State Fault Refusal :=
  whenWf (.snapshotWrite stream) (snapshotWrite stream s)

end Sys2Proof.Machine
end

