-- ==== Sys2Proof/Machine/Casc.lean ====
section
/-! DEFINITION. The cascade ring (chapter 17): the bypass, links and lanes, lap frames, relays, batons and
the master's loss. -/

namespace Sys2Proof.Machine

/-- A cascade port: 0 EAST, 1 WEST. -/
def State.cport (s : State) (p : Nat) : CascPort := s.casc.ports.get CascPort.reset p

/-- Stores a cascade port. -/
def State.setCport (s : State) (p : Nat) (x : CascPort) : State :=
  { s with casc := { s.casc with ports := s.casc.ports.insert p x } }

/-- EXL_STATUS.state: 0 off, 1 self-test, 2 ready, 3 inserting, 4 in ring, 5 fault. -/
def State.cstate (s : State) : Nat := s.rd Reg.EXL_STATUS_state

/-- Writes EXL_STATUS.state. -/
def State.setCstate (s : State) (v : Nat) : State := s.wr Reg.EXL_STATUS_state v

/-- A port's link is up: trained and measured. -/
def State.linkUp (s : State) (p : Nat) : Bool := s.on (Reg.EXL_PORT_link p)

/-! ### The pin and the commands (R338, R339) -/

/-- CASC_THRU_N: driven low, or released. -/
def State.driveThru (s : State) (low : Bool) : State :=
  { s with pads := { s.pads with thruLow := low } }.wr Reg.EXL_STATUS_thru (b2n low)

/-- The hops to a position in the direction of a port, when it reaches it. -/
def State.hopsVia (s : State) (p q : Nat) : Option Nat :=
  if p = 0 then (if s.on (Reg.EXL_MAP_east_ok q) then some (s.rd (Reg.EXL_MAP_east q)) else none)
  else (if s.on (Reg.EXL_MAP_west_ok q) then some (s.rd (Reg.EXL_MAP_west q)) else none)

/-- The largest of a list of hops. -/
def maxHop (l : List (Option Nat)) : Nat := l.foldl (fun m h => max m (h.getD 0)) 0

/-- Sets the map, and what follows from it: members, ring or line, the largest hop count needed, which is half the
members in a ring and the length of a line (R343). -/
def State.setMap (s : State) (map : List CascHop) : State :=
  let s := (map.zipIdx).foldl (fun s e =>
    let s := (s.wr (Reg.EXL_MAP_east e.2) (e.1.east.getD 0)).wr (Reg.EXL_MAP_east_ok e.2) (b2n e.1.east.isSome)
    (s.wr (Reg.EXL_MAP_west e.2) (e.1.west.getD 0)).wr (Reg.EXL_MAP_west_ok e.2) (b2n e.1.west.isSome)) s
  let others := (map.zipIdx).filter (fun e => e.2 != s.casc.pos && (e.1.east.isSome || e.1.west.isSome))
  let line := others.any (fun e => e.1.east.isNone || e.1.west.isNone)
  let need := if line then maxHop (others.map (·.1.east)) + maxHop (others.map (·.1.west)) else (others.length + 1) / 2
  ((s.wr Reg.EXL_STATUS_members (others.length + 1)).wr Reg.EXL_STATUS_topo (b2n line)).wr Reg.EXL_STATUS_h_need need

/-- A direction reaches no engine any longer (R339, R343). -/
def State.cutMap (s : State) (p : Nat) : State :=
  s.setMap ((List.range 8).map (fun q =>
    ⟨if p = 0 then none else s.hopsVia 0 q, if p = 0 then s.hopsVia 1 q else none⟩))

/-- A link breaks (R339): it carries nothing until it has trained and been measured again; of one that was up, the map follows. -/
def State.breakLink (s : State) (p : Nat) : State :=
  let up := s.linkUp p
  let x := s.cport p
  let s := s.setCport p { x with trained := false, measured := false, measuring := false, got := Relay.none, relay := Relay.none,
                                 chownBad := false, layoutBad := false }
  let s := ((s.wr (Reg.EXL_PORT_link p) 0).wr (Reg.EXL_PORT_lock p) 0).wr (Reg.EXL_PORT_nbr_valid p) 0
  if up then ((s.cutMap p).setEvent Reg.EXL_EVENT_ev 1).setEvent Reg.EXL_EVENT_ev 3 else s

/-- EXL_PORTp.protected and HLT_ATTIC show whether a port has its spare lane (R336, R390). -/
def State.setProtected (s : State) (p : Nat) (b : Bool) : State :=
  (s.wr (Reg.EXL_PORT_protected p) (b2n b)).wr (if p = 0 then Reg.HLT_ATTIC_lane_e else Reg.HLT_ATTIC_lane_w) (b2n b)

/-- The neighbours' layouts decide the mute of R88, also at a lap boundary: a link that broke carries no layout that differs. -/
def State.layoutCheck (s : State) : State := s.layoutDiffers ((s.cport 0).layoutBad || (s.cport 1).layoutBad)

/-- The map of an engine that reaches no other. -/
def State.clearMap (s : State) : State :=
  let s := (List.range 8).foldl (fun s q => s.setReg (0xA040 + 4 * q) 0) s
  ((s.wr Reg.EXL_STATUS_topo 0).wr Reg.EXL_STATUS_h_need 0).wr Reg.EXL_STATUS_members 0

/-- The engine leaves the ring: it stands alone. -/
def State.leaveRing (s : State) (st : Nat) : State :=
  let s := ((((s.breakLink 0).breakLink 1).clearMap).wr Reg.EXL_STATUS_master_ok 0).setCstate st
  let s := { s with casc := { s.casc with
    acts := [], sendCmd := [], sendRefused := [], sendBatons := [], sendForwards := [], pieces := [], joined := false,
    chanHist := [], chanOut := [], partOut := [], ringAnchor := none } }
  (if (s.allocHeld 6 0).isSome then s.freeAlloc 6 0 else s).layoutCheck.vaultStatus

/-- CASCADE_ENABLE (R337, R338): the position of EXL_CFG is taken, and the self-test runs. It acts in state off or
fault. -/
def cascadeEnable (s : State) : State :=
  if s.cstate = 0 ∨ s.cstate = 5 then
    let s := { s with casc := { CascSt.reset with pos := s.rd Reg.EXL_CFG_pos, layoutMute := s.casc.layoutMute } }
    let s := [0, 1].foldl (fun s p =>
      (s.setProtected p true).wr (Reg.EXL_PORT_failed_lane p) 3) s
    s.setCstate 1
  else s

/-- SELF_TEST_DONE (R338, R339). -/
def selfTestDone (pass : Bool) (s : State) : State :=
  if s.cstate = 1 then (if pass then s.setCstate 2 else (s.driveThru false).setCstate 5) else s

/-- CASCADE_INSERT (R339): from state ready. -/
def cascadeInsert (s : State) : State :=
  if s.cstate = 2 then { s with casc := { s.casc with pinPend := some (true, s.lap) } }.setCstate 3 else s

/-- CASCADE_WITHDRAW (R339): of an engine that is inserted. -/
def cascadeWithdraw (s : State) : State :=
  if s.cstate = 3 ∨ s.cstate = 4 then { s with casc := { s.casc with pinPend := some (false, s.lap) } } else s

/-- CASCADE_DISABLE (R338): the pin is released and the cascade is off. -/
def cascadeDisable (s : State) : State :=
  if s.cstate = 0 then s
  else ({ s with casc := { s.casc with pinPend := none } }.driveThru false).leaveRing 0

/-- BYPASS_SWITCH (R339): at the boundary after the command the pin changes, and the links break. Before processing
start there is no boundary to wait for. -/
def bypassSwitch (s : State) : State :=
  match s.casc.pinPend with
  | none => s
  | some (low, lap) =>
    if s.run && decide (s.lap ≤ lap) then s
    else
      let s := { s with casc := { s.casc with pinPend := none } }.driveThru low
      if low then (s.breakLink 0).breakLink 1 else s.leaveRing 2

/-! ### Links (R336, R339, R340) -/

/-- hop_over is set while more hops are needed than the ring depth (R343). -/
def State.hopOver (s : State) : State :=
  s.setEventIf (decide (s.layout.h < s.rd Reg.EXL_STATUS_h_need)) Reg.EXL_EVENT_ev 4

/-- At ring formation the engine allocates its link buffer, of a size the spec does not state and without a twin; without room
for it the ring forms all the same (DESIGN CHOICE, log 64). -/
def State.linkBuffer (s : State) : State :=
  if (s.allocHeld 6 0).isSome then s else (s.engineAlloc 6 0 Config.linkShelves false).getD s

/-- The engine is in the ring as soon as a link is up; the master then has heard itself. -/
def State.joinRing (s : State) : State :=
  if s.cstate = 3 ∧ s.pads.thruLow then
    let s := s.linkBuffer.setCstate 4
    let s := if s.on Reg.EXL_CFG_master then
      (s.wr Reg.EXL_STATUS_master_pos s.casc.pos).wr Reg.EXL_STATUS_master_ok 1 else s
    s.vaultStatus
  else s

/-- A link that has trained and been measured comes up, unless its delay is above 16 000 ns (R339, R340). -/
def State.linkCheck (s : State) (p : Nat) : State :=
  let x := s.cport p
  let hop := s.rd (Reg.EXL_HOP_ns p)
  if !x.trained || !x.measured then s
  else if 16000 < hop then
    let s := s.setEvent Reg.EXL_EVENT_ev 11
    if s.linkUp p then (((s.wr (Reg.EXL_PORT_link p) 0).cutMap p).setEvent Reg.EXL_EVENT_ev 1).setEvent Reg.EXL_EVENT_ev 3 else s
  else if s.linkUp p then s
  else (((s.wr (Reg.EXL_PORT_link p) 1).setEvent Reg.EXL_EVENT_ev 2).setEvent Reg.EXL_EVENT_ev 3).joinRing

/-- LINK_TRAINED (R339): a link that was up broke; its lanes are locked again, none of them failed, the neighbour is
known, and the master's map stands. -/
def linkTrained (p nbr : Nat) (map : List CascHop) (s : State) : State :=
  if s.cstate = 3 ∨ s.cstate = 4 then
    let s := s.breakLink p
    let s := s.setCport p { s.cport p with trained := true, measuring := true, crcRun := [], failed := [] }
    let s := ((s.wr (Reg.EXL_PORT_lock p) 7).setProtected p true).wr (Reg.EXL_PORT_failed_lane p) 3
    let s := (s.wr (Reg.EXL_PORT_nbr_pos p) nbr).wr (Reg.EXL_PORT_nbr_valid p) 1
    ((s.setMap map).hopOver).linkCheck p
  else s

/-- HOP_MEASURE_DONE (R340): the mean over 16 echoes of half of round trip less turnaround, to the nearest ns. -/
def hopMeasureDone (p : Nat) (echoes : List (Nat × Nat)) (s : State) : State :=
  if (s.cport p).trained && (s.cport p).measuring then
    let sum := echoes.foldl (fun a e => a + (e.1 - e.2)) 0
    let s := s.wr (Reg.EXL_HOP_ns p) (min ((sum + 16) / 32) 65535)
    (s.setCport p { s.cport p with measured := true, measuring := false }).linkCheck p
  else s

/-- A lane is marked failed (R336): the port is left without a spare (R390), and a second one takes the link down. -/
def State.failLane (s : State) (p lane : Nat) : State :=
  let x := s.cport p
  if x.failed.get false lane then s
  else
    let second := !x.failed.isEmpty
    let s := s.setCport p { x with failed := x.failed.insert lane true }
    let s := ((s.setProtected p false).wr (Reg.EXL_PORT_failed_lane p) lane).setEvent Reg.EXL_EVENT_ev 0
    let s := (s.fault 0x0800 p lane).setEvent Reg.HLT_EVENT_ev 6
    if second then s.breakLink p else s

/-- LANE_LOCK_LOSS (R336): the lap's frame is discarded. -/
def laneLockLoss (p lane : Nat) (s : State) : State :=
  let bit := 2 ^ lane
  if s.rd (Reg.EXL_PORT_lock p) &&& bit = 0 then s
  else
    let s := s.wr (Reg.EXL_PORT_lock p) (s.rd (Reg.EXL_PORT_lock p) - bit)
    (s.setCport p { s.cport p with dropLap := s.lap + 1 }).failLane p lane

/-! ### Directions (R343) -/

/-- The port toward a position with fewer hops, WEST when both are equal. -/
def State.portToward (s : State) (q : Nat) : Option Nat :=
  match s.hopsVia 0 q, s.hopsVia 1 q with
  | some e, some w => some (if e < w then 0 else 1)
  | some _, none => some 0
  | none, some _ => some 1
  | none, none => none

/-- The position that a port's neighbour has. -/
def State.neighbour (s : State) (p : Nat) : Option Nat :=
  if s.on (Reg.EXL_PORT_nbr_valid p) then some (s.rd (Reg.EXL_PORT_nbr_pos p)) else none

/-- An item of an origin that arrived on a port is passed on: it came over fewer than H hops, and the next engine is
not its origin. -/
def State.passesOn (s : State) (p origin : Nat) : Bool :=
  match s.hopsVia p origin with
  | none => false
  | some h => decide (h < s.layout.h) && s.neighbour (1 - p) != some origin

/-- An item of an origin is taken from a port: it arrives there with fewer hops, and over at most H. -/
def State.takenFrom (s : State) (p origin : Nat) : Bool :=
  s.portToward origin == some p && (match s.hopsVia p origin with
    | some h => decide (h ≤ s.layout.h)
    | none => false) && origin != s.casc.pos

/-! ### Channel ownership (R344) -/

/-- The owner of a ring channel's block. -/
def State.chanOwner (s : State) (ch : Nat) : Option Nat :=
  let w := (s.reg (0xA060 + 4 * (ch / 512))).toNat
  let k := 4 * (ch / 64 % 8)
  if bitsOf w (k + 3) 1 = 1 then some (bitsOf w k 3) else none

/-- The checksum of the channel table. -/
def State.chownSum (s : State) : Nat := Config.tableSum ((List.range 4).map (fun i => s.reg (0xA060 + 4 * i)))

/-! ### CASC_FRAME_SEND (R341 to R346) -/

/-- The master's part of a control message: one piece of the ring's generations a lap, and the ring commands taken since the last frame. A ring's
start lap is the lap that every engine has heard of it by. -/
def State.masterMsg (s : State) : MasterMsg where
  pos := s.casc.pos
  anchor := s.time.anchor
  startLap := s.lap + s.layout.h + 1
  gen := s.vault.gen
  piece := s.lap % 16
  gens := (List.range 4).map (fun i => s.vault.gGen.get 0 (4 * (s.lap % 16) + i))
  cmd := s.casc.sendCmd

/-- Batons that the master still sends: those of armed commits until lap t - 2, any other once (R168). -/
def State.liveBatons (s : State) : List Baton :=
  let l := s.casc.sendBatons.filter (fun b => b.op != .arm || decide (s.lap + 2 ≤ b.lap))
  l.filter (fun b => b.op == .arm) ++ l.filter (fun b => b.op != .arm)

/-- Those of them that take the 8 slots of a frame (R341); a baton without a slot waits for the next. -/
def State.slotBatons (s : State) : List Baton := s.liveBatons.take 8

/-- The frame of a port: this engine's items and what the opposite port received in the last lap. -/
def State.frameOf (s : State) (p : Nat) : CascFrame :=
  let r := (s.cport (1 - p)).relay
  let toMaster := s.portToward (s.rd Reg.EXL_STATUS_master_pos) == some p
  { pos := s.casc.pos
    lap := s.lap
    time := s.time.clock
    ctrl := {
      forwards := if toMaster then s.casc.sendForwards else []
      refused := s.casc.sendRefused.filter (fun x => s.portToward x.issuer == some p)
      layout := (s.reg Reg.GRF_LAYOUT_LIVE_in_ins.off).toNat
      chown := s.chownSum
      master := if s.isMaster then some s.masterMsg else r.master }
    batons := (if s.isMaster then s.slotBatons else []) ++ r.batons
    parts := s.casc.partOut.map (fun e => ⟨s.casc.pos, e.1, e.2⟩) ++ r.parts
    chans := s.casc.chanOut.map (fun e => ⟨e.1, e.2⟩) ++ r.chans }

/-- CASC_FRAME_SEND (R342): both ports whose links are up. -/
def cascFrameSend (s : State) : State :=
  if !s.run || !s.inRing then s
  else
    let t := [0, 1].foldl (fun t p => if s.linkUp p then t.emit (.casc p (s.frameOf p)) else t) s
    let t := [0, 1].foldl (fun t p => t.setCport p { t.cport p with relay := Relay.none }) t
    let sent (x : Refused) : Bool := (s.portToward x.issuer).any s.linkUp
    { t with casc := { t.casc with
      sendForwards := if (s.portToward (s.rd Reg.EXL_STATUS_master_pos)).any s.linkUp then [] else t.casc.sendForwards
      sendRefused := t.casc.sendRefused.filter (fun x => !sent x)
      sendBatons := s.slotBatons.filter (fun b => b.op == .arm) ++ s.liveBatons.drop 8
      sendCmd := []
      partOut := []
      chanOut := [] } }

/-! ### What a control message brings (R160, R168 to R170, R345, R346) -/

/-- A COMMIT of this engine that was forwarded, by its op and mask. -/
def State.forwardOf (s : State) (op : Nat) (mask : BitVec 64) : Option Forward :=
  s.vault.forwards.find? (fun f => match (s.ring f.ring).descs.find? (fun d => d.id == f.desc) with
    | none => false
    | some d => bitsOf (d.word 0) 18 2 == op && d.word64 2 == mask.toNat)

/-- A forwarded COMMIT has its answer. -/
def State.dropForward (s : State) (f : Forward) : State :=
  { s with vault := { s.vault with forwards := s.vault.forwards.erase f } }

/-- A forwarded discard or abandon completes on the engine that issued it. -/
def State.closeForward (s : State) (issuer op : Nat) (mask : BitVec 64) (code : Nat) : State :=
  if issuer = s.casc.pos then
    match s.forwardOf op mask with
    | none => s
    | some f => (s.dropForward f).commitDone f.ring f.desc op code []
  else s

/-- A baton of an armed commit (R168, R169): an engine that first holds it after the start of lap t - 1 applies it at
the first lap it can reach, and is muted until then. -/
def State.armBaton (s : State) (b : Baton) : State :=
  if s.casc.known.contains (b.mask, b.lap) then s
  else
    let s := { s with casc := { s.casc with known := s.casc.known ++ [(b.mask, b.lap)] } }
    let reach := max b.lap (s.lap + 2)
    let f := if b.issuer = s.casc.pos then s.forwardOf 0 b.mask else none
    let (own, s) := s.keepOwn (f.map (fun f => (f.ring, f.desc)))
    let a : Arm := ⟨s.vault.freeSlot, b.mask, b.lap, b.profile, b.prof, b.issuer, b.strict, b.late, own, false, reach, none⟩
    let s := s.setArms (s.vault.arms ++ [a])
    let s := match f with
      | none => s
      | some f => s.dropForward f
    if b.lap < reach then
      let s := { s with vault := { s.vault with lateMute := s.vault.lateMute ++ [(b.mask, b.lap, reach)] } }.numberArms
      s.setEvent Reg.VLT_EVENT_ev 3
    else s

/-- A baton from the master. -/
def State.takeBaton (s : State) (b : Baton) : State :=
  match b.op with
  | .arm => s.armBaton b
  | .withdraw =>
    let s := { s with casc := { s.casc with known := s.casc.known.filter (fun k => k.1 != b.mask) } }
    (s.withdraw b.mask).closeForward b.issuer 2 b.mask 0x03
  | .discard => ({ s with vault := s.vault.refreshMask b.mask }).closeForward b.issuer 1 b.mask 0x02

/-- A refusal: for this engine's own COMMIT, or to be relayed (R168). -/
def State.takeRefusal (s : State) (x : Refused) : State :=
  if x.issuer = s.casc.pos then
    match x.own with
    | none => s
    | some (r, id) =>
      match s.vault.forwards.find? (fun f => f.ring == r && f.desc == id) with
      | none => s
      | some f => (s.dropForward f).commitDone r id x.op x.code []
  else { s with casc := { s.casc with sendRefused := s.casc.sendRefused ++ [x] } }

/-- The master's generations, mirrored once the engine has joined (R168): those that a baton it never had would leave behind,
unless a commit of this lap has still to take its number. -/
def State.mirrorGens (s : State) (m : MasterMsg) : State :=
  if s.casc.joined && s.run && s.vault.arms.all (fun a => a.num.isSome || decide (s.lap < a.lap)) then
    let v := s.vault
    let s := { s with vault := { v with
      gen := max v.gen m.gen
      gGen := (m.gens.zipIdx).foldl (fun (t : Tbl Nat) (e : Nat × Nat) =>
        t.put 0 (4 * m.piece + e.2) (max (t.get 0 (4 * m.piece + e.2)) e.1)) v.gGen } }
    if v.gen < m.gen then s.wr64 Reg.VLT_GEN_LO_gen Reg.VLT_GEN_HI_gen m.gen else s
  else s

/-- What the master tells (R168, R170, R345, R346); one that follows another is a change of master. -/
def State.takeMaster (s : State) (m : MasterMsg) : State :=
  let s := s.setEventIf (s.casc.ringAnchor.isSome && s.rd Reg.EXL_STATUS_master_pos != m.pos) Reg.EXL_EVENT_ev 9
  let s := (s.wr Reg.EXL_STATUS_master_pos m.pos).wr Reg.EXL_STATUS_master_ok 1
  let s := { s with casc := { s.casc with
    heard := s.lap + 1
    ringAnchor := some (m.anchor, m.startLap)
    ringGen := m.gen
    ringGens := (m.gens.zipIdx).foldl (fun (t : Tbl Nat) (e : Nat × Nat) => t.put 0 (4 * m.piece + e.2) e.1) s.casc.ringGens
    pieces := if s.casc.pieces.contains m.piece then s.casc.pieces else s.casc.pieces ++ [m.piece]
    acts := s.casc.acts ++ m.cmd.filter (fun c => !s.casc.acts.contains c) } }
  (s.mirrorGens m).vaultStatus

/-- Whether two neighbours' tables or layouts agree, from a control message (R88, R344). -/
def State.compareCtrl (s : State) (p : Nat) (c : CtrlMsg) : State :=
  let badT := c.chown != s.chownSum
  let badL := c.layout != (s.reg Reg.GRF_LAYOUT_LIVE_in_ins.off).toNat
  let s := s.setCport p { s.cport p with chownBad := badT, layoutBad := badL }
  (s.setEventIf badT Reg.EXL_EVENT_ev 8).layoutCheck

/-- The control message and the batons of a frame. -/
def State.takeCtrl (s : State) (p : Nat) (f : CascFrame) : State :=
  let s := s.compareCtrl p f.ctrl
  let s := f.ctrl.refused.foldl State.takeRefusal s
  if s.isMaster then
    { s with vault := { s.vault with requests := s.vault.requests ++ f.ctrl.forwards } }
  else
    let s := { s with casc := { s.casc with sendForwards := s.casc.sendForwards ++ f.ctrl.forwards } }
    match f.ctrl.master with
    | none => s
    | some m =>
      let pass := s.neighbour (1 - p) != some m.pos
      let x := s.cport p
      let s := s.setCport p { x with got := { x.got with
        master := if pass then some m else none, batons := if pass then f.batons else [] } }
      if s.portToward m.pos = some p then f.batons.foldl State.takeBaton (s.takeMaster m)
      else { s with casc := { s.casc with heard := s.lap + 1 } }

/-! ### Items (R68, R69, R86, R343) -/

/-- The key of an engine partial held for its lap of the sends. -/
def ePartKey (lap origin bus j : Nat) : Nat := ((lap % 16 * 8 + origin) * 256 + bus) * 8 + j

/-- Takes one engine partial of sends of a lap. -/
def State.takePart (s : State) (lap : Nat) (i : PartItem) : State :=
  if s.nBus ≤ i.bus then s
  else
    let s := { s with audio := { s.audio with
      ePart := (i.vals.zipIdx).foldl (fun (t : Tbl X64) (e : X64 × Nat) =>
        if e.2 < s.nLap then t.put 0 (ePartKey lap i.origin i.bus e.2) e.1 else t) s.audio.ePart
      ePartLap := s.audio.ePartLap.insert ((lap % 16 * 8 + i.origin) * 256 + i.bus) (lap + 1)
      eStrips := s.audio.eStrips.insert i.origin ((s.audio.eStrips.get PartRun.none i.origin).heard lap) } }
    s

/-- The partials of a frame: an item of lap L that took h hops belongs to the sends of lap L - h. A neighbour whose frame
carries none of its own sends none from that lap on; the partials of earlier laps stay expected. -/
def State.takeParts (s : State) (p : Nat) (f : CascFrame) : State :=
  let s := f.parts.foldl (fun s i =>
    if s.takenFrom p i.origin then s.takePart (f.lap - (s.hopsVia p i.origin).getD 0) i else s) s
  let own := (s.audio.eStrips.get PartRun.none f.pos).ended (f.lap - (s.hopsVia p f.pos).getD 0)
  let s := if f.parts.all (fun i => i.origin != f.pos) && s.takenFrom p f.pos then
    { s with audio := { s.audio with eStrips := s.audio.eStrips.insert f.pos own } } else s
  let x := s.cport p
  s.setCport p { x with got := { x.got with parts := f.parts.filter (fun i => s.passesOn p i.origin) } }

/-- Ring channels of the current rate (R341). -/
def State.ringChans (s : State) : Nat := if s.high then 1024 else 2048

/-- The channels of a frame, but those of a neighbour whose table differs (R344): a sample of transport lap k is presented in capture lap k + H - 1 (R86). -/
def State.takeChans (s : State) (p : Nat) (f : CascFrame) : State :=
  let owner (i : ChanItem) : Nat := (s.chanOwner i.chan).getD 8
  let use := f.chans.filter (fun i => decide (i.chan < s.ringChans) && (s.chanOwner i.chan).isSome)
  let bad := (s.cport p).chownBad
  let s := use.foldl (fun s i =>
    if s.takenFrom p (owner i) && !(bad && owner i == f.pos) then
      let lap := f.lap + s.layout.h - (s.hopsVia p (owner i)).getD 0
      { s with casc := { s.casc with chanHist := s.casc.chanHist.insert (chanKey lap i.chan) (i.vals.take s.nLap) } }
    else s) s
  let x := s.cport p
  s.setCport p { x with got := { x.got with chans := use.filter (fun i => s.passesOn p (owner i)) } }

/-! ### CASC_FRAME_RECEIVE and CASC_FRAME_LATE (R336, R342, R345) -/

/-- The lanes whose CRC failed are counted; four laps in a row mark a lane failed (R336). -/
def State.crcLanes (s : State) (p : Nat) (bad : List Nat) : State :=
  let s := s.setEventIf (!bad.isEmpty) Reg.EXL_EVENT_ev 6
  let s := if bad.length = 1 then s.bump (Reg.EXL_CRC_count p) 1 else s
  let x := s.cport p
  let s := s.setCport p { x with crcRun := (List.range 3).foldl (fun t i =>
    t.put 0 i (if bad.contains i then t.get 0 i + 1 else 0)) x.crcRun }
  (List.range 3).foldl (fun s i => if 4 ≤ (s.cport p).crcRun.get 0 i then s.failLane p i else s) s

/-- A frame is received (R336, R342 to R346); in a lap whose frame is absent it is discarded. A frame of which two lanes
are missing cannot be rebuilt. An engine that has not started takes only what the master tells, and what `early` takes of
the marker. -/
def State.takeFrame (s : State) (p : Nat) (f : CascFrame) (crcBad : List Nat) (early : State → State) : State :=
  if !s.inRing || !s.linkUp p || (s.run && (s.cport p).dropLap == s.lap + 1) then s
  else
    let s := s.setCport p { s.cport p with gotLap := s.lap + 1 }
    let bad := (List.range 3).filter (fun i => crcBad.contains i)
    let missing := (List.range 3).filter (fun i => crcBad.contains i || (s.cport p).failed.get false i)
    let s := s.crcLanes p bad
    if 2 ≤ missing.length || !s.linkUp p then s
    else if !s.run then
      early (match f.ctrl.master with
        | some m => if s.isMaster then s else s.takeMaster m
        | none => s)
    else if f.lap ≠ s.lap then s.setEvent Reg.EXL_EVENT_ev 10
    else ((s.takeCtrl p f).takeParts p f).takeChans p f

/-- CASC_FRAME_LATE (R342): the frame of a lap in which none has been received is absent, and its lanes' CRCs are not judged. -/
def cascFrameLate (p : Nat) (s : State) : State :=
  let x := s.cport p
  if s.run && s.inRing && s.linkUp p && x.gotLap != s.lap + 1 && x.dropLap != s.lap + 1 then
    ((s.setCport p { x with dropLap := s.lap + 1, crcRun := [] }).bump (Reg.EXL_LATE_count p) 1).setEvent Reg.EXL_EVENT_ev 5
  else s

/-! ### Ring commands and the master's loss (R340, R346, R347) -/

/-- A ring command is taken by the master: its action lap is H + 1 laps later (R346). -/
def State.ringCommand (s : State) (c : RingCmd) : State :=
  let a : RingAct := ⟨c, s.lap + s.layout.h + 1⟩
  { s with casc := { s.casc with acts := s.casc.acts ++ [a], sendCmd := s.casc.sendCmd ++ [a] } }

/-- CASCADE_MEASURE (R340): on the master. -/
def cascadeMeasure (s : State) : State := if s.inRing && s.isMaster then s.ringCommand .measure else s

/-- The armed commits as the batons a master sends. -/
def State.armBatons (s : State) : List Baton :=
  s.vault.arms.map (fun a => ⟨.arm, a.mask, a.lap, a.profile, a.prof, a.issuer, a.strict, a.late⟩)

/-- MASTER_TIMEOUT (R347): the master has not been heard for 16 laps. Commits forwarded to it complete
RING_UNAVAILABLE; the backup becomes master. -/
def masterTimeout (s : State) : State :=
  if s.inRing && !s.isMaster && s.on Reg.EXL_STATUS_master_ok && decide (s.casc.heard + 16 ≤ s.lap) then
    let s := (s.wr Reg.EXL_STATUS_master_ok 0).expireForwards true
    if s.on Reg.EXL_CFG_backup then
      let s := (s.wr Reg.EXL_STATUS_master_pos s.casc.pos).wr Reg.EXL_STATUS_master_ok 1
      let s := { s with casc := { s.casc with sendBatons := s.armBatons } }
      (s.setEvent Reg.EXL_EVENT_ev 9).vaultStatus
    else s.vaultStatus
  else s

/-- The cascade's part of a lap boundary: what was received is passed on in the new lap, and what no column waits for
any longer is dropped. -/
def State.cascBoundary (s : State) : State :=
  let s := [0, 1].foldl (fun s p =>
    let x := s.cport p
    s.setCport p { x with relay := x.got, got := Relay.none }) s
  let old := (s.lap + 14) % 16
  let s := { s with
    casc := { s.casc with
      chanHist := s.casc.chanHist.drop (fun k => k / 2048 == old)
      known := s.casc.known.filter (fun k => decide (s.lap < k.2 + 32)) }
    vault := { s.vault with
      lateMute := s.vault.lateMute.filter (fun l => decide (s.lap < l.2.2 + 32))
      rampIn := s.vault.rampIn.filter (fun x => decide ((s.lap - x.lap - 32) * s.nLap < x.len)) } }
  if s.inRing then s.hopOver else s

/-- CASCADE_ENABLE (R338). -/
def execCascadeEnable (s : State) : Host.Outcome State Fault Refusal :=
  whenWf .cascadeEnable (cascadeEnable s)

/-- SELF_TEST_DONE (R339). -/
def execSelfTestDone (pass : Bool) (s : State) : Host.Outcome State Fault Refusal :=
  whenWf (.selfTestDone pass) (selfTestDone pass s)

/-- CASCADE_INSERT (R339). -/
def execCascadeInsert (s : State) : Host.Outcome State Fault Refusal :=
  whenWf .cascadeInsert (cascadeInsert s)

/-- CASCADE_WITHDRAW (R339). -/
def execCascadeWithdraw (s : State) : Host.Outcome State Fault Refusal :=
  whenWf .cascadeWithdraw (cascadeWithdraw s)

/-- CASCADE_MEASURE (R340). -/
def execCascadeMeasure (s : State) : Host.Outcome State Fault Refusal :=
  whenWf .cascadeMeasure (cascadeMeasure s)

/-- CASCADE_DISABLE (R338). -/
def execCascadeDisable (s : State) : Host.Outcome State Fault Refusal :=
  whenWf .cascadeDisable (cascadeDisable s)

/-- BYPASS_SWITCH (R339). -/
def execBypassSwitch (s : State) : Host.Outcome State Fault Refusal :=
  whenWf .bypassSwitch (bypassSwitch s)

/-- LINK_TRAINED (R339). -/
def execLinkTrained (port : Nat) (nbr : Nat) (map : List CascHop) (s : State) : Host.Outcome State Fault Refusal :=
  whenWf (.linkTrained port nbr map) (linkTrained port nbr map s)

/-- HOP_MEASURE_DONE (R340). -/
def execHopMeasureDone (port : Nat) (echoes : List (Nat × Nat)) (s : State) : Host.Outcome State Fault Refusal :=
  whenWf (.hopMeasureDone port echoes) (hopMeasureDone port echoes s)

/-- LANE_LOCK_LOSS (R336). -/
def execLaneLockLoss (port lane : Nat) (s : State) : Host.Outcome State Fault Refusal :=
  whenWf (.laneLockLoss port lane) (laneLockLoss port lane s)

/-- CASC_FRAME_SEND (R342). -/
def execCascFrameSend (s : State) : Host.Outcome State Fault Refusal :=
  whenWf .cascFrameSend (cascFrameSend s)

/-- CASC_FRAME_LATE (R342). -/
def execCascFrameLate (port : Nat) (s : State) : Host.Outcome State Fault Refusal :=
  whenWf (.cascFrameLate port) (cascFrameLate port s)

/-- MASTER_TIMEOUT (R347). -/
def execMasterTimeout (s : State) : Host.Outcome State Fault Refusal :=
  whenWf .masterTimeout (masterTimeout s)

end Sys2Proof.Machine
end

