-- ==== Sys2Proof/Machine/RegAccess.lean ====
section
/-! DEFINITION. The effect of a write on a register's fields by their access codes (R7, R9, R11). -/

namespace Sys2Proof.Machine

/-- A value of a field that is not reserved (R11). -/
def FieldDef.permits (f : FieldDef) (v : Nat) : Bool :=
  f.ok.isEmpty || f.ok.any (fun r => decide (r.1 ≤ v) && decide (v ≤ r.2))

/-- What a write of v leaves in a field that held x (R9, R11). `free`: the keeper does not hold it locked. -/
def FieldDef.next (f : FieldDef) (free : Bool) (x v : Nat) : Nat :=
  match f.acc with
  | .ro => x
  | .rw => if f.permits v then v else x
  | .rwl => if free && f.permits v then v else x
  | .w1c => Nat.land x (Nat.xor v (2 ^ f.width - 1))
  | .w1s => Nat.lor x v
  | .wo => x

/-- The word that a write leaves in a register, over the fields that the write takes. -/
def writeFields (take : FieldDef → Bool) (free : Bool) (fs : List FieldDef) (cur val : Nat) : Nat :=
  fs.foldl (fun a f =>
    if take f then putBits a f.lo f.width (f.next free (bitsOf cur f.lo f.width) (bitsOf val f.lo f.width)) else a) cur

/-- A write to the register at a BAR0 offset, over the fields that the write takes (R9). -/
def State.writeReg (s : State) (take : FieldDef → Bool) (free : Bool) (off : Nat) (val : Word) : State :=
  match regAt off with
  | none => s
  | some (d, _) => s.setReg off (BitVec.ofNat 32 (writeFields take free d.fields (s.reg off).toNat val.toNat))

/-- A write that a row of its own makes: the fields that have one. -/
def State.writeOwn (s : State) (off : Nat) (val : Word) : State := s.writeReg (fun f => f.own) true off val

/-- A write that REGISTER_WRITE makes: the fields that have no row of their own. -/
def State.writePlain (s : State) (free : Bool) (off : Nat) (val : Word) : State :=
  s.writeReg (fun f => !f.own) free off val

end Sys2Proof.Machine
end

