-- ==== Sys2Proof/Machine/Dpll.lean ====
section
/-! DEFINITION. The DPLL (chapter 15): slots and samples, qualification, selection, holdover, the phase step, and
the frame and pulse outputs. Samples are in 2^-16 ns, build-outs and the phase step in 2^-16 ps, frequencies in
2^-40. -/

namespace Sys2Proof.Machine

/-! ### Slots (R299) -/

/-- A slot. -/
def State.slot (s : State) (n : Nat) : RefSlot := s.dpll.slots.get RefSlot.reset n

/-- Stores a slot. -/
def State.setSlot (s : State) (n : Nat) (x : RefSlot) : State :=
  { s with dpll := { s.dpll with slots := s.dpll.slots.insert n x } }

/-- A slot's rank. -/
def State.rank (s : State) (n : Nat) : Nat := s.rd (Reg.DPL_REF_CFG_rank n)

/-- The code of the witness: 0 to 7 a slot, 8 XO_IN, 15 none. -/
def State.witness (s : State) : Nat := s.rd Reg.DPL_CFG_witness

/-- Slots 2 to 6: the nominal rate lies between 1 Hz and 10 MHz. -/
def State.refRateOk (s : State) (n : Nat) : Bool :=
  let num := s.rd (Reg.DPL_REF_NUM_num n)
  let den := s.rd (Reg.DPL_REF_DEN_den n)
  num != 0 && den != 0 && decide (den ≤ num) && decide (num ≤ 10000000 * den)

/-- The slot is measured: its rank is below 15 or it is the witness, and its rate is legal. -/
def State.slotOn (s : State) (n : Nat) : Bool :=
  (s.rank n != 15 || s.witness == n) && (decide (n < 2) || n == 7 || s.refRateOk n)

/-- The nominal period of a slot, in 2^-32 ns, rounded down (R300, R302): T_lap for REF7. -/
def State.slotPeriod (s : State) (n : Nat) : Nat :=
  if n = 7 then 10 ^ 9 * 2 ^ 32 * s.nLap / s.fs
  else 10 ^ 9 * 2 ^ 32 * s.rd (Reg.DPL_REF_DEN_den n) / s.rd (Reg.DPL_REF_NUM_num n)

/-- Of a slot's edges every k-th is used (R300): ⌈f / 8000⌉ for edge slots, 3 for REF7. -/
def State.everyK (s : State) (n : Nat) : Nat :=
  if n = 7 then 3
  else
    let d := 8000 * s.rd (Reg.DPL_REF_DEN_den n)
    (s.rd (Reg.DPL_REF_NUM_num n) + d - 1) / d

/-! ### Samples (R300) -/

/-- The error of an edge at local time t, in 1/16 ns, against the grid of period den × 10^9 / num ns and offset ofs
ns: exact, then rounded down to 2^-16 ns. -/
def gridError (num den ofs : Nat) (t : Int) : Int :=
  -- in units of 1/(16 num) ns
  let p : Int := 16 * 10 ^ 9 * den
  let x : Int := (t - 16 * ofs) * num
  let i : Int := (2 * x + p) / (2 * p)
  (i * p - x) * 4096 / num

/-- The port that REF7 takes markers from (R345). -/
def State.refPort (s : State) : Nat :=
  match s.rd Reg.EXL_CFG_ref_port with
  | 1 => 0
  | 2 => 1
  | _ => (s.portToward (s.rd Reg.EXL_STATUS_master_pos)).getD 1

/-- The send offset of a lap marker (R342): CLK_F cycle 2 048 of the 25 600 of a lap, in 2^-16 ns. -/
def State.sendOffset (s : State) : Int := (10 ^ 9 * 65536 * s.nLap * 2048 / (25600 * s.fs) : Nat)

/-- The error of a lap marker that arrives at a phase, in 2^-16 ns, after the local lap boundary: the neighbour's boundary
lies the send offset and the hop delay before it. It is taken within half a lap of 0. -/
def State.markerError (s : State) (phase : Int) : Int :=
  let lap : Int := (10 ^ 9 * 65536 * s.nLap / s.fs : Nat)
  let x := (s.rd (Reg.EXL_HOP_ns s.refPort) : Int) * 65536 + s.sendOffset - phase
  x - (2 * x + lap) / (2 * lap) * lap

/-- The local clock in 1/16 ns, a number of cycles and sixteenths of a ns after it last took a value (R289, R300). -/
def State.time16 (s : State) (cyc sub : Nat) : Nat := s.clockAt cyc / 2 ^ 28 + sub

/-- The error that an edge or a lap marker gives. -/
def State.edgeError (s : State) (n cyc sub : Nat) : Int :=
  if n = 7 then s.markerError (((s.clockAt cyc - s.time.clock) / 65536 : Nat) + (sub : Int) * 4096)
  else gridError (s.rd (Reg.DPL_REF_NUM_num n)) (s.rd (Reg.DPL_REF_DEN_den n)) (s.rd (Reg.DPL_REF_OFS_ofs n))
    (s.time16 cyc sub)

/-- A sample arrives at a slot and waits for the next tick's judgement. -/
def State.sampleArrives (s : State) (n : Nat) (e : Int) : State :=
  let x := s.slot n
  s.setSlot n { x with arrived := x.arrived ++ [e] }

/-- An edge or a marker at a slot (R300). -/
def State.slotEdge (s : State) (n cyc sub : Nat) : State :=
  if !s.slotOn n then s
  else
    let x := s.slot n
    let s := s.setSlot n { x with lastT := some ((s.clockAt cyc : Int) + sub * 2 ^ 28), edges := x.edges + 1 }
    if x.edges % s.everyK n = 0 then s.sampleArrives n (s.edgeError n cyc sub) else s

/-- REF_SAMPLE (R300) of a marker, or of a rising or falling edge, where the slot takes those; the samples of REF0 and REF1
arrive with their Syncs, and those of REF3 with the frames of its receiver (R250). -/
def refSample (n cyc sub : Nat) (falling : Bool) (s : State) : State :=
  if n < 2 ∨ n = 3 ∨ (n ≠ 7 ∧ falling ≠ s.on (Reg.DPL_REF_CFG_falling n)) then s else s.slotEdge n cyc sub

/-- The mean of a slot's last 8 good samples, fewer where it has fewer (R311). -/
def mean8 (l : List Int) : Int :=
  let l := l.take 8
  if l.isEmpty then 0 else l.foldl (· + ·) 0 / l.length

/-- The slot's last good samples, newest first. -/
def RefSlot.es (x : RefSlot) : List Int := x.hist.map (·.2.1)

/-- The latest good sample. -/
def RefSlot.e (x : RefSlot) : Int := x.es.headD 0

/-! ### Witness (R307, R313) -/

/-- A witness is available: XO_IN always, a slot while it is qualified. -/
def State.witOk (s : State) : Bool :=
  s.witness == 8 || (decide (s.witness < 8) && (s.slot s.witness).qual)

/-- A witness comparison begins at an event of a slot. -/
def State.beginWcmp (s : State) (n : Nat) : State :=
  let x := s.slot n
  let w := if s.witOk then s.witness else 15
  s.setSlot n { x with wcmp := some ⟨mean8 x.es, [], w, (s.slot w).e, s.dpll.cumY⟩ }

/-- A comparison is latched while none is held. -/
def State.latchWcmp (s : State) (n : Nat) (w : WCmp) : State :=
  if s.on Reg.DPL_WCMP_SLOT_valid then s
  else
    let dn := mean8 w.after - w.before
    let dw := if w.wit = 8 then -((s.dpll.cumY - w.cum0) * 10 ^ 6 / 2 ^ 24)
      else (s.slot w.wit).e - w.e0
    let none_ := w.wit == 15 || (decide (w.wit < 8) && !(s.slot w.wit).qual)
    let s := ((s.wr Reg.DPL_WCMP_SLOT_slot n).wr Reg.DPL_WCMP_SLOT_xo (b2n (w.wit == 8))).wr
      Reg.DPL_WCMP_SLOT_no_witness (b2n none_)
    let s := (s.wr Reg.DPL_WCMP_SLOT_valid 1).wrS Reg.DPL_WCMP_REF_ns (sat32 (dn / 65536))
    s.wrS Reg.DPL_WCMP_WIT_ns (if none_ then 0 else sat32 ((dn - dw) / 65536))

/-! ### Judgement of samples (R303, R312) -/

/-- The threshold of a slot's jump test in 2^-16 ns. -/
def State.jumpThr (s : State) (n : Nat) : Nat :=
  min (s.rd (Reg.DPL_REF_JUMP_thr n) * 65536) (s.slotPeriod n / 4 / 65536)

/-- Samples older than the longest window that one before it reaches are dropped. -/
def pruneHist (lim : Nat) : List (Nat × Int × Int) → List (Nat × Int × Int)
  | [] => []
  | h :: t => if h.1 < lim then [h] else h :: pruneHist lim t

/-- A good sample. -/
def State.goodSample (s : State) (n : Nat) (e : Int) : State :=
  let x := s.slot n
  let keep := s.dpll.tick - 1000 * max 100 (s.rd Reg.DPL_DRIFT_drift_win)
  let s := s.setSlot n { x with hist := (s.dpll.tick, e, s.dpll.cumY) :: pruneHist keep x.hist }
  let s := s.wrS (Reg.DPL_REF_PHASE_ns n) (sat32 (e / 65536))
  match x.wcmp with
  | none => s
  | some w =>
    let w := { w with after := w.after ++ [e] }
    if w.after.length < 8 then s.setSlot n { s.slot n with wcmp := some w }
    else (s.setSlot n { s.slot n with wcmp := none }).latchWcmp n w

/-- A phase jump of a slot: an event, a witness comparison, and its disqualification in this tick. -/
def State.declareJump (s : State) (n : Nat) : State :=
  let s := s.beginWcmp n
  let x := s.slot n
  (s.setSlot n { x with
    jumped := true
    jumpShown := true
    bOld := if s.dpll.sel = some n then some x.b else x.bOld }).setEvent Reg.DPL_EVENT_ev 7

/-- A sample that differs from the last good one by no more than the threshold. -/
def near (th : Nat) (a b : Int) : Bool := decide ((a - b).natAbs ≤ th)

/-- One sample is judged. -/
def State.judgeSample (s : State) (n : Nat) (e : Int) : State :=
  let x := s.slot n
  match x.hist with
  | [] => s.goodSample n e
  | (_, last, _) :: _ =>
    if n < 2 then s.goodSample n e
    else
      let th := s.jumpThr n
      match x.doubt with
      | none => if near th e last then s.goodSample n e else s.setSlot n { x with doubt := some e }
      | some d =>
        let s := s.setSlot n { x with doubt := none }
        if near th e last then
          ((s.bump (Reg.DPL_REF_GLITCH_count n) 1).setEvent Reg.DPL_EVENT_ev 9).goodSample n e
        else
          let s := (s.declareJump n).goodSample n d
          if near th e d then s.goodSample n e
          else s.setSlot n { s.slot n with doubt := some e }

/-- The samples of a tick. -/
def State.judgeAll (s : State) (n : Nat) : State :=
  let x := s.slot n
  let s := s.setSlot n { x with arrived := [], jumped := false, timeStep := false, delayStep := none }
  let s := if x.timeStep then s.declareJump n else s
  let s := match x.delayStep with
    | none => s
    | some d =>
      let s := s.beginWcmp n
      s.setSlot n { s.slot n with b := (s.slot n).b + 1000 * d }
  x.arrived.foldl (fun s e => s.judgeSample n e) s

/-! ### Qualification (R301, R302, R304) -/

/-- The frequency over a window of w ticks, where it has filled. -/
def freqOver (w : Nat) : List (Nat × Int × Int) → Option Int
  | [] => none
  | (ta, ea, ca) :: t =>
    match t.find? (fun h => decide (h.1 + w ≤ ta)) with
    | none => none
    | some (tb, eb, cb) => some ((ea - eb) * 2 ^ 24 / (10 ^ 6 * (ta - tb : Nat)) + (ca - cb) / (ta - tb : Nat))

/-- The ticks of a short window's code. -/
def shortWin (code : Nat) : Nat := 100 * 10 ^ code

/-- The tolerance of a code in ppm. -/
def refTolPpm (code : Nat) : Nat := [1, 2, 5, 10, 20, 50, 100, 200].getD code 200

/-- The frequencies of a slot. -/
def State.measure (s : State) (n : Nat) : State :=
  let x := s.slot n
  let y := freqOver (shortWin (s.rd Reg.DPL_QUAL_freq_win)) x.hist
  let s := s.setSlot n { x with yShort := y, yLong := freqOver (1000 * s.rd Reg.DPL_DRIFT_drift_win) x.hist }
  s.wrS (Reg.DPL_REF_FREQ_y n) (sat32 (y.getD 0))

/-- The slot is active at a local time in 2^-32 ns (R290, R302). -/
def State.slotActive (s : State) (n : Nat) (now : Int) : Bool :=
  if n < 2 then s.rd (Reg.TIM_PTP_STATE_state n) == 3 && (s.time.ptp.get Ptp.reset n).active
  else match (s.slot n).lastT with
    | none => false
    | some t => decide (now - t ≤ s.rd (Reg.DPL_REF_CFG_act_to n) * s.slotPeriod n)

/-- The short-window frequency is beyond the tolerance. -/
def State.freqBad (s : State) (y : Int) : Bool :=
  decide (refTolPpm (s.rd Reg.DPL_QUAL_freq_tol) * 2 ^ 40 < y.natAbs * 10 ^ 6)

/-- A slot stops being qualified. -/
def State.disqualify (s : State) (n : Nat) : State :=
  let x := s.slot n
  if x.qual then
    ((s.setSlot n { x with qual := false, outvoted := false, clean := 0, drifting := false, drift := 0 }).bump (Reg.DPL_REF_DISQ_count n) 1).setEvent
      Reg.DPL_EVENT_ev 4
  else s.setSlot n { x with clean := 0 }

/-- REF_DISQUALIFY (R302): inactivity, a frequency fault or a phase jump. -/
def State.checkSlot (s : State) (now : Int) (n : Nat) : State :=
  let x := s.slot n
  let bad := match x.yShort with
    | none => false
    | some y => s.freqBad y
  if !s.slotActive n now || bad || x.jumped then s.disqualify n else s

/-- The long-window frequency of the witness, 0 for XO_IN and without one (R304). -/
def State.witLong (s : State) : Int := if s.witness < 8 ∧ s.witOk then ((s.slot s.witness).yLong).getD 0 else 0

/-- The witness of R304 has a long-window frequency. -/
def State.witLongOk (s : State) : Bool :=
  if s.witness < 8 ∧ s.witOk then (s.slot s.witness).yLong.isSome else true

/-- The drift of a slot against the witness (R304), with c recorded when the long windows first exist. -/
def State.driftSlot (s : State) (n : Nat) : State :=
  let x := s.slot n
  if !x.qual && !x.driftDisq then s
  else match x.yLong with
    | none => s
    | some y =>
      match x.c with
      | none => if x.qual && s.witLongOk then s.setSlot n { x with c := some (y - s.witLong) } else s
      | some c => if !s.witLongOk then s else
        let thr := s.rd Reg.DPL_DRIFT_drift_thr * 2 ^ 40
        let d := (y - s.witLong - c).natAbs * 10 ^ 9
        let ovr := decide (thr < d)
        let q := 1000 * s.rd Reg.DPL_QUAL_qual_s
        let calm := if 2 * d ≤ thr then x.calm + 1 else 0
        if x.driftDisq then
          s.setSlot n { x with calm := calm, drifting := ovr, driftDisq := decide (calm < q) }
        else
          let drift := if ovr then x.drift + 1 else 0
          let s := s.setSlot n { x with drifting := ovr, drift := drift, calm := 0 }
          let s := if ovr && !x.drifting then s.setEvent Reg.DPL_EVENT_ev 8 else s
          if q ≤ drift then
            let s := s.disqualify n
            s.setSlot n { s.slot n with driftDisq := true, drifting := true }
          else s

/-- A slot is clean in the tick (R302). -/
def State.slotClean (s : State) (now : Int) (n : Nat) : Bool :=
  let x := s.slot n
  s.slotActive n now && !x.jumped && !x.driftDisq && (match x.yShort with
    | none => false
    | some y => !s.freqBad y)

/-- REF_QUALIFY (R302): a slot clean for qual_s seconds becomes qualified. -/
def refQualify (n : Nat) (s : State) : State :=
  let x := s.slot n
  if !x.qual && s.slotOn n && decide (1000 * s.rd Reg.DPL_QUAL_qual_s ≤ x.clean) then
    let s := (s.setSlot n { x with qual := true, drifting := false, drift := 0, calm := 0 }).setEvent Reg.DPL_EVENT_ev 5
    if n < 2 then s.wr (Reg.TIM_PTP_STATE_stepped n) 0 else s
  else s

/-- The clean time of a slot, and its qualification. -/
def State.countClean (s : State) (now : Int) (n : Nat) : State :=
  let x := s.slot n
  let s := if s.slotClean now n then s.setSlot n { x with clean := x.clean + 1, jumpShown := false }
    else s.setSlot n { x with clean := 0 }
  refQualify n s

/-- A slot that is disabled has no history. -/
def State.dropSlot (s : State) (n : Nat) : State :=
  if s.slotOn n then s
  else
    let s := s.disqualify n
    s.setSlot n { RefSlot.reset with b := (s.slot n).b }

/-- A slot whose configuration was written (R304, R306, R318): disqualified, its histories cleared; a rank write
clears c as well. -/
def State.takeWritten (s : State) (n : Nat) : State :=
  let w := s.dpll.written.get 0 n
  if w = 0 then s
  else
    let c := if w = 3 then none else (s.slot n).c
    let s := s.disqualify n
    let x := s.slot n
    s.setSlot n { RefSlot.reset with b := x.b, bOld := x.bOld, c := c }

/-- The slots of the engine. -/
def slotNums : List Nat := List.range 8

/-- The slots that are enabled. -/
def State.slotsOn (s : State) : List Nat := slotNums.filter s.slotOn

/-- The witness is a named slot that is unavailable: witness_lost is set once (R307). -/
def State.witnessCheck (s : State) : State :=
  let lost := decide (s.witness < 8) && !s.witOk
  let s := if lost && !s.dpll.witLost then s.setEvent Reg.DPL_EVENT_ev 11 else s
  { s with dpll := { s.dpll with witLost := lost } }

/-- Samples, qualification and disqualification of a tick (R318, items 2 and 3). -/
def State.tickSlots (s : State) (now : Int) : State :=
  let s := slotNums.foldl State.takeWritten s
  let s := { s with dpll := { s.dpll with written := [] } }
  let s := slotNums.foldl State.dropSlot s
  let l := s.slotsOn
  let s := l.foldl State.judgeAll s
  let s := l.foldl State.measure s
  let s := l.foldl (fun s n => s.checkSlot now n) s
  let s := l.foldl State.driftSlot s
  (l.foldl (fun s n => s.countClean now n) s).witnessCheck

/-! ### Holdover (R315) -/

/-- y_h for a loss instant, and whether it is taken from the history. -/
def State.holdValue (s : State) (td : Nat) : Int × Bool :=
  let g := 1000 * s.rd Reg.DPL_HOLD_guard_s
  let a := 1000 * s.rd Reg.DPL_HOLD_avg_s
  let h := s.dpll.history
  let inside := (h.filter (fun e => decide (e.1 + g ≤ td) && decide (td ≤ e.1 + g + a))).map (·.2)
  if !inside.isEmpty then (inside.foldl (· + ·) 0 / inside.length, true)
  else match h.find? (fun e => decide (e.1 + g < td)) with
    | some e => (e.2, true)
    | none => match h with
      | e :: _ => (e.2, true)
      | [] => (0, false)

/-- The DPLL's state. -/
def State.dst (s : State) : Nat := s.rd Reg.DPL_STATUS_state

/-- Writes the DPLL's state. -/
def State.setDst (s : State) (v : Nat) : State := s.wr Reg.DPL_STATUS_state v

/-- Takes a slot, or none, as the selected one. -/
def State.setSel (s : State) (n : Option Nat) : State :=
  if s.dpll.sel = n then s
  else { s with dpll := { s.dpll with sel := n, lockTicks := 0, unlockTicks := 0 } }.setEvent Reg.DPL_EVENT_ev 0

/-- HOLDOVER_ENTRY (R315). -/
def State.enterHoldover (s : State) (td : Nat) : State :=
  let v := s.holdValue td
  let s := s.setSel none
  let s := { s with dpll := { s.dpll with yFrom := s.dpll.yBase, holdTicks := 0, yH := v.1 } }
  let s := (s.wrS Reg.DPL_HOLD_Y_y v.1).wr Reg.DPL_STATUS_hold_valid (b2n v.2)
  (s.setDst 3).setEvent Reg.DPL_EVENT_ev 1

/-- No slot can be selected: holdover, entered once. -/
def State.noSlot (s : State) : State := if s.dst = 3 then s else s.enterHoldover s.dpll.tick

/-- HOLDOVER_HISTORY (R315): each second while locked. -/
def holdoverHistory (s : State) : State :=
  if s.dst = 2 ∧ 1000 ≤ s.dpll.yCnt then
    { s with dpll := { s.dpll with
      history := ((s.dpll.tick, s.dpll.ySum / s.dpll.yCnt) :: s.dpll.history).take 8192
      ySum := 0
      yCnt := 0 } }
  else s

/-! ### Selection (R306, R310, R311, R314) -/

/-- Adds to the remaining phase step, in 2^-16 ps. -/
def State.addStep (s : State) (d : Int) : State := { s with dpll := { s.dpll with step := s.dpll.step + d } }

/-- Sets the selected slot's build-out from its last good samples (R311): 0 before processing start. -/
def State.rebuild (s : State) (n : Nat) : State :=
  let x := s.slot n
  s.setSlot n { x with b := if s.run then 1000 * mean8 x.es else 0 }

/-- The build-out of a slot that is selected; after a jump of it while it was selected, with the phase step of R314. -/
def State.buildOut (s : State) (n : Nat) : State :=
  let x := s.slot n
  let t := s.rebuild n
  let t := t.setSlot n { t.slot n with bOld := none }
  match x.bOld with
  | none => t
  | some old => if s.run && s.on (Reg.DPL_REF_CFG_follow n) then t.addStep ((t.slot n).b - old) else t

/-- A slot is selected anew: a direct switch after processing start keeps the state. -/
def State.selectSlot (s : State) (n : Nat) : State :=
  if s.dpll.sel = some n then s
  else
    let s := (s.setSel (some n)).buildOut n
    if s.dst = 0 ∨ s.dst = 3 ∨ !s.run then s.setDst 1 else s

/-- Of two frequencies the difference is above the threshold. -/
def State.yDiffers (s : State) (a b : Int) : Bool :=
  decide (s.rd Reg.DPL_EQ_eq_thr * 2 ^ 40 < (a - b).natAbs * 10 ^ 9)

/-- The short-window frequency of a slot; a slot without one is taken at 0. -/
def State.yOf (s : State) (n : Nat) : Int := ((s.slot n).yShort).getD 0

/-- The witness's frequency in an arbitration. -/
def State.yWit (s : State) : Int := if s.witness = 8 then 0 else s.yOf s.witness

/-- Marks the outvoted mark of slots. -/
def State.mark (s : State) (l : List Nat) (v : Bool) : State :=
  l.foldl (fun s n => s.setSlot n { s.slot n with outvoted := v }) s

/-- A rank group is or is not in an episode of conflict. -/
def State.setConflict (s : State) (r : Nat) (v : Bool) : State :=
  { s with dpll := { s.dpll with
    conflict := if v then (if s.dpll.conflict.contains r then s.dpll.conflict else r :: s.dpll.conflict)
      else s.dpll.conflict.filter (· != r) } }

/-- arbitrate (R306) of the qualified slots of a rank, which are not empty. -/
def State.arbitrate (s : State) (r : Nat) (c : List Nat) : List Nat × State :=
  if !(c.any (fun a => c.any (fun b => s.yDiffers (s.yOf a) (s.yOf b)))) then (c, (s.mark c false).setConflict r false)
  else
    let agree := if s.witOk then c.filter (fun n => !s.yDiffers (s.yOf n) s.yWit) else []
    if !agree.isEmpty && agree.length != c.length then
      (agree, s.mark (c.filter (fun n => !agree.contains n)) true)
    else
      let s := if s.dpll.conflict.contains r then s else s.setEvent Reg.DPL_EVENT_ev 6
      let s := s.setConflict r true
      let free := c.filter (fun n => !(s.slot n).outvoted)
      (match s.dpll.sel with
        | some cur => if c.contains cur then [cur] else free.take 1
        | none => free.take 1, s)

/-- The qualified slots of a rank. -/
def State.group (s : State) (r : Nat) : List Nat :=
  slotNums.filter (fun n => s.slotOn n && (s.slot n).qual && s.rank n == r)

/-- Every rank group is arbitrated; answers those of the lowest rank, without outvoted slots. -/
def State.arbitrateAll (s : State) : List Nat × State :=
  (List.range 15).foldl (fun (a : List Nat × State) r =>
    let g := a.2.group r
    if g.isEmpty then (a.1, a.2.setConflict r false)
    else
      let x := a.2.arbitrate r g
      let c := x.1.filter (fun n => !(x.2.slot n).outvoted)
      (if a.1.isEmpty then c else a.1, x.2)) ([], s)

/-- REF_SELECT in automatic mode (R306). -/
def State.selectAuto (s : State) : State :=
  let r := s.arbitrateAll
  let s := r.2
  let keep := match s.dpll.sel with
    | none => false
    | some cur => (s.slot cur).qual && s.slotOn cur && s.rank cur != 15 && !(s.slot cur).outvoted &&
        (!s.on Reg.DPL_CFG_revertive || r.1.contains cur)
  if keep then s
  else match r.1 with
    | [] => s.noSlot
    | n :: _ => s.selectSlot n

/-- A mode change takes effect (R305). -/
def State.takeMode (s : State) : State :=
  let m := s.rd Reg.DPL_CFG_mode
  if m = s.dpll.mode then s
  else
    let s := { s with dpll := { s.dpll with mode := m } }
    if m = 2 then s.enterHoldover (s.dpll.tick - 1)
    else if m = 3 then (s.setSel none).setDst 0
    else s

/-- Selection of the tick by the mode in force (R305, R306). -/
def State.select (s : State) : State :=
  match s.dpll.mode with
  | 0 => s.selectAuto
  | 1 =>
    let n := s.rd Reg.DPL_CFG_force_slot
    if (s.slot n).qual && s.slotOn n && s.rank n != 15 then s.selectSlot n else s.noSlot
  | _ => s

/-- A ramp suspends the DPLL, and its end resumes it (R308). -/
def State.suspend (s : State) : State :=
  if s.rdS Reg.SYN_RAMP_NOW_y ≠ 0 then
    match s.dpll.suspend with
    | some _ => s
    | none => { s with dpll := { s.dpll with suspend := some s.dst } }.setDst 4
  else match s.dpll.suspend with
    | none => s
    | some st =>
      let s := { s with dpll := { s.dpll with suspend := none } }.setDst st
      match s.dpll.sel with
      | none => s
      | some n => s.rebuild n

/-- A build-out that waits for the selected slot's first sample (R318). -/
def State.rebuildDue (s : State) : State :=
  match s.dpll.sel with
  | none => { s with dpll := { s.dpll with rebuild := false } }
  | some n =>
    if s.dpll.rebuild && !(s.slot n).hist.isEmpty then
      { s with dpll := { s.dpll with rebuild := false } }.rebuild n
    else s

/-! ### The loop and the output (R308, R309, R310, R316) -/

/-- The limit of y_out: 250 ppm, rounded down. -/
def yLimit : Int := 250 * 2 ^ 40 / 10 ^ 6

/-- The bandwidths of R309 in 0.1 mHz. -/
def bwTable : List Nat := [5, 10, 20, 50, 100, 200, 500, 1000, 2000, 5000, 10000, 20000, 50000, 100000, 200000,
  500000, 1000000, 2000000, 5000000, 10000000, 20000000]

/-- r_s / 20 of a slot in 0.1 mHz (R300), rounded down. -/
def State.bwLimit (s : State) (n : Nat) : Nat :=
  if n < 2 then
    let k := s.rdS (Reg.TIM_PTP_INTV_log_sync n)
    if k ≤ 0 then 500 * 2 ^ k.natAbs else 500 / 2 ^ k.natAbs
  else if n = 7 then 500 * s.fs / (3 * s.nLap)
  else 500 * s.rd (Reg.DPL_REF_NUM_num n) / (s.rd (Reg.DPL_REF_DEN_den n) * s.everyK n)

/-- The effective bandwidth code (R309). -/
def State.bwEff (s : State) (n : Nat) : Nat :=
  let code := s.rd (if s.dst = 2 then Reg.DPL_CFG_trk_bw else Reg.DPL_CFG_acq_bw)
  ((List.range 21).filter (fun c => decide (c ≤ code) && decide (bwTable.getD c 0 ≤ s.bwLimit n))).foldl max 0

/-- The selected slot's error e − b, in 2^-16 ps. -/
def State.loopErr (s : State) (n : Nat) : Int := 1000 * (s.slot n).e - (s.slot n).b

/-- The output without the phase step for the tick: the loop's own value is open within ±250 ppm (R308). In a tick
that selects a slot it does not move (R311). -/
def State.baseOut (s : State) (kept : Bool) : Int × State :=
  match s.dst with
  | 0 => (0, s)
  | 3 =>
    let k := min (s.dpll.holdTicks + 1) 1000
    (s.dpll.yFrom + (s.dpll.yH - s.dpll.yFrom) * k / 1000, { s with dpll := { s.dpll with holdTicks := k } })
  | _ =>
    if kept && !s.dpll.rebuild then
      let d := s.drawInt
      (clampI (-yLimit) yLimit d.1, d.2)
    else (s.dpll.yBase, s)

/-- The phase step of the tick (R316): what it adds to y_out, and the state after it. PHASE_STEP_DONE when the
remainder reaches 0. -/
def State.stepOut (s : State) : Int × State :=
  if s.dpll.step = 0 then (0, s)
  else
    let slew := s.rd Reg.DPL_SLEW_slew
    let moved := clampI (-(65536 * (slew : Int))) (65536 * slew) s.dpll.step
    let y := moved * 2 ^ 24 / 10 ^ 9
    let s := s.addStep (-moved)
    let s := match s.dpll.sel with
      | none => s
      | some n => s.setSlot n { s.slot n with b := (s.slot n).b - moved }
    (y, if s.dpll.step = 0 then s.setEvent Reg.DPL_EVENT_ev 10 else s)

/-- The lock conditions of a tick (R310). -/
def State.countLock (s : State) : State :=
  match s.dpll.sel with
  | none => { s with dpll := { s.dpll with lockTicks := 0, unlockTicks := 0 } }
  | some n =>
    let d := (s.loopErr n).natAbs
    let thr := s.rd Reg.DPL_LOCK_lock_thr * 65536000
    { s with dpll := { s.dpll with
      lockTicks := if d ≤ thr then s.dpll.lockTicks + 1 else 0
      unlockTicks := if 8 * thr < d then s.dpll.unlockTicks + 1 else 0 } }

/-- The running second of the holdover history: counted while locked. -/
def State.countSecond (s : State) (y : Int) : State :=
  if s.dst = 2 then { s with dpll := { s.dpll with ySum := s.dpll.ySum + y, yCnt := s.dpll.yCnt + 1 } }
  else { s with dpll := { s.dpll with ySum := 0, yCnt := 0 } }

/-- The output of the tick; it is frozen while suspended and held while the root clocks are gated (R308, R318). -/
def State.tickOut (s : State) (kept : Bool) : State :=
  let s := s.countLock
  let held := s.dst == 4 || s.on Reg.SYN_STATUS_gated
  let s := if held then s
    else
      let b := s.baseOut kept
      let p := b.2.stepOut
      let s := ({ p.2 with dpll := { p.2.dpll with yBase := b.1 } }).countSecond b.1
      s.wrS Reg.DPL_YOUT_y (clampI (-yLimit) yLimit (b.1 + p.1))
  { s with dpll := { s.dpll with cumY := s.dpll.cumY + s.rdS Reg.DPL_YOUT_y } }

/-! ### The registers that show the DPLL (R321) -/

/-- The state that DPL_REFn_STAT shows. -/
def State.slotState (s : State) (now : Int) (n : Nat) : Nat :=
  let x := s.slot n
  if !s.slotOn n then 0
  else if !s.slotActive n now then 1
  else if (match x.yShort with
    | none => false
    | some y => s.freqBad y) then 2
  else if x.drifting || x.driftDisq then 3
  else if x.jumpShown then 4
  else if x.qual then 6 else 5

/-- One slot's registers. -/
def State.showSlot (s : State) (now : Int) (n : Nat) : State :=
  let x := s.slot n
  let s := ((s.wr (Reg.DPL_REF_STAT_state n) (s.slotState now n)).wr (Reg.DPL_REF_STAT_outvoted n) (b2n x.outvoted)).wr
    (Reg.DPL_REF_STAT_clean_s n) (min (x.clean / 1000) 4095)
  s.wrS (Reg.DPL_REF_BO_ns n) (sat32 (x.b / 65536000))

/-- A mask of the slots with a property. -/
def slotMask (p : Nat → Bool) : Nat := slotNums.foldl (fun a n => if p n then a + 2 ^ n else a) 0

/-- The registers after a tick. -/
def State.showDpll (s : State) (now : Int) : State :=
  let s := slotNums.foldl (fun s n => s.showSlot now n) s
  let s := (s.wr Reg.DPL_STATUS_qualified (slotMask (fun n => (s.slot n).qual))).wr Reg.DPL_STATUS_outvoted
    (slotMask (fun n => (s.slot n).outvoted))
  let s := s.wrS Reg.DPL_PSTEP_REM_ns (sat32 (s.dpll.step / 65536000))
  match s.dpll.sel with
  | none => s.wr Reg.DPL_STATUS_sel_valid 0
  | some n => ((s.wr Reg.DPL_STATUS_sel_valid 1).wr Reg.DPL_STATUS_sel n).wr Reg.DPL_STATUS_bw_eff (s.bwEff n)

/-! ### The tick (R318) and its neighbours -/

/-- DPLL_TICK (R318), in the order of that rule; an epoch step has its own row. Selection waits while suspended. -/
def dpllTick (cyc : Nat) (s : State) : State :=
  if !s.syn.xo then s
  else
    let now : Int := s.clockAt cyc
    let s := { s with dpll := { s.dpll with tick := s.dpll.tick + 1 } }
    let s := (s.tickSlots now).suspend
    let before := s.dpll.sel
    let s := if s.dst = 4 then s else s.takeMode.select
    (s.rebuildDue.tickOut (s.dpll.sel == before)).showDpll now

/-- DPLL_LOCK (R310). -/
def dpllLock (s : State) : State :=
  if s.dst = 1 ∧ 1000 * s.rd Reg.DPL_LOCK_lock_s ≤ s.dpll.lockTicks then
    { s with dpll := { s.dpll with unlockTicks := 0 } }.setDst 2 |>.setEvent Reg.DPL_EVENT_ev 2
  else s

/-- DPLL_UNLOCK (R310). -/
def dpllUnlock (s : State) : State :=
  if s.dst = 2 ∧ 1000 * s.rd Reg.DPL_LOCK_lock_s ≤ s.dpll.unlockTicks then
    { s with dpll := { s.dpll with lockTicks := 0 } }.setDst 1 |>.setEvent Reg.DPL_EVENT_ev 3
  else s

/-- PHASE_STEP_WRITE (R316): signed ns. -/
def phaseStepWrite (val : Word) (s : State) : State :=
  let s := s.addStep (val.toInt * 65536000)
  s.wrS Reg.DPL_PSTEP_REM_ns (sat32 (s.dpll.step / 65536000))

/-- The slot and the kind of a register whose write disqualifies: 3 for the register that holds the rank. -/
def refConfigOf (off : Nat) : Option (Nat × Nat) :=
  slotNums.findSome? (fun n =>
    if off = (Reg.DPL_REF_CFG_rank n).off then some (n, 3)
    else if off = (Reg.DPL_REF_NUM_num n).off ∨ off = (Reg.DPL_REF_DEN_den n).off ∨ off = (Reg.DPL_REF_OFS_ofs n).off
    then some (n, 2) else none)

/-- REF_CONFIG_WRITE (R318): of rank and falling, NUM, DEN or OFS of a slot. -/
def refConfigWrite (off : Nat) (val : Word) (s : State) : State :=
  match refConfigOf off with
  | none => s
  | some (n, k) =>
    let s := s.writeReg (fun f => f.own || k == 2) true off val
    { s with dpll := { s.dpll with written := s.dpll.written.insert n (max k (s.dpll.written.get 0 n)) } }

/-- The sample histories are discarded, and clean times count anew (R284). -/
def State.clearHistories (s : State) : State :=
  slotNums.foldl (fun s n => s.setSlot n { s.slot n with
    hist := [], arrived := [], doubt := none, clean := 0, lastT := none, wcmp := none, timeStep := false
    delayStep := none, yShort := none, yLong := none }) s

/-- A value less a step, modulo a slot's period where it is an edge slot (R317). -/
def State.lessStep (s : State) (n : Nat) (d e : Int) : Int :=
  let x := e - d
  if 2 ≤ n ∧ n < 7 then
    let p : Int := s.slotPeriod n / 65536
    if p = 0 then x else x - (2 * x + p) / (2 * p) * p
  else x

/-- The local clock stepped by d, in 2^-16 ns (R317): every sample history and the selected slot's build-out follow,
but for those of REF7, which lie against lap boundaries that have not moved. Frame outputs keep their instants. -/
def State.dpllEpoch (s : State) (d : Int) : State :=
  let s := (slotNums.filter (· != 7)).foldl (fun s n =>
    let x := s.slot n
    let f := s.lessStep n d
    s.setSlot n { x with
      hist := x.hist.map (fun h => (h.1, f h.2.1, h.2.2))
      arrived := x.arrived.map f
      doubt := x.doubt.map f
      lastT := x.lastT.map (fun t => t + d * 65536)
      b := if s.dpll.sel = some n then 1000 * f (x.b / 1000) + x.b % 1000 else x.b }) s
  { s with dpll := { s.dpll with fp := s.dpll.fp.map (fun e => (e.1, { e.2 with g := e.2.g + d * 65536 })) } }

/-- A restart of CLK_T after a family change (R318). -/
def State.dpllRestart (s : State) : State :=
  { s.clearHistories with dpll := { s.clearHistories.dpll with rebuild := true } }

/-! ### Frame and pulse outputs (R319, R320) -/

/-- An output. -/
def State.fp (s : State) (n : Nat) : Fp := s.dpll.fp.get Fp.reset n

/-- Stores an output. -/
def State.setFp (s : State) (n : Nat) (x : Fp) : State := { s with dpll := { s.dpll with fp := s.dpll.fp.insert n x } }

/-- CLK_T of the family in force in Hz (R282). -/
def State.clkT (s : State) : Nat := if s.syn.fam = 1 then 245760000 else 225792000

/-- FP_ALIGN (R319): a write of align 1. -/
def fpAlign (n cyc : Nat) (s : State) : State :=
  let num := s.rd (Reg.DPL_FP_NUM_num n)
  let den := s.rd (Reg.DPL_FP_DEN_den n)
  let w := s.rd (Reg.DPL_FP_CFG_width n)
  let ok := num != 0 && den != 0 && decide (den ≤ num) && decide (num ≤ 1000000 * den) && w != 0 &&
    decide (2 * w * num ≤ den * s.clkT)
  if !ok then s.setEvent Reg.DPL_EVENT_ev 13
  else if !s.on (Reg.DPL_FP_CFG_en n) then s
  else
    -- instants times num, in 2^-32 ns
    let p : Int := 10 ^ 9 * 2 ^ 32 * den
    let ofs : Int := s.rd (Reg.DPL_FP_OFS_ofs n) * 2 ^ 32 * num
    let lo : Int := ((s.clockAt cyc : Int) + 10 ^ 6 * 2 ^ 32) * num
    let i := (lo - ofs + p - 1) / p
    let g := (ofs + i * p + num - 1) / num
    (s.setFp n ⟨num, den, w, g, 0⟩).wr (Reg.DPL_FP_CTL_state n) 1

/-- FP_PULSE (R319): the next pulse of an output that waits or runs begins in the first cycle at or after its instant. -/
def fpPulse (n cyc : Nat) (s : State) : State :=
  let st := s.rd (Reg.DPL_FP_CTL_state n)
  let x := s.fp n
  let due := x.g + (x.i : Int) * (10 ^ 9 * 2 ^ 32 * x.den) / x.num
  if (st = 1 ∨ st = 2) ∧ due ≤ (s.clockAt cyc : Int) then
    let low := s.on (Reg.DPL_FP_CFG_pol n)
    let t : Int := s.clockAt (s.cycleOf due)
    let width : Int := x.width * (10 ^ 9 * 2 ^ 32) / s.clkT
    let s := (s.emit (.pulse (.fpOut n) (!low) t)).emit (.pulse (.fpOut n) low (t + width))
    let s := (s.setFp n { x with i := x.i + 1 }).wr (Reg.DPL_FP_CTL_state n) 2
    if st = 1 then s.setEvent Reg.DPL_EVENT_ev 12 else s
  else s

/-- Every output stops while CLK_T is gated (R320). -/
def State.stopFp (s : State) : State :=
  (List.range 4).foldl (fun s n => if s.on (Reg.DPL_FP_CFG_en n) then s.wr (Reg.DPL_FP_CTL_state n) 3 else s) s

/-- A write of DPL_FPn_CFG (R320): en 0 is off, en 1 stopped until an ALIGN. -/
def State.fpEnable (s : State) (n : Nat) : State :=
  if !s.on (Reg.DPL_FP_CFG_en n) then s.wr (Reg.DPL_FP_CTL_state n) 0
  else if s.rd (Reg.DPL_FP_CTL_state n) = 0 then s.wr (Reg.DPL_FP_CTL_state n) 3 else s

/-- DPLL_TICK (R318). -/
def execDpllTick (cyc : Nat) (s : State) : Host.Outcome State Fault Refusal :=
  whenWf (.dpllTick cyc) (dpllTick cyc s)

/-- REF_SAMPLE (R300). -/
def execRefSample (slot : Nat) (cyc sub : Nat) (falling : Bool) (s : State) : Host.Outcome State Fault Refusal :=
  whenWf (.refSample slot cyc sub falling) (refSample slot cyc sub falling s)

/-- REF_QUALIFY (R302). -/
def execRefQualify (slot : Nat) (s : State) : Host.Outcome State Fault Refusal :=
  whenWf (.refQualify slot) (refQualify slot s)

/-- HOLDOVER_HISTORY (R315). -/
def execHoldoverHistory (s : State) : Host.Outcome State Fault Refusal :=
  whenWf .holdoverHistory (holdoverHistory s)

/-- DPLL_LOCK (R310). -/
def execDpllLock (s : State) : Host.Outcome State Fault Refusal :=
  whenWf .dpllLock (dpllLock s)

/-- DPLL_UNLOCK (R310). -/
def execDpllUnlock (s : State) : Host.Outcome State Fault Refusal :=
  whenWf .dpllUnlock (dpllUnlock s)

/-- PHASE_STEP_WRITE (R316). -/
def execPhaseStepWrite (val : Word) (s : State) : Host.Outcome State Fault Refusal :=
  whenWf (.phaseStepWrite val) (phaseStepWrite val s)

/-- REF_CONFIG_WRITE (R318). -/
def execRefConfigWrite (off : Nat) (val : Word) (s : State) : Host.Outcome State Fault Refusal :=
  whenWf (.refConfigWrite off val) (refConfigWrite off val s)

/-- FP_ALIGN (R319). -/
def execFpAlign (n : Nat) (cyc : Nat) (s : State) : Host.Outcome State Fault Refusal :=
  whenWf (.fpAlign n cyc) (fpAlign n cyc s)

/-- FP_PULSE (R319). -/
def execFpPulse (n : Nat) (cyc : Nat) (s : State) : Host.Outcome State Fault Refusal :=
  whenWf (.fpPulse n cyc) (fpPulse n cyc s)

end Sys2Proof.Machine
end

