-- ==== Sys2Proof/Machine/AesIn.lean ====
section
/-! DEFINITION. AES3 reception (R249, R250), and the reference its recovered clock feeds (R300). -/

namespace Sys2Proof.Machine

/-- A frame start of the receiver that APT_AES_REF.sel names is an edge of REF3 (R250, R300): `time` in CLK_T cycles since the
boundary of lap 0, and `frac` sixteenths of a ns after it. -/
def State.aesEdge (s : State) (r : Nat) (time : Int) (frac : Nat) : State :=
  if r = s.rd Reg.APT_AES_REF_sel then s.slotEdge 3 (time - (s.lap : Int) * 10240).toNat frac else s

/-- A subframe at a receiver in service (R249, R250): channel 0 opens the frame. -/
def State.aesSub (s : State) (r ch : Nat) (time : Int) (sub : SubFrame) : State :=
  let p := 16 + r
  if !s.portFollows p then s
  else
    let a : State × Option Int :=
      if ch = 0 then s.frameStart p false time else (s, (s.aport p).inp.frame)
    let x := a.1.aport p
    let s := a.1.setAport p { x with inp := { x.inp with frame := a.2 } }
    let s := if ch = 0 ∧ sub.z then s.zPreamble r else s
    let s := s.csBit r ch sub.c sub.u
    let s := if sub.ok then s else (s.bump (Reg.APT_AESERR_sample r) 1).setEvent Reg.APT_EVENT_ev 7
    match a.2 with
    | none => s
    | some m =>
      let d : BitVec 24 := if s.portWord p = 20 then sub.data &&& 0xFFFFF0#24 else sub.data
      let v : Word :=
        if !sub.ok then s.fifoGet false p (m - 1) ch
        else if fmtField (s.aport p).fmt 20 2 = 1 ∧ sub.v then 0
        else d.setWidth 32 <<< 8
      let s := s.fifoPut false p m ch v
      let s := { s with port := { s.port with
        subBits := s.port.subBits.put 0 (fifoAt false p m ch)
          (b2n sub.v + 2 * b2n sub.u + 4 * b2n sub.c + 8 * b2n sub.z) } }
      if ch = 0 then (s.fifoPut false p m 1 (s.fifoGet false p (m - 1) 1)).fifoMark false p m else s

/-- AES3_SUBFRAME_IN (R249, R250). -/
def aes3SubframeIn (r ch : Nat) (time : Int) (frac : Nat) (sub : SubFrame) (s : State) : State :=
  let t := s.aesSub r ch time sub
  if ch = 0 then t.aesEdge r time frac else t

/-- AES3_SUBFRAME_IN (R249). -/
def execAes3SubframeIn (r ch : Nat) (time : Int) (frac : Nat) (sub : SubFrame) (s : State) :
    Host.Outcome State Fault Refusal :=
  whenWf (.aes3SubframeIn r ch time frac sub) (aes3SubframeIn r ch time frac sub s)

end Sys2Proof.Machine
end

