-- ==== Sys2Proof/Machine/Cores.lean ====
section
/-! DEFINITION. The control cores: images and their verification (R354 to R356), runner faults (R357, R358). -/

namespace Sys2Proof.Machine

/-! ### Images (R354, R355) -/

/-- The most bytes a section of a type may have (R354). -/
def sectionLimit : Nat → Option Nat
  | 1 => some 0x10000
  | 2 => some 0x400000
  | 3 => some 0x4000
  | 4 => some 0x1000
  | _ => none

/-- A section lies within its slot and keeps its type's limit. -/
def ImgSection.ok (x : ImgSection) (size : Nat) : Bool :=
  match sectionLimit x.kind with
  | none => false
  | some l => decide (x.length ≤ l) && decide (x.offset + x.length ≤ size) &&
      (x.kind != 3 || x.length % 8 == 0)

/-- The sections are legal, no type twice, and type 2 is among them (its absence counts as reason 7:
DEDUCED, log 21). -/
def sectionsOk (l : List ImgSection) (size : Nat) : Bool :=
  l.all (fun x => x.ok size) && (l.map (·.kind)).eraseDups.length == l.length && l.any (fun x => x.kind == 2)

/-- The key slot of an image is programmed, not revoked, and holds the hash of its public key. -/
def Fuses.keyOk (f : Fuses) (slot hash : Nat) : Bool :=
  decide (slot < 4) && f.keys.has slot && f.keys.get 0 slot == hash && !f.revoked.get false slot

/-- The checks of a header: reasons 1 to 4 (R355, R406). -/
def ImageSrc.headerReason (i : ImageSrc) (f : Fuses) : Nat :=
  if !i.answers then 1
  else if i.magic ≠ 0x3639454B ∨ i.hdrVer ≠ 1 ∨ i.nsec < 1 ∨ 4 < i.nsec then 2
  else if !f.keyOk i.image.keySlot i.keyHash then 3
  else if !i.sigOk then 4
  else 0

/-- The first check of R355 that an image fails: its reason, 0 when it is accepted. -/
def ImageSrc.reason (i : ImageSrc) (f : Fuses) : Nat :=
  if i.headerReason f ≠ 0 then i.headerReason f
  else if i.image.sv < f.sv then 6
  else if !sectionsOk (i.sections.take i.nsec) i.size then 7
  else if !(i.sections.take i.nsec).all (·.hashOk) then 5
  else 0

/-- Writes the RWL fields of a register, as the keeper does for the image's configuration (R352, R354). -/
def State.writeRwl (s : State) (off v : Nat) : State :=
  match regAt off with
  | none => s
  | some (d, _) => d.fields.foldl (fun s f =>
      if f.acc == .rwl then s.wr ⟨off, f.lo, f.width⟩ (bitsOf v f.lo f.width) else s) s

/-- One entry of the keeper's configuration (R206, R354): MOV_LOCK.mov_lim, the runner windows and RWL fields. -/
def State.configEntry (s : State) (off v : Nat) : State :=
  if off = Reg.MOV_LOCK_mov_lim.off then s.wr Reg.MOV_LOCK_mov_lim (min 16 (bitsOf v 0 5)) else s.writeRwl off v

/-- Loads one section (R354): the keeper's patch area, the runners' shared RAM, the mover program memory, the keeper RAM with the configuration; the
spec gives no address in a RAM, which begins at 0 (DESIGN CHOICE, log 62). -/
def State.loadSection (s : State) (x : ImgSection) : State :=
  match x.kind with
  | 1 => { s with fab := { s.fab with
      keeperPatch := putBytes s.fab.keeperPatch 0 (x.words.flatMap (leBytes 8)) } }
  | 2 => { s with fab := { s.fab with
      runnerRam := putBytes s.fab.runnerRam 0 (x.words.flatMap (leBytes 8)) } }
  | 3 =>
    let mem := (x.words.zipIdx).foldl (fun (t : Tbl (BitVec 64)) e =>
      t.put 0 e.2 (BitVec.ofNat 64 e.1)) s.fab.pmem
    { s with fab := { s.fab with pmem := mem } }.wr Reg.MOV_LOCK_pmem_lim (x.length / 8)
  | 4 =>
    let s := { s with fab := { s.fab with keeperRam := putBytes s.fab.keeperRam 0 (x.words.flatMap (leBytes 8)) } }
    x.config.foldl (fun s e => s.configEntry e.1 e.2) s
  | _ => s

/-- Loads an accepted image from a slot. -/
def State.loadImage (s : State) (i : ImageSrc) (slot : Nat) : State :=
  let s := (i.sections.take i.nsec).foldl State.loadSection s
  let s := { s with core := { s.core with image := some i.image, slot := slot } }
  let s := (s.wr Reg.COR_FW_VER_ver i.image.fwVer).wr Reg.COR_SV_image i.image.sv
  (s.wr Reg.COR_KEY_used i.image.keySlot).wr Reg.COR_BOOT_slot slot

/-- Tries an image: answers whether it was loaded; a refusal shows its reason. -/
def State.tryImage (s : State) (i : ImageSrc) (slot : Nat) : State × Bool :=
  let r := i.reason s.core.fuses
  if r = 0 then (s.loadImage i slot, true) else (s.wr Reg.COR_BOOT_reason r, false)

/-- The keeper enters recovery (R355): no runner starts. -/
def State.recovery (s : State) : State :=
  (s.wr Reg.COR_BOOT_state 4).setEvent Reg.COR_EVENT_ev 1

/-- SV_ADVANCE (R356): burns fuses up to the running image's sv, or is refused. `vddFuse` is the measured
VDD_FUSE in mV; below 1 750 the keeper does not burn (R423). -/
def svAdvance (vddFuse : Nat) (s : State) : State :=
  let sv := s.rd Reg.COR_SV_image
  if s.rd Reg.COR_BOOT_state = 4 ∨ sv ≤ s.core.fuses.sv ∨ vddFuse < 1750 then s.setEvent Reg.COR_EVENT_ev 5
  else { s with core := { s.core with burn := s.core.burn ++ [KeeperBurn.sv sv] } }

/-! ### Runners (R350, R353, R357, R358) -/

/-- U0 to U7 are released and U8 is held as the spare (R353). -/
def State.releaseRunners (s : State) : State :=
  let s := (s.wr Reg.COR_RUNNER_state 0x25555).wr Reg.COR_RUNNER_spare_for 15
  let s := { s with core := { s.core with
    runners := (List.range 9).map (fun k => (k, { Runner.reset with checkIn := s.core.ms })) } }
  s.wr Reg.HLT_ATTIC_runner 1

/-- RUNNER_CHECK_IN (R357). -/
def runnerCheckIn (k ms : Nat) (s : State) : State :=
  let s := { s with core := { s.core with ms := max s.core.ms ms } }
  s.setRunner k { s.runner k with checkIn := ms }

/-- The locks a faulted runner held pass on, marked broken (R364); it waits for none any more. -/
def State.breakLocks (s : State) (k : Nat) : State :=
  let s := { s with sched := { s.sched with
    locks := s.sched.locks.map (fun (e : Nat × Lock) =>
      (e.1, { e.2 with waiters := e.2.waiters.filter (· != k) })) } }
  (s.sched.locks.filter (fun (e : Nat × Lock) => e.2.holder == some k)).foldl (fun s e =>
    ((s.passLock e.1 true).bump Reg.SCH_LOCK_BROKEN_count 1).setEvent Reg.SCH_EVENT_ev 1) s

/-- The tasks a faulted runner was running return to the tails of their ready queues. -/
def State.requeue (s : State) (k : Nat) : State :=
  ((s.sched.tasks.filter (fun e => e.2.st == .running && e.2.runner == k)).map (·.1)).foldl
    (fun s t => s.enqueue t) s

/-- Changes every service affinity mask that names a runner (R358, R365). -/
def State.reaffine (s : State) (k : Nat) (f : Nat → Nat) : State :=
  (List.range 16).foldl (fun s c =>
    let a := s.rd (Reg.SCH_SVC_affinity c)
    if bitAt a k then s.wr (Reg.SCH_SVC_affinity c) (f (a - 2 ^ k)) else s) s

/-- Outstanding service calls complete SVC_RESTART (R194, R358). -/
def State.restartCalls (s : State) : State :=
  (List.range 64).foldl (fun s r =>
    ((s.ring r).descs.filter (fun d => d.type == 0x14 && (d.stage == .taken || d.stage == .active))).foldl
      (fun s d => s.complete r d.id 0x44 0 0 []) s) s

/-- The spare takes over the services of a runner (R358). -/
def State.spareRunner (s : State) (k j : Nat) : State :=
  let s := s.reaffine k (fun a => a ||| 2 ^ j)
  let s := (s.setRunnerState j 1).setRunner j { Runner.reset with checkIn := s.core.ms }
  let s := if j = 8 then s.wr Reg.COR_RUNNER_spare_for k else s
  (s.wr Reg.HLT_ATTIC_runner 0).atticLow

/-- A runner fault (R357, R358): the runner is halted; a keeper in the restricted mode does not recover it
(R397). -/
def State.runnerFault (s : State) (k ms : Nat) : State :=
  if !s.runnerRuns k then s
  else
    let s := { s with core := { s.core with ms := max s.core.ms ms } }
    let r := s.runner k
    let s := s.setRunner k { (r.unblock s.sched.cycle) with
      halted := true, faults := (ms :: r.faults).filter (fun t => decide (ms < t + 60000)), covered := false }
    if !s.keeperOk then s
    else
      let s := (s.bump Reg.COR_RFAULTS_count 1).setEvent Reg.COR_EVENT_ev 2
      let s := { s with health := { s.health with runnerFaults := s.health.runnerFaults + 1 } }
      let s := (s.fault 0x1102 k 0).setRunnerState k 0
      let s := if k = 8 then s.wr Reg.COR_RUNNER_spare_for 15 else s
      let s := (((s.breakLocks k).requeue k).showBlocked).restartCalls
      match (List.range 9).find? (fun j => s.runnerState j == 2) with
      | none => s
      | some j => (s.spareRunner k j).setRunner k { s.runner k with covered := true }

/-- RUNNER_WATCHDOG_EXPIRE (R357): 2 ms without a check-in. -/
def runnerWatchdog (k ms : Nat) (s : State) : State :=
  if (s.runner k).checkIn + 2 ≤ ms then s.runnerFault k ms else s

/-- The services of a retired runner that no spare covers pass to the remaining runners (R358). -/
def State.passServices (s : State) (k : Nat) : State :=
  let rest := (List.range 9).foldl (fun a j => if s.runnerRuns j then a + 2 ^ j else a) 0
  (s.reaffine k (fun a => if a = 0 then rest else a)).dispatch

/-- RUNNER_RETEST_DONE (R358): a runner that passes becomes the spare, or restarts in place when no spare
covered it; one that fails, or faulted for the third time within 60 s, is retired. -/
def runnerRetestDone (k : Nat) (pass : Bool) (s : State) : State :=
  let r := s.runner k
  if !r.halted || !s.keeperOk then s
  else if !pass || decide (3 ≤ r.faults.length) then
    let s := (s.setRunner k { r with halted := false }).setRunnerState k 3
    let s := if r.covered then s else s.passServices k
    s.setEvent Reg.COR_EVENT_ev 3
  else
    let s := s.setRunner k { Runner.reset with faults := r.faults, checkIn := s.core.ms }
    if r.covered then (s.setRunnerState k 2).wr Reg.HLT_ATTIC_runner 1 else s.setRunnerState k 1

/-- KEEPER_BUS_ERROR (R357): the operation is abandoned and the error recorded. -/
def keeperBusError (addr : Nat) (s : State) : State :=
  (s.fault 0x1106 0 addr).setEvent Reg.COR_EVENT_ev 6

/-! ### Keeper check-in (R397) -/

/-- KEEPER_CHECK_IN (R397). -/
def keeperCheckIn (ms : Nat) (s : State) : State :=
  { s with core := { s.core with keeperIn := ms, ms := max s.core.ms ms } }

/-- KEEPER_WATCHDOG_EXPIRE (R397): a check-in missed for 10 ms resets the keeper into the restricted mode. -/
def keeperWatchdog (ms : Nat) (s : State) : State :=
  if s.keeperOk && decide (s.core.keeperIn + 10 ≤ ms) then
    (s.wr Reg.HLT_STATUS_keeper_ok 0).setEvent Reg.HLT_EVENT_ev 9
  else s

/-- SV_ADVANCE (R356). -/
def execSvAdvance (vddFuse : Nat) (s : State) : Host.Outcome State Fault Refusal :=
  whenWf (.svAdvance vddFuse) (svAdvance vddFuse s)

/-- RUNNER_CHECK_IN (R357). -/
def execRunnerCheckIn (k ms : Nat) (s : State) : Host.Outcome State Fault Refusal :=
  whenWf (.runnerCheckIn k ms) (runnerCheckIn k ms s)

/-- RUNNER_WATCHDOG_EXPIRE (R357). -/
def execRunnerWatchdogExpire (k ms : Nat) (s : State) : Host.Outcome State Fault Refusal :=
  whenWf (.runnerWatchdogExpire k ms) (runnerWatchdog k ms s)

/-- RUNNER_FAULT (R358). -/
def execRunnerFault (k ms : Nat) (s : State) : Host.Outcome State Fault Refusal :=
  whenWf (.runnerFault k ms) (s.runnerFault k ms)

/-- RUNNER_RETEST_DONE (R358). -/
def execRunnerRetestDone (k : Nat) (pass : Bool) (s : State) : Host.Outcome State Fault Refusal :=
  whenWf (.runnerRetestDone k pass) (runnerRetestDone k pass s)

/-- KEEPER_BUS_ERROR (R357). -/
def execKeeperBusError (addr : Nat) (s : State) : Host.Outcome State Fault Refusal :=
  whenWf (.keeperBusError addr) (keeperBusError addr s)

/-- KEEPER_CHECK_IN (R397). -/
def execKeeperCheckIn (ms : Nat) (s : State) : Host.Outcome State Fault Refusal :=
  whenWf (.keeperCheckIn ms) (keeperCheckIn ms s)

/-- KEEPER_WATCHDOG_EXPIRE (R397). -/
def execKeeperWatchdogExpire (ms : Nat) (s : State) : Host.Outcome State Fault Refusal :=
  whenWf (.keeperWatchdogExpire ms) (keeperWatchdog ms s)

end Sys2Proof.Machine
end

