-- ==== Sys2Proof/Machine/SynthOps.lean ====
section
/-! DEFINITION. The synthesizers: ratio, bands, lock, ramp generator and divider reset (R322 to R326, R329 to
R331). -/

namespace Sys2Proof.Machine

/-! ### Ratios (R322, R323) -/

/-- M_nom of a family, in 2^-40. -/
def mNom (fam : Nat) : Nat := if fam = 1 then 100 * 2 ^ 40 else 735 * 2 ^ 37

/-- The fence: 104 + 1/6, rounded down to 2^-40. -/
def mFence : Nat := 625 * 2 ^ 40 / 6

/-- The smallest ratio: 87.5. -/
def mMin : Nat := 175 * 2 ^ 39

/-- The effective ratio before the clamps: exact, then rounded down to 2^-40. -/
def mExact (nom : Nat) (y ramp : Int) : Int := (nom : Int) * (2 ^ 40 + y) * (2 ^ 32 + ramp) / 2 ^ 72

/-- A ratio in a register pair: fraction bits [31:0] in LO, the rest in HI. -/
def State.wrRatio (s : State) (lo hiFrac hiInt : Fld) (m : Nat) : State :=
  ((s.wr lo m).wr hiFrac (m / 2 ^ 32)).wr hiInt (m / 2 ^ 40)

/-- Loads M_nom of the family in force. -/
def State.loadNom (s : State) (fam : Nat) : State :=
  s.wrRatio Reg.SYN_MNOM_LO_frac Reg.SYN_MNOM_HI_frac Reg.SYN_MNOM_HI_int (mNom fam)

/-- RATIO_UPDATE (R323): every 64 XO_IN cycles, while XO_IN oscillates. -/
def ratioUpdate (s : State) : State :=
  if !s.syn.xo then s
  else
    let m := mExact (mNom s.syn.fam) (s.rdS Reg.DPL_YOUT_y) (s.rdS Reg.SYN_RAMP_NOW_y)
    let c := clampI mMin mFence m
    let s := s.setEventIf (m != c) Reg.SYN_EVENT_ev 3
    s.wrRatio Reg.SYN_MEFF_LO_frac Reg.SYN_MEFF_HI_frac Reg.SYN_MEFF_HI_int c.toNat

/-! ### Bands (R324) -/

/-- Fills both band tables: an entry the calibration did not find is invalid. -/
def State.calibrate (s : State) (c : Bands) : State :=
  (List.range 64).foldl (fun s n =>
    let a := c.a.getD n (0, 0)
    let b := c.b.getD n (0, 0)
    let s := (s.wr (Reg.SYN_BANDA_lo n) a.1).wr (Reg.SYN_BANDA_hi n) a.2
    (s.wr (Reg.SYN_BANDB_lo n) b.1).wr (Reg.SYN_BANDB_hi n) b.2) s

/-- The envelope of a nominal ratio. -/
def envLo (nom : Nat) : Nat := nom * 96 * 99975 * 256 / (100 * 100000 * 2 ^ 40)
def envHi (nom : Nat) : Nat :=
  (nom * 104 * 100025 * 256 + (100 * 100000 * 2 ^ 40 - 1)) / (100 * 100000 * 2 ^ 40)

/-- The band that qualifies with the largest smaller margin, the lowest-numbered of equals. -/
def chooseBand (nom : Nat) (table : List (Nat × Nat)) : Option Nat :=
  ((table.zipIdx).foldl (fun best e =>
    let (lo, hi) := e.1
    if lo < hi ∧ lo ≤ envLo nom ∧ envHi nom ≤ hi then
      let m := min (envLo nom - lo) (hi - envHi nom)
      match best with
      | none => some (m, e.2)
      | some b => if b.1 < m then some (m, e.2) else best
    else best) (none : Option (Nat × Nat))).map (·.2)

/-- The band table of a synthesizer: B when `b`. -/
def State.bandTable (s : State) (b : Bool) : List (Nat × Nat) :=
  (List.range 64).map (fun n =>
    if b then (s.rd (Reg.SYN_BANDB_lo n), s.rd (Reg.SYN_BANDB_hi n))
    else (s.rd (Reg.SYN_BANDA_lo n), s.rd (Reg.SYN_BANDA_hi n)))

/-- A synthesizer: B when `b`. -/
def State.synth (s : State) (b : Bool) : Synth := if b then s.syn.b else s.syn.a

/-- Stores a synthesizer. -/
def State.setSynth (s : State) (b : Bool) (x : Synth) : State :=
  if b then { s with syn := { s.syn with b := x } } else { s with syn := { s.syn with a := x } }

/-- The lock bit of a synthesizer. -/
def lockBit (b : Bool) : Fld := if b then Reg.SYN_STATUS_lock_b else Reg.SYN_STATUS_lock_a

/-- The synthesizer that drives the root, or would. -/
def State.activeSynth (s : State) : Bool := s.on Reg.SYN_STATUS_active

/-- SYN_STATUS.spare_ok and HLT_ATTIC.synth follow the synthesizer that is not active (R327, R401). -/
def State.showSpare (s : State) : State :=
  let ok := b2n (s.synth (!s.activeSynth)).settled
  (s.wr Reg.SYN_STATUS_spare_ok ok).wr Reg.HLT_ATTIC_synth ok

/-- The increment of the family in force is loaded (R282). -/
def State.loadInc (s : State) : State :=
  (s.wr Reg.TIM_INC_HI_ns 4).wr Reg.TIM_INC_LO_frac (if s.syn.fam = 1 then 0x11AAAAAA else 0x6DC96EE0)

/-- Programming failed with a reason (R324, R332): a rate command ends so, and the keeper retries (R328). -/
def State.progFail (s : State) (reason : Nat) : State :=
  let s := { s with syn := { s.syn with change := s.syn.change.map (fun (c : RateChange) => { c with busy := false }) } }
  ((s.wr Reg.SYN_RATE_CMD_reason reason).wr Reg.SYN_STATUS_prog 4).setEvent Reg.SYN_EVENT_ev 5

/-- Programs a synthesizer for the family in force (R324); one for which no band qualifies is not programmed. -/
def State.programSynth (s : State) (b : Bool) : State :=
  match chooseBand (mNom s.syn.fam) (s.bandTable b) with
  | none => (((s.setSynth b Synth.reset).wr (lockBit b) 0).showSpare).progFail 1
  | some n =>
    let s := (s.wr (if b then Reg.SYN_STATUS_band_b else Reg.SYN_STATUS_band_a) n).wr (lockBit b) 0
    ((s.setSynth b ⟨true, false, false⟩).wr Reg.SYN_STATUS_prog 2).showSpare

/-- Programs both synthesizers; programming goes on while one of them found a band. -/
def State.programBoth (s : State) : State :=
  let s := (s.loadNom s.syn.fam).programSynth true
  let s := s.programSynth false
  if s.syn.a.prog || s.syn.b.prog then s.wr Reg.SYN_STATUS_prog 2 else s

/-! ### Lock (R15, R325, R326) -/

/-- SYN_LOCK follows the synthesizer that drives the root: low while the root clocks are gated (R326). -/
def State.synPin (s : State) : State :=
  { s with pads := { s.pads with
    synLock := s.on (lockBit s.activeSynth) && !s.on Reg.SYN_STATUS_gated } }

/-- The clocks move to the root (R15). -/
def State.toRoot (s : State) (b : Bool) : State :=
  { s with syn := { s.syn with onRoot := true }, time := { s.time with ticking := true } }.wr Reg.SYN_STATUS_gated 0 |>.wr Reg.SYN_STATUS_active (b2n b)

/-- The keeper programs a synthesizer that a loss of lock gated again, where one of its bands serves (R327). -/
def State.reprogram (s : State) (b : Bool) : State :=
  match chooseBand (mNom s.syn.fam) (s.bandTable b) with
  | none => s
  | some n => (s.wr (if b then Reg.SYN_STATUS_band_b else Reg.SYN_STATUS_band_a) n).setSynth b ⟨true, false, false⟩

/-- SYNTH_LOCK (R15, R325): the first lock after POR_N moves the clocks to the root. -/
def synthLock (b : Bool) (s : State) : State :=
  let s := if (s.synth b).gated && s.syn.xo then s.reprogram b else s
  if (s.synth b).prog && s.syn.xo && !s.on (lockBit b) then
    let s := s.wr (lockBit b) 1
    let s := if s.rd Reg.SYN_STATUS_prog = 2 then s.wr Reg.SYN_STATUS_prog 3 else s
    let s := if !s.syn.onRoot && s.syn.change.isNone then s.toRoot b else s
    s.synPin
  else s

/-! ### The ramp generator (R329) -/

/-- The largest |y| of a target: 4 %. -/
def rampLimit : Int := 0x0A3D70A3

/-- The segments that the registers hold. -/
def State.rampSegs (s : State) : List (Int × Nat) :=
  (List.range (s.rd Reg.SYN_RAMP_CTL_nseg_m1 + 1)).map (fun i =>
    (s.rdS (Reg.SYN_RAMP_Y_y i), s.rd (Reg.SYN_RAMP_D_laps i)))

/-- Every target and slope of a profile is legal. -/
def segsOk (y0 : Int) : List (Int × Nat) → Bool
  | [] => true
  | (y, d) :: t => decide (y.natAbs ≤ rampLimit.natAbs) && decide ((y - y0).natAbs ≤ 4096 * d) && segsOk y t

/-- A profile begins at the next lap boundary. -/
def State.beginRamp (s : State) (segs : List (Int × Nat)) : State :=
  let s := { s with syn := { s.syn with ramp := some ⟨segs, s.rdS Reg.SYN_RAMP_NOW_y, 0⟩ } }
  (s.wr Reg.SYN_RAMP_STAT_state 1).wr Reg.SYN_RAMP_STAT_seg 0

/-- RAMP_START (R329). -/
def rampStart (s : State) : State :=
  if !segsOk (s.rdS Reg.SYN_RAMP_NOW_y) s.rampSegs || s.syn.change.isSome then s.setEvent Reg.SYN_EVENT_ev 7
  else s.beginRamp s.rampSegs

/-- The ramp stands still at its value: idle at 0, else holding. -/
def State.holdRamp (s : State) : State :=
  { s with syn := { s.syn with ramp := none } }.wr Reg.SYN_RAMP_STAT_state
    (if s.rdS Reg.SYN_RAMP_NOW_y = 0 then 0 else 2)

/-- RAMP_ABORT (R329). -/
def rampAbort (s : State) : State := if s.syn.ramp.isSome then s.holdRamp else s

/-- RAMP_RETURN (R329): one segment to 0, lengthened where the slope limit asks. -/
def rampReturn (s : State) : State :=
  let y := (s.rdS Reg.SYN_RAMP_NOW_y).natAbs
  s.beginRamp [(0, max (s.rd Reg.SYN_RAMP_CTL_ret_laps) ((y + 4095) / 4096))]

/-- The value of lap k of a segment from y0 to y over d laps. -/
def rampAt (y0 y : Int) (d k : Nat) : Int := y0 + ((y - y0) * ((k : Int) + 1)).tdiv d

/-- RAMP_STEP at a lap boundary (R329). -/
def State.rampStep (s : State) : State :=
  match s.syn.ramp with
  | none => s
  | some r =>
    match r.segs with
    | [] => s
    | (y, d) :: t =>
      let s := s.wrS Reg.SYN_RAMP_NOW_y (rampAt r.y0 y d r.k)
      if r.k + 1 < d then { s with syn := { s.syn with ramp := some { r with k := r.k + 1 } } }
      else
        let s := { s with syn := { s.syn with ramp := some ⟨t, y, 0⟩ } }
        if t.isEmpty then s else s.wr Reg.SYN_RAMP_STAT_seg (s.rd Reg.SYN_RAMP_STAT_seg + 1)

/-- RAMP_DONE (R329): the last segment has ended. -/
def rampDone (s : State) : State :=
  match s.syn.ramp with
  | none => s
  | some r => if r.segs.isEmpty then s.holdRamp.setEvent Reg.SYN_EVENT_ev 6 else s

/-! ### Divider phase reset (R331) -/

/-- SYNC_IN_EDGE (R331). -/
def syncInEdge (s : State) : State :=
  if s.run then (s.bump Reg.SYN_SYNC_COUNT_ignored 1).setEvent Reg.SYN_EVENT_ev 8
  else if s.on Reg.SYN_CFG_sync_en then
    { s with syn := { s.syn with divReset := true } }.bump Reg.SYN_SYNC_COUNT_accepted 1
  else s

/-- DIVIDER_RESET (R331): 24 XO_IN cycles after an accepted edge. -/
def dividerReset (s : State) : State :=
  if s.syn.divReset then
    { s with syn := { s.syn with divReset := false, resets := s.syn.resets + 1 } }
  else s

/-- RATIO_UPDATE (R323). -/
def execRatioUpdate (s : State) : Host.Outcome State Fault Refusal :=
  whenWf .ratioUpdate (ratioUpdate s)

/-- SYNTH_LOCK (R325). -/
def execSynthLock (b : Bool) (s : State) : Host.Outcome State Fault Refusal :=
  whenWf (.synthLock b) (synthLock b s)

/-- RAMP_START (R329). -/
def execRampStart (s : State) : Host.Outcome State Fault Refusal :=
  whenWf .rampStart (rampStart s)

/-- RAMP_ABORT (R329). -/
def execRampAbort (s : State) : Host.Outcome State Fault Refusal :=
  whenWf .rampAbort (rampAbort s)

/-- RAMP_RETURN (R329). -/
def execRampReturn (s : State) : Host.Outcome State Fault Refusal :=
  whenWf .rampReturn (rampReturn s)

/-- RAMP_DONE (R329). -/
def execRampDone (s : State) : Host.Outcome State Fault Refusal :=
  whenWf .rampDone (rampDone s)

/-- SYNC_IN_EDGE (R331). -/
def execSyncInEdge (s : State) : Host.Outcome State Fault Refusal :=
  whenWf .syncInEdge (syncInEdge s)

/-- DIVIDER_RESET (R331). -/
def execDividerReset (s : State) : Host.Outcome State Fault Refusal :=
  whenWf .dividerReset (dividerReset s)

end Sys2Proof.Machine
end

