-- ==== Sys2Proof/Machine/Boot.lean ====
section
/-! DEFINITION. The boot chain (R353, R355, R406, R407 steps 1 to 4). -/

namespace Sys2Proof.Machine

/-- Fuses are sensed (R407 step 1). -/
def State.senseFuses (s : State) : State :=
  let f := s.core.fuses
  let mask (p : Nat → Bool) : Nat := (List.range 4).foldl (fun a k => a + b2n (p k) * 2 ^ k) 0
  let s := s.wr Reg.COR_SV_fuse f.sv
  let s := s.wr Reg.COR_KEY_programmed (mask (fun k => f.keys.has k))
  let s := s.wr Reg.COR_KEY_revoked (mask (fun k => f.revoked.get false k))
  s.wr Reg.HLT_REPAIR_used f.repairs

/-- The IDs the function presents (R406): those of the first slot whose header passes, else the fuses'. They do
not change before the next POR_N. -/
def State.presentIds (s : State) (src : BootSrc) : State :=
  if s.host.ids.isSome then s
  else
    let f := s.core.fuses
    let of (i : ImageSrc) : Nat × Nat × Nat := (i.image.vendor, i.image.subVendor, i.image.subId)
    let ids :=
      if src.primary.headerReason f = 0 then of src.primary
      else if src.secondary.headerReason f = 0 then of src.secondary
      else (f.vendor, f.subVendor, f.subId)
    { s with host := { s.host with ids := some ids } }

/-- Step 3 of R407: both band tables are calibrated and the synthesizers are programmed for SYN_RATE, which is then in force (R282, R332). -/
def State.startSynths (s : State) (c : Bands) : State :=
  let s := (s.calibrate c).wr Reg.COR_BOOT_state 2
  let s := { s with syn := { s.syn with fam := s.rd Reg.SYN_RATE_fam, mult := s.rd Reg.SYN_RATE_mult } }
  s.loadInc.programBoth

/-- Steps 1 to 3 of R407: the primary slot, then the secondary, else recovery (R353, R355). -/
def State.boot (s : State) (src : BootSrc) : State :=
  let s := ((s.senseFuses).presentIds src).wr Reg.COR_BOOT_state 1
  let (s, ok) := s.tryImage src.primary 0
  let (s, ok) := if ok then (s, ok) else s.tryImage src.secondary 1
  if ok then s.startSynths src.bands else s.recovery

/-- Step 4 of R407: lock bits, runners, and state 1 (R352, R353). -/
def State.bootDone (s : State) : State :=
  let s := (s.wr Reg.COR_LOCK_locked 1).releaseRunners
  let s := (s.wr Reg.COR_BOOT_state 3).wr Reg.GLB_PWR_STATUS_state 1
  s.setEvent Reg.COR_EVENT_ev 0

/-- SYNTH_SETTLED (R325, R327, R407): the active synthesizer settled ends step 3 of a boot. -/
def synthSettled (b : Bool) (s : State) : State :=
  let x := s.synth b
  if s.on (lockBit b) && x.prog && !x.settled then
    let s := (s.setSynth b { x with settled := true }).showSpare
    let s := if s.syn.change.isSome then s else s.wr Reg.SYN_STATUS_prog 0
    if s.rd Reg.COR_BOOT_state = 2 ∧ b = s.activeSynth then s.bootDone else s
  else s

/-- BOOT_FROM_CELLAR (R355): in recovery, the image of the user area that COR_RECOV_SRC names; elsewhere, or
with no such area, the command is refused (DEDUCED, log 22). -/
def bootFromCellar (img : ImageSrc) (cal : Bands) (s : State) : State :=
  match s.allocOf 7 (s.rd Reg.COR_RECOV_SRC_index) with
  | none => s.setEvent Reg.COR_EVENT_ev 5
  | some a =>
    if s.rd Reg.COR_BOOT_state ≠ 4 then s.setEvent Reg.COR_EVENT_ev 5
    else
      let (s, ok) := s.tryImage { img with size := min img.size (a.count * 4096) } 2
      if ok then
        if s.syn.onRoot then s.bootDone else s.startSynths cal
      else s

/-- SYNTH_SETTLED (R325). -/
def execSynthSettled (b : Bool) (s : State) : Host.Outcome State Fault Refusal :=
  whenWf (.synthSettled b) (synthSettled b s)

/-- BOOT_FROM_CELLAR (R355). -/
def execBootFromCellar (img : ImageSrc) (cal : Bands) (s : State) : Host.Outcome State Fault Refusal :=
  whenWf (.bootFromCellar img cal) (bootFromCellar img cal s)

end Sys2Proof.Machine
end

