-- ==== Sys2Proof/Machine/Movers.lean ====
section
/-! DEFINITION. The movers (chapter 10): address registers, spaces, moves, instructions, activations and
faults; and what the crossbar answers to an access that may not be made (R233). -/

namespace Sys2Proof.Machine

/-! ### Errors of the crossbar (R233) -/

/-- Counts and captures an error: kind 0 timeout, 1 decode miss, 2 permission (R233). -/
def State.xbrError (s : State) (kind master target addr : Nat) (write : Bool) : State :=
  let s := (s.bump Reg.XBR_ERR_COUNT_count 1).setEvent Reg.XBR_EVENT_ev kind
  if s.on Reg.XBR_ERR_INFO_valid then s
  else
    let s := (s.wr Reg.XBR_ERR_INFO_master master).wr Reg.XBR_ERR_INFO_kind kind
    let s := (s.wr Reg.XBR_ERR_INFO_write (b2n write)).wr Reg.XBR_ERR_INFO_target target
    (s.wr Reg.XBR_ERR_ADDR_addr addr).wr Reg.XBR_ERR_INFO_valid 1

/-! ### A mover's state (R205) -/

/-- A mover beyond its registers. -/
def State.mover (s : State) (m : Nat) : Mover := s.fab.movers.get Mover.reset m

/-- Stores a mover. -/
def State.setMover (s : State) (m : Nat) (x : Mover) : State :=
  { s with fab := { s.fab with movers := s.fab.movers.insert m x } }

/-- MOV_STATm.state: 0 halted, 1 running, 2 waiting, 3 faulted. -/
def State.mstate (s : State) (m : Nat) : Nat := s.rd (Reg.MOV_STAT_state m)

/-- Writes MOV_STATm.state. -/
def State.setMstate (s : State) (m v : Nat) : State := s.wr (Reg.MOV_STAT_state m) v

/-- Writes the program counter; after 2047 comes 0 (R210). -/
def State.setPc (s : State) (m pc : Nat) : State := s.wr (Reg.MOV_STAT_pc m) (pc % 2048)

/-- The next instruction. -/
def State.nextPc (s : State) (m : Nat) : State := s.setPc m (s.rd (Reg.MOV_STAT_pc m) + 1)

/-- The fault codes of R218. -/
def faultLoop : Nat := 1
/-- A target gave no answer, or refused the access. -/
def faultBus : Nat := 2
/-- A space or a shelf the mover may not use. -/
def faultAccess : Nat := 3
/-- An address outside its space, or a rejected length. -/
def faultAddr : Nat := 4
/-- A reserved opcode, value or bit. -/
def faultIllegal : Nat := 5
/-- A sample-mode MOVE that starts with bits held. -/
def faultHold : Nat := 6

/-- A fault ends execution (R218); the keeper records that of a system mover. -/
def State.moverFault (s : State) (m code : Nat) : State :=
  let s := s.setMover m { s.mover m with run := none, badLen := [], waited := 0 }
  let s := ((s.wr (Reg.MOV_STAT_fault m) code).setMstate m 3).setEvent Reg.MOV_FAULT_EVT_ev m
  if s.systemMover m then s.fault (0x0C00 + m) m code else s

/-! ### Address registers (R207) -/

/-- The number of a mover's address register in the register file. -/
def arOf (m a : Nat) : Nat := 8 * m + a

/-- The step of an address register. -/
def State.arStep (s : State) (m a : Nat) : Int := s.rdS (Reg.MOV_ARCFG_step (arOf m a))

/-- The byte address of the next element: base + ptr. -/
def State.arAddr (s : State) (m a : Nat) : Nat :=
  s.rd (Reg.MOV_ARBASE_base (arOf m a)) + s.rd (Reg.MOV_ARPTR_ptr (arOf m a))

/-- A write of len (R207): at once while the mover is halted or faulted, otherwise pending; a pending length
that is not greater than |step| is rejected. -/
def State.lenWrite (s : State) (m a v : Nat) : State :=
  let x := s.mover m
  if s.mstate m == 1 || s.mstate m == 2 then
    if (s.arStep m a).natAbs < v then
      s.setMover m { x with pendLen := x.pendLen.insert a (v + 1), badLen := x.badLen.put false a false }
    else s.setMover m { x with badLen := x.badLen.put false a true }
  else
    (s.setMover m { x with pendLen := x.pendLen.erase a, badLen := x.badLen.put false a false }).wr
      (Reg.MOV_ARLEN_len (arOf m a)) v

/-- A pointer and a length after an access (R207, R53): linear when the length is 0, otherwise modulo with the
pending length taken at the wrap; whether the wrap took it. -/
def arNext (len : Nat) (ptr step : Int) (pend : Option Nat) : Nat × Int × Bool :=
  let t := ptr + step
  if len = 0 then (0, t % 2 ^ 27, false)
  else if t ≥ len then
    match pend with
    | some n => (n, (t - len) % n, true)
    | none => (len, t - len, false)
  else if t < 0 then
    let n := pend.getD len
    (n, t + n, pend.isSome)
  else (len, t, false)

/-- The pending length of an address register. -/
def Mover.pend (x : Mover) (a : Nat) : Option Nat :=
  match x.pendLen.get 0 a with
  | 0 => none
  | n + 1 => some n

/-- Advances an address register's pointer. -/
def State.arAdvance (s : State) (m a : Nat) : State :=
  let x := s.mover m
  let n := arNext (s.rd (Reg.MOV_ARLEN_len (arOf m a))) (s.rd (Reg.MOV_ARPTR_ptr (arOf m a))) (s.arStep m a)
    (x.pend a)
  let s := if n.2.2 then s.setMover m { x with pendLen := x.pendLen.erase a } else s
  (s.wr (Reg.MOV_ARLEN_len (arOf m a)) n.1).wr (Reg.MOV_ARPTR_ptr (arOf m a)) (n.2.1 % 2 ^ 27).toNat

/-! ### Spaces (R208) -/

/-- The size of a space in bytes; none for a reserved code. -/
def spaceSize (sp : Nat) : Option Nat :=
  if sp = 0 then some 0x6000000
  else if sp = 1 then some 0x400000
  else if sp = 2 then some 0x42000
  else if sp = 3 then some 0x200000
  else if sp = 4 then some 0x200
  else none

/-- A space takes elements of a width at an address (R208). -/
def spaceTakes (sp w addr : Nat) : Bool :=
  if sp = 1 then w == 48 && addr % 8 == 0 else if sp = 2 then w == 32 && addr % 4 == 0 else true

/-- The bytes of address that an element occupies: 8 in space 1, otherwise its width. -/
def elemBytes (sp w : Nat) : Nat := if sp = 1 then 8 else w / 8

/-- The word at a byte address of space 4's register part: registers in their layout, 0 between them. -/
def State.arWord (s : State) (m addr : Nat) : Word :=
  if addr % 32 < 16 then s.reg (0x10800 + 0x100 * m + addr / 4 * 4) else 0

/-- A byte of space 4. -/
def State.ownByte (s : State) (m addr : Nat) : Byte :=
  if addr < 0x100 then (s.arWord m addr >>> (8 * (addr % 4))).setWidth 8
  else (s.mover m).scratch.get 0 (addr - 0x100)

/-- Writes the word of one of the mover's own address registers. -/
def State.setArWord (s : State) (m addr : Nat) (v : Word) : State :=
  let a := arOf m (addr / 32)
  let k := addr % 32 / 4
  if k = 0 then (s.wr (Reg.MOV_ARCFG_space a) (bitsOf v.toNat 0 4)).wr (Reg.MOV_ARCFG_step a) (bitsOf v.toNat 16 16)
  else if k = 1 then s.wr (Reg.MOV_ARBASE_base a) (bitsOf v.toNat 0 27)
  else if k = 2 then s.lenWrite m (addr / 32) (bitsOf v.toNat 0 27)
  else if k = 3 then s.wr (Reg.MOV_ARPTR_ptr a) (bitsOf v.toNat 0 27)
  else s

/-- The word at an address with the bytes of a write put into it: bytes from `addr` up. -/
def mergeWord (old : Word) (word addr : Nat) (bs : List Byte) : Word :=
  BitVec.ofNat 32 (ofLe ((List.range 4).map (fun i =>
    if addr ≤ word + i ∧ word + i < addr + bs.length then bs.getD (word + i - addr) 0
    else (old >>> (8 * i)).setWidth 8)))

/-- Writes bytes of space 4. -/
def State.ownPut (s : State) (m addr : Nat) (bs : List Byte) : State :=
  let words := ((List.range bs.length).map (fun i => (addr + i) / 4 * 4)).eraseDups.filter (fun w => decide (w < 0x100))
  let s := words.foldl (fun s w => s.setArWord m w (mergeWord (s.arWord m w) w addr bs)) s
  let x := s.mover m
  s.setMover m { x with scratch := (bs.zipIdx).foldl (fun t e =>
    if addr + e.2 < 0x100 then t else t.put 0 (addr + e.2 - 0x100) e.1) x.scratch }

/-- The tile that answers an address of space 1: the one that holds the slot, unless it is gated (R219). -/
def State.xTile (s : State) (addr : Nat) : Option Nat :=
  (s.slotTile (addr / 0x20000)).filter (fun t => s.tstate t != 7)

/-- The key of an X-bank word in its tile. -/
def xKey (addr : Nat) : Nat := 5 * 16384 + addr % 0x20000 / 8

/-- Why an access to the cellar by a mover is not made (R208, R229): ACCESS for a user mover's write that its
shelf does not permit, BUS_ERR for a permission error. -/
def State.cellarFault (s : State) (m addr n : Nat) (write : Bool) : Option Nat :=
  if s.cellarOk (10 + m) addr write && s.cellarOk (10 + m) (addr + n - 1) write then none
  else if write && !s.systemMover m && s.bankPooled (addr / 0x180000) && s.bankPooled ((addr + n - 1) / 0x180000)
  then some faultAccess
  else some faultBus

/-- Why an access of an element is not made, in the order register, space, cellar or tile. -/
def State.elemFault (s : State) (m a w : Nat) (write : Bool) : Option Nat :=
  let sp := s.rd (Reg.MOV_ARCFG_space (arOf m a))
  let addr := s.arAddr m a
  if (s.mover m).badLen.get false a then some faultAddr
  else match spaceSize sp with
    | none => some faultAccess
    | some size =>
      if !(sp == 0 || sp == 4 || s.systemMover m) then some faultAccess
      else if size < addr + elemBytes sp w || !spaceTakes sp w addr then some faultAddr
      else if sp = 0 then s.cellarFault m addr (w / 8) write
      else if sp = 1 && (s.xTile addr).isNone then some faultBus
      else none

/-- The state after a refused access: the crossbar's own record where it answered BUS_ERR (R233). -/
def State.refusedAccess (s : State) (m a code : Nat) (write : Bool) : State :=
  let sp := s.rd (Reg.MOV_ARCFG_space (arOf m a))
  if code = faultBus then
    if sp = 0 then s.xbrError 2 (10 + m) 0 (s.arAddr m a) write else s.xbrError 0 (10 + m) 2 (s.arAddr m a) write
  else s

/-- An element's value at the register's address, as stored. -/
def State.elemGet (s : State) (m a w : Nat) : Nat :=
  let sp := s.rd (Reg.MOV_ARCFG_space (arOf m a))
  let addr := s.arAddr m a
  if sp = 0 then ofLe (s.cellarSeen addr (w / 8))
  else if sp = 1 then
    match s.xTile addr with
    | none => 0
    | some t => ((s.tileAt t).bank.get 0 (xKey addr)).toNat
  else if sp = 2 then (s.port.fifo.get 0 (addr / 4)).toNat
  else if sp = 3 then ofLe (getBytes s.fab.netBuf addr (w / 8))
  else ofLe ((List.range (w / 8)).map (fun i => s.ownByte m (addr + i)))

/-- The state after an element was read: as `State.afterSeen` where it is of the cellar. -/
def State.elemSeen (s : State) (m a w : Nat) : State :=
  if s.rd (Reg.MOV_ARCFG_space (arOf m a)) = 0 then s.afterSeen (s.arAddr m a) (w / 8) else s

/-- Stores an element at the register's address. -/
def State.elemPut (s : State) (m a w v : Nat) : State :=
  let sp := s.rd (Reg.MOV_ARCFG_space (arOf m a))
  let addr := s.arAddr m a
  if sp = 0 then s.cellarPut addr (leBytes (w / 8) v)
  else if sp = 1 then
    match s.xTile addr with
    | none => s
    | some t =>
      let put (s : State) (t : Nat) : State :=
        s.setTile t { s.tileAt t with bank := (s.tileAt t).bank.put 0 (xKey addr) (BitVec.ofNat 48 v) }
      (s.shadowOf t).foldl put (put s t)
  else if sp = 2 then { s with port := { s.port with fifo := s.port.fifo.put 0 (addr / 4) (BitVec.ofNat 32 v) } }
  else if sp = 3 then { s with fab := { s.fab with netBuf := putBytes s.fab.netBuf addr (leBytes (w / 8) v) } }
  else s.ownPut m addr (leBytes (w / 8) v)

/-- A memory's errors of its domain and index are counted; whether the data read is zero (R393). -/
def State.memEcc (s : State) (domain index : Nat) (e : CellEcc) : State × Bool :=
  match e with
  | .ok => (s, false)
  | .corrected => (s.countCe domain index, false)
  | .primaryBad | .allBad => (s.countUe domain index, true)

/-- What the decoders report of an element (R66, R213, R226, R227): whether it is read as zero. -/
def State.elemEcc (s : State) (m a : Nat) (e : CellEcc) : State × Bool :=
  let sp := s.rd (Reg.MOV_ARCFG_space (arOf m a))
  let addr := s.arAddr m a
  if sp = 0 then s.cellarEcc (10 + m) addr e
  else if sp = 1 then
    match s.xTile addr with
    | none => (s, e == .primaryBad || e == .allBad)
    | some t => s.memEcc 0 t e
  else if sp = 3 then s.memEcc 2 13 e
  else (s, e == .primaryBad || e == .allBad)

/-! ### Elements (R213 to R215) -/

/-- Reverses the byte order of an element of w bits. -/
def swapElem (swap : Bool) (w v : Nat) : Nat := if swap then ofLe (leBytes (w / 8) v).reverse else v

/-- The value of a width code; none when reserved (R209). -/
def widthOf (c : Nat) : Option Nat :=
  if c = 0 then some 16 else if c = 1 then some 24 else if c = 2 then some 32
  else if c = 3 then some 48 else if c = 4 then some 64 else none

/-- Sample mode's conversion (R215). -/
def convElem (ws wd v : Nat) : Nat :=
  if ws = wd then v
  else
    let x : Int := if ws < 48 then (pcmIn ws v).toInt
      else if ws = 48 then (BitVec.ofNat 48 v).toInt
      else clampI (-(2 ^ 47)) (2 ^ 47 - 1) (BitVec.ofNat 64 v).toInt
    if wd = 48 then (BitVec.ofInt 48 x).toNat
    else if wd = 64 then (BitVec.ofInt 64 x).toNat
    else (pcmOut wd (BitVec.ofInt 48 x)).toNat

/-- The fields of a MOVE (R209). -/
structure MoveI where
  src : Nat
  dst : Nat
  ws : Nat
  wd : Nat
  sample : Bool
  swapS : Bool
  swapD : Bool
  flush : Bool
  paced : Bool
  req : Nat
  count : Nat
  deriving DecidableEq, Repr

/-- Reads the fields of a MOVE; none when a field or a reserved bit is illegal (R209). -/
def moveFields (i : Nat) : Option MoveI :=
  match widthOf (bitsOf i 49 3), widthOf (bitsOf i 46 3) with
  | some ws, some wd =>
    if bitsOf i 16 18 = 0 ∧ bitsOf i 0 16 ≠ 0 then
      some ⟨bitsOf i 55 3, bitsOf i 52 3, ws, wd, bitsOf i 45 1 == 1, bitsOf i 44 1 == 1, bitsOf i 43 1 == 1,
        bitsOf i 42 1 == 1, bitsOf i 41 1 == 1, bitsOf i 34 7, bitsOf i 0 16⟩
    else none
  | _, _ => none

/-- What a part of a MOVE leads to: the state, and the fault it met. -/
abbrev MoveRes := State × Option Nat

/-- Reads the next source element: its value after swap_s, and a fault. -/
def State.readElem (s : State) (m : Nat) (i : MoveI) (e : CellEcc) : State × (Nat ⊕ Nat) :=
  match s.elemFault m i.src i.ws false with
  | some c => (s.refusedAccess m i.src c false, .inl c)
  | none =>
    let v := s.elemGet m i.src i.ws
    let r := (s.elemSeen m i.src i.ws).elemEcc m i.src e
    (r.1.arAdvance m i.src, .inr (swapElem i.swapS i.ws (if r.2 then 0 else v)))

/-- Writes a destination element, swapped by swap_d: a free value where the ranges overlap (R213). -/
def State.writeElem (s : State) (m : Nat) (i : MoveI) (overlap : Bool) (v : Nat) : MoveRes :=
  match s.elemFault m i.dst i.wd true with
  | some c => (s.refusedAccess m i.dst c true, some c)
  | none =>
    let (f, t) := s.drawBits i.wd
    let (v, s) := if overlap then (f.toNat, t) else (swapElem i.swapD i.wd v, s)
    ((s.elemPut m i.dst i.wd v).arAdvance m i.dst, none)

/-- The fill count f of the holding register. -/
def State.fill (s : State) (m : Nat) : Nat := s.rd (Reg.MOV_STAT_fill m)

/-- Stores the holding register and its fill count. -/
def State.setHold (s : State) (m h f : Nat) : State :=
  (s.setMover m { s.mover m with h := BitVec.ofNat 128 h }).wr (Reg.MOV_STAT_fill m) f

/-- Writes destination elements while f ≥ wd (R214); at most 8 of 16 bits are held. -/
def State.drainHold (s : State) (m : Nat) (i : MoveI) (overlap : Bool) : Nat → MoveRes
  | 0 => (s, none)
  | n + 1 =>
    if s.fill m < i.wd then (s, none)
    else
      let h := (s.mover m).h.toNat
      match s.writeElem m i overlap (h % 2 ^ i.wd) with
      | (s, some c) => (s, some c)
      | (s, none) => (s.setHold m (h / 2 ^ i.wd) (s.fill m - i.wd)).drainHold m i overlap n

/-- One source element of a MOVE and the destination elements it completes. -/
def State.moveElem (s : State) (m : Nat) (i : MoveI) (overlap : Bool) (e : CellEcc) : MoveRes :=
  if i.sample then
    match s.readElem m i e with
    | (s, .inl c) => (s, some c)
    | (s, .inr v) => s.writeElem m i overlap (convElem i.ws i.wd v)
  else
    match s.drainHold m i overlap 8 with
    | (s, some c) => (s, some c)
    | (s, none) =>
      match s.readElem m i e with
      | (s, .inl c) => (s, some c)
      | (s, .inr v) =>
        (s.setHold m ((s.mover m).h.toNat + v * 2 ^ s.fill m) (s.fill m + i.ws)).drainHold m i overlap 8

/-- n source elements, from the k-th on; `ecc` says by element what the decoders report (R213). -/
def moveElems (m : Nat) (i : MoveI) (overlap : Bool) (ecc : List (Nat × CellEcc)) : Nat → Nat → State → MoveRes
  | 0, _, s => (s, none)
  | n + 1, k, s =>
    match s.moveElem m i overlap (eccAt ecc k) with
    | (s, some c) => (s, some c)
    | (s, none) => moveElems m i overlap ecc n (k + 1) s

/-- The end of a MOVE in raw mode: with flush the remainder is written as one element (R214). -/
def State.flushHold (s : State) (m : Nat) (i : MoveI) (overlap : Bool) : MoveRes :=
  if !i.sample && i.flush && s.fill m != 0 then
    match s.writeElem m i overlap (s.mover m).h.toNat with
    | (s, some c) => (s, some c)
    | (s, none) => (s.setHold m 0 0, none)
  else (s, none)

/-- A MOVE is complete: the mover goes on, or faults. -/
def State.endMove (m : Nat) (i : MoveI) (overlap : Bool) (r : MoveRes) : State :=
  match r with
  | (s, some c) => s.moverFault m c
  | (s, none) =>
    match s.flushHold m i overlap with
    | (s, some c) => s.moverFault m c
    | (s, none) => (s.setMover m { s.mover m with run := none }).nextPc m

/-- The lowest and one past the highest byte address that n accesses through a register touch. -/
def rangeOf (base len : Nat) (step : Int) (pend : Option Nat) (bytes : Nat) : Nat → Int → Option (Nat × Nat) → Option (Nat × Nat)
  | 0, _, r => r
  | n + 1, ptr, r =>
    let a := base + ptr.toNat
    let r' := match r with
      | none => (a, a + bytes)
      | some (lo, hi) => (min lo a, max hi (a + bytes))
    let x := arNext len ptr step pend
    rangeOf base x.1 step (if x.2.2 then none else pend) bytes n x.2.1 (some r')

/-- The range of n accesses of a width through a register. -/
def State.arRange (s : State) (m a w n : Nat) : Option (Nat × Nat) :=
  rangeOf (s.rd (Reg.MOV_ARBASE_base (arOf m a))) (s.rd (Reg.MOV_ARLEN_len (arOf m a))) (s.arStep m a)
    ((s.mover m).pend a) (elemBytes (s.rd (Reg.MOV_ARCFG_space (arOf m a))) w) n
    (s.rd (Reg.MOV_ARPTR_ptr (arOf m a))) none

/-- The destination elements that a MOVE writes. -/
def State.moveOut (s : State) (m : Nat) (i : MoveI) : Nat :=
  if i.sample then i.count
  else
    let bits := s.fill m + i.count * i.ws
    bits / i.wd + (if i.flush ∧ bits % i.wd ≠ 0 then 1 else 0)

/-- Source and destination ranges of a MOVE overlap (R213). -/
def State.moveOverlap (s : State) (m : Nat) (i : MoveI) : Bool :=
  s.rd (Reg.MOV_ARCFG_space (arOf m i.src)) == s.rd (Reg.MOV_ARCFG_space (arOf m i.dst)) &&
    match s.arRange m i.src i.ws i.count, s.arRange m i.dst i.wd (s.moveOut m i) with
    | some (a, b), some (c, d) => decide (a < d) && decide (c < b)
    | _, _ => false

/-! ### Request lines (R211, R252, R276) -/

/-- The exchange window of the running lap is open: it has begun and no placed processing has (R18, R51). -/
def State.windowOpen (s : State) : Bool :=
  s.audio.exchLap == s.lap + 1 && s.tile.tiles.all (fun e => e.2.ranLap != s.lap + 1)

/-- Bytes of frames that wait in a network port's egress queues. -/
def State.egressBytes (s : State) (p : Nat) : Nat :=
  (s.net.ports.get NetPort.reset p).queues.foldl (fun n q => q.2.foldl (fun n f => n + f.bytes.length) n) 0

/-- A request line is asserted. Payload is stored when it is received, so receive staging never holds any. -/
def State.reqLine (s : State) (k : Nat) : Bool :=
  if k < 16 then s.windowOpen && (s.aport k).inp.data
  else if k < 32 then s.windowOpen && (s.aport (k - 16)).out.data
  else if k < 40 then s.windowOpen && (s.aport (k - 16)).inp.data
  else if k < 48 then s.windowOpen && (s.aport (k - 16)).out.data
  else if 50 ≤ k ∧ k < 52 then decide (s.egressBytes (k - 50) + s.maxBytes (k - 50) true ≤ 0x80000)
  else false

/-! ### Instructions (R209, R210, R212) -/

/-- The instruction at a mover's pc. -/
def State.instrAt (s : State) (m : Nat) : Nat := (s.fab.pmem.get 0 (s.rd (Reg.MOV_STAT_pc m))).toNat

/-- What the decoder of program memory reports (R393). -/
def State.fetchEcc (s : State) : Ecc → State
  | .ok => s
  | .corrected => s.countCe 2 11
  | .uncorrectable => s.countUe 2 11

/-- A mover executes the instruction at its pc, where that has the command's opcode: the activation's budget,
the fetch, the reserved opcodes, then the instruction's own fields; none of these are illegal (R209, R212). -/
def State.executes (s : State) (m op : Nat) (fetch : Ecc) (f : Nat → State → Option State) : State :=
  let i := s.instrAt m
  if s.mstate m != 1 || (s.mover m).run.isSome || (bitsOf i 58 6 != op && decide (bitsOf i 58 6 < 6)) then s
  else if s.rd (Reg.MOV_BUDGET_budget m) ≤ (s.mover m).used then s.moverFault m faultLoop
  else
    let s := s.fetchEcc fetch
    if fetch = .uncorrectable ∨ 6 ≤ bitsOf i 58 6 then s.moverFault m faultIllegal
    else match f i (s.setMover m { s.mover m with used := (s.mover m).used + 1, ir := i }) with
      | none => s.moverFault m faultIllegal
      | some t => t

/-- HALT (R210). -/
def halt (m : Nat) (fetch : Ecc) (s : State) : State :=
  s.executes m 0 fetch (fun i s =>
    if bitsOf i 1 57 ≠ 0 then none
    else
      let s := ((s.setMover m { s.mover m with ctr := [] }).setHold m 0 0).setMstate m 0
      some (s.setEventIf (bitsOf i 0 1 == 1) Reg.MOV_HALT_EVT_ev m))

/-- MOVE (R213 to R216): all of it, or the begin of a paced one. -/
def move (m : Nat) (fetch : Ecc) (ecc : List (Nat × CellEcc)) (s : State) : State :=
  s.executes m 1 fetch (fun w s =>
    match moveFields w with
    | none => none
    | some i =>
      if i.sample && s.fill m != 0 then some (s.moverFault m faultHold)
      else
        let o := s.moveOverlap m i
        if i.paced then some (s.setMover m { s.mover m with run := some ⟨i.count, o⟩ })
        else some (State.endMove m i o (moveElems m i o ecc i.count 0 s)))

/-- PACED_BURST (R216): with the line asserted, the next burst of at most 256 bytes of source data; every withdrawal of the
line within the burst is counted. -/
def pacedBurst (m : Nat) (ecc : List (Nat × CellEcc)) (withdrawn : Nat) (s : State) : State :=
  match (s.mover m).run, moveFields (s.mover m).ir with
  | some r, some i =>
    if s.mstate m != 1 || !s.reqLine i.req then s
    else
      let n := min r.left (256 / (i.ws / 8))
      let s := if withdrawn = 0 then s else s.bump (Reg.MOV_WITHDRAW_count m) withdrawn
      match moveElems m i r.overlap ecc n 0 s with
      | (s, some c) => s.moverFault m c
      | (s, none) =>
        if n < r.left then s.setMover m { s.mover m with run := some { r with left := r.left - n } }
        else State.endMove m i r.overlap (s, none)
  | _, _ => s

/-- LOOP (R210). -/
def loop (m : Nat) (fetch : Ecc) (s : State) : State :=
  s.executes m 2 fetch (fun i s =>
    if bitsOf i 32 24 ≠ 0 ∨ bitsOf i 11 5 ≠ 0 ∨ bitsOf i 16 16 = 0 then none
    else
      let x := s.mover m
      let c := x.ctr.get LoopCtr.reset (bitsOf i 56 2)
      let n := (if c.armed then c.n else bitsOf i 16 16) - 1
      let s := s.setMover m { x with ctr := x.ctr.put LoopCtr.reset (bitsOf i 56 2) ⟨n, n != 0⟩ }
      some (if n ≠ 0 then s.setPc m (bitsOf i 0 11) else s.nextPc m))

/-- The fields of a WAIT are legal (R209). -/
def waitOk (i : Nat) : Bool :=
  let kind := bitsOf i 55 3
  let line := bitsOf i 48 7
  let arg := bitsOf i 0 16
  bitsOf i 32 16 == 0 && decide (kind < 4) &&
    (if kind = 1 then true else if kind = 2 then decide (line < 8) else line == 0) &&
    (if kind = 0 then decide (arg < 25600) else if kind = 3 then arg != 0 else arg == 0)

/-- WAIT (R211, R212): the activation ends. -/
def wait (m : Nat) (fetch : Ecc) (s : State) : State :=
  s.executes m 3 fetch (fun i s =>
    if waitOk i then some ((s.setMover m { s.mover m with waited := 0 }).setMstate m 2) else none)

/-- A mover's inbox. -/
def State.inbox (s : State) (m : Nat) : Nat := s.rd (Reg.MOV_INBOX_inbox m)

/-- Sets a bit of a mover's inbox (R210). -/
def State.signal (s : State) (dest bit : Nat) : State :=
  s.wr (Reg.MOV_INBOX_inbox dest) (s.inbox dest ||| 2 ^ bit)

/-- Clears bits of a mover's inbox. -/
def State.clearInbox (s : State) (m mask : Nat) : State :=
  s.wr (Reg.MOV_INBOX_inbox m) (s.inbox m - (s.inbox m &&& mask))

/-- SIGNAL (R210). -/
def signal (m : Nat) (fetch : Ecc) (s : State) : State :=
  s.executes m 4 fetch (fun i s =>
    if bitsOf i 0 54 ≠ 0 then none else some ((s.signal (bitsOf i 54 4) m).nextPc m))

/-- JUMP (R210). -/
def jump (m : Nat) (fetch : Ecc) (s : State) : State :=
  s.executes m 5 fetch (fun i s =>
    let cond := bitsOf i 56 2
    let k := bitsOf i 48 8
    if bitsOf i 11 37 ≠ 0 ∨ (cond = 1 ∧ 16 ≤ k) ∨ (cond = 2 ∧ 128 ≤ k) ∨ (cond % 3 = 0 ∧ k ≠ 0) then none
    else
      let taken := if cond = 0 then true
        else if cond = 1 then bitsOf (s.inbox m) k 1 == 1
        else if cond = 2 then s.reqLine k
        else (s.mover m).timedOut
      let s := if cond = 1 ∧ taken then s.clearInbox m (2 ^ k)
        else if cond = 3 then s.setMover m { s.mover m with timedOut := false }
        else s
      some (if taken then s.setPc m (bitsOf i 0 11) else s.nextPc m))

/-! ### Waits (R211) -/

/-- A new activation begins after a WAIT. -/
def State.activate (s : State) (m : Nat) (timedOut : Bool) : State :=
  ((s.setMover m { s.mover m with timedOut := timedOut, used := 0 }).setMstate m 1).nextPc m

/-- WAIT_SATISFIED (R211): the event of the WAIT's kind; the bit it tests is cleared. -/
def waitSatisfied (m : Nat) (s : State) : State :=
  let i := (s.mover m).ir
  let kind := bitsOf i 55 3
  let line := bitsOf i 48 7
  let mask := bitsOf i 0 16
  if s.mstate m != 2 || (s.mover m).startWait != 0 then s
  else if kind = 0 then
    if (s.mover m).tick then (s.setMover m { s.mover m with tick := false }).activate m false else s
  else if kind = 1 then (if s.reqLine line then s.activate m false else s)
  else if kind = 2 then
    if s.fab.tev.get false line then
      ({ s with fab := { s.fab with tev := s.fab.tev.put false line false } }).activate m false
    else s
  else if s.inbox m &&& mask ≠ 0 then (s.clearInbox m mask).activate m false
  else s

/-- The event of a WAIT holds now (R211): for a pacer tick only where the WAIT asks for the boundary itself, since a later
cycle of the lap has still to come. -/
def State.waitMet (s : State) (m i : Nat) : Bool :=
  match bitsOf i 55 3 with
  | 0 => (s.mover m).tick && bitsOf i 0 16 == 0
  | 1 => s.reqLine (bitsOf i 48 7)
  | 2 => s.fab.tev.get false (bitsOf i 48 7)
  | _ => s.inbox m &&& bitsOf i 0 16 != 0

/-- WAIT_TIMEOUT (R211): still unsatisfied after t lap boundaries. -/
def waitTimeout (m : Nat) (s : State) : State :=
  let i := (s.mover m).ir
  let t := bitsOf i 16 16
  if s.mstate m == 2 && (s.mover m).startWait == 0 && t != 0 && decide (t ≤ (s.mover m).waited) && !s.waitMet m i then
    s.activate m true
  else s

/-! ### Start, stop and lap boundaries (R217, R218) -/

/-- Commands and locked registers of a mover follow the keeper's lock for system movers (R206, R220). -/
def State.moverOpen (s : State) (who : Agent) (m : Nat) : Bool :=
  who == .keeper || !s.on Reg.COR_LOCK_locked || !s.systemMover m

/-- The start of a mover at its entry (R217). -/
def State.startMover (s : State) (m : Nat) (startLap : Bool) : State :=
  let x := s.mover m
  let s := s.setMover m { x with
    ctr := [], tick := false, timedOut := false, used := 0, waited := 0, run := none, badLen := [],
    startWait := b2n startLap }
  let s := (s.setHold m 0 0).wr (Reg.MOV_INBOX_inbox m) 0
  let s := (s.wr (Reg.MOV_STAT_fault m) 0).setPc m (s.rd (Reg.MOV_CTL_entry m))
  s.setMstate m (if startLap then 2 else 1)

/-- A write of MOV_CTLm takes its fields start_lap and entry (R217, R220). -/
def State.writeCtl (s : State) (m : Nat) (val : Word) : State :=
  (s.wr (Reg.MOV_CTL_start_lap m) (bitsOf val.toNat 3 1)).wr (Reg.MOV_CTL_entry m) (bitsOf val.toNat 16 11)

/-- MOVER_START (R217): the write of MOV_CTLm with cmd = 1; the start is ignored unless the mover is halted or faulted. -/
def moverStart (who : Agent) (m : Nat) (val : Word) (s : State) : State :=
  if s.moverOpen who m then
    let t := s.writeCtl m val
    if s.mstate m == 0 || s.mstate m == 3 then t.startMover m (t.on (Reg.MOV_CTL_start_lap m)) else t
  else s

/-- MOVER_START_AT_LAP (R217): the boundary has passed. -/
def moverStartAtLap (m : Nat) (s : State) : State :=
  if (s.mover m).startWait = 2 then (s.setMover m { s.mover m with startWait := 0 }).setMstate m 1 else s

/-- Halts a mover: H is cleared (R217). -/
def State.haltMover (s : State) (m : Nat) : State :=
  ((s.setMover m { s.mover m with run := none, startWait := 0 }).setHold m 0 0).setMstate m 0

/-- MOVER_STOP (R217): the write of MOV_CTLm with cmd = 2; a MOVE in progress ends after its burst; a faulted mover stays
faulted. -/
def moverStop (who : Agent) (m : Nat) (val : Word) (s : State) : State :=
  if s.moverOpen who m then
    let t := s.writeCtl m val
    if s.mstate m == 1 || s.mstate m == 2 then t.haltMover m else t
  else s

/-- SYSTEM_MOVER_RESTART (R218): the keeper restarts a faulted system mover at the boundary after its fault. -/
def systemMoverRestart (m : Nat) (s : State) : State :=
  if s.systemMover m && s.mstate m == 3 && decide (1 ≤ (s.mover m).waited) && s.keeperOk then s.startMover m false
  else s

/-- A lap boundary at one mover (R211, R217, R218): the pacer tick, whatever the mover does (DEDUCED, log 38); the laps of a
WAIT or of a fault; and a start that waits for the boundary, whose tick is not pending. -/
def State.moverLap (s : State) (m : Nat) : State :=
  let x := s.mover m
  if x.startWait = 1 then s.setMover m { x with startWait := 2 }
  else
    let st := s.mstate m
    let s := s.setMover m { x with waited := if st = 0 then x.waited else x.waited + 1, tick := true }
    if x.tick then (s.bump (Reg.MOV_OVR_count m) 1).setEvent Reg.MOV_TICK_EVT_ev m else s

/-! ### Writes from outside (R207, R220) -/

/-- INBOX_WRITE (R220): writing 1 sets a bit as a SIGNAL from that mover would. -/
def inboxWrite (m : Nat) (val : Word) (s : State) : State :=
  s.wr (Reg.MOV_INBOX_inbox m) (s.inbox m ||| val.toNat % 65536)

/-- Whether an agent may write an instruction of the program memory (R206, R220, R228). -/
def State.pmemOpen (s : State) (who : Agent) (i : Nat) : Bool :=
  match who with
  | .keeper => true
  | .host => decide (s.rd Reg.MOV_LOCK_pmem_lim ≤ i)
  | .runner _ => false

/-- MOVER_LEN_WRITE (R207). -/
def moverLenWrite (who : Agent) (m r : Nat) (val : Word) (s : State) : State :=
  if s.moverOpen who m then s.lenWrite m r (val.toNat % 2 ^ 27) else s

/-- HALT (R210). -/
def execHalt (m : Nat) (fetch : Ecc) (s : State) : Host.Outcome State Fault Refusal :=
  whenWf (.halt m fetch) (halt m fetch s)

/-- MOVE (R213). -/
def execMove (m : Nat) (fetch : Ecc) (ecc : List (Nat × CellEcc)) (s : State) : Host.Outcome State Fault Refusal :=
  whenWf (.move m fetch ecc) (move m fetch ecc s)

/-- LOOP (R210). -/
def execLoop (m : Nat) (fetch : Ecc) (s : State) : Host.Outcome State Fault Refusal :=
  whenWf (.loop m fetch) (loop m fetch s)

/-- WAIT (R211). -/
def execWait (m : Nat) (fetch : Ecc) (s : State) : Host.Outcome State Fault Refusal :=
  whenWf (.wait m fetch) (wait m fetch s)

/-- SIGNAL (R210). -/
def execSignal (m : Nat) (fetch : Ecc) (s : State) : Host.Outcome State Fault Refusal :=
  whenWf (.signal m fetch) (signal m fetch s)

/-- JUMP (R210). -/
def execJump (m : Nat) (fetch : Ecc) (s : State) : Host.Outcome State Fault Refusal :=
  whenWf (.jump m fetch) (jump m fetch s)

/-- WAIT_SATISFIED (R211). -/
def execWaitSatisfied (m : Nat) (s : State) : Host.Outcome State Fault Refusal :=
  whenWf (.waitSatisfied m) (waitSatisfied m s)

/-- WAIT_TIMEOUT (R211). -/
def execWaitTimeout (m : Nat) (s : State) : Host.Outcome State Fault Refusal :=
  whenWf (.waitTimeout m) (waitTimeout m s)

/-- PACED_BURST (R216). -/
def execPacedBurst (m : Nat) (ecc : List (Nat × CellEcc)) (withdrawn : Nat) (s : State) : Host.Outcome State Fault Refusal :=
  whenWf (.pacedBurst m ecc withdrawn) (pacedBurst m ecc withdrawn s)

/-- MOVER_START (R217). -/
def execMoverStart (who : Agent) (m : Nat) (val : Word) (s : State) : Host.Outcome State Fault Refusal :=
  whenWf (.moverStart who m val) (moverStart who m val s)

/-- MOVER_STOP (R217). -/
def execMoverStop (who : Agent) (m : Nat) (val : Word) (s : State) : Host.Outcome State Fault Refusal :=
  whenWf (.moverStop who m val) (moverStop who m val s)

/-- MOVER_START_AT_LAP (R217). -/
def execMoverStartAtLap (m : Nat) (s : State) : Host.Outcome State Fault Refusal :=
  whenWf (.moverStartAtLap m) (moverStartAtLap m s)

/-- SYSTEM_MOVER_RESTART (R218). -/
def execSystemMoverRestart (m : Nat) (s : State) : Host.Outcome State Fault Refusal :=
  whenWf (.systemMoverRestart m) (systemMoverRestart m s)

/-- INBOX_WRITE (R220). -/
def execInboxWrite (who : Agent) (m : Nat) (val : Word) (s : State) : Host.Outcome State Fault Refusal :=
  whenWf (.inboxWrite who m val) (inboxWrite m val s)

/-- MOVER_LEN_WRITE (R207). -/
def execMoverLenWrite (who : Agent) (m r : Nat) (val : Word) (s : State) : Host.Outcome State Fault Refusal :=
  whenWf (.moverLenWrite who m r val) (moverLenWrite who m r val s)

end Sys2Proof.Machine
end

