-- ==== Sys2Proof/Machine/Crossbar.lean ====
section
/-! DEFINITION. The crossbar (R231 to R233): its errors, and a target that does not answer. -/

namespace Sys2Proof.Machine

/-- The number of a privileged master's wait counter XBR_CONF0 to XBR_CONF4 (R228, R231). -/
def confIndex (master : Nat) : Option Nat :=
  if master = 29 then some 0 else if master = 30 then some 1 else if master = 32 then some 2
  else if master = 34 then some 3 else if master = 26 then some 4 else none

/-- Pieces of a privileged master that waited for their bank are counted (R231). -/
def State.pieceWaits (s : State) (master n : Nat) : State :=
  match confIndex master with
  | some i => if n = 0 then s else s.bump (Reg.XBR_CONF_count i) n
  | none => s

/-- How a master takes a BUS_ERR (R233): the keeper, a runner and a mover fault; any other drops the
piece. -/
def State.busError (s : State) (master addr : Nat) : State :=
  let s := { s with resp := .busErr }
  if master = 0 then keeperBusError addr s
  else if master ≤ 9 then s.runnerFault (master - 1) s.core.ms
  else if master ≤ 25 && s.mstate (master - 10) == 1 then s.moverFault (master - 10) faultBus
  else s

/-- The decode policy of a master is to answer without an error (R233, R235). -/
def State.decodePolicy (s : State) (master : Nat) : Bool :=
  bitsOf (s.rd Reg.XBR_DPOL0_pol + 2 ^ 28 * s.rd Reg.XBR_DPOL0_pol28 + 2 ^ 32 * s.rd Reg.XBR_DPOL1_pol) master 1 == 1

/-- A cellar bank whose access timed out is failed (R391). -/
def State.bankTimeout (s : State) (target addr : Nat) : State :=
  if target = 0 then
    (match s.physBank (addr / 0x180000) with
    | none => s
    | some n => s.bankFailed n)
  else s

/-- CROSSBAR_TIMEOUT (R233): BUS_ERR after 4096 CLK_F cycles without an answer. -/
def crossbarTimeout (master target addr : Nat) (write : Bool) (s : State) : State :=
  ((s.bankTimeout target addr).xbrError 0 master target addr write).busError master addr

/-- CROSSBAR_TIMEOUT (R233). -/
def execCrossbarTimeout (master target addr : Nat) (write : Bool) (s : State) : Host.Outcome State Fault Refusal :=
  whenWf (.crossbarTimeout master target addr write) (crossbarTimeout master target addr write s)

end Sys2Proof.Machine
end

