-- ==== Sys2Proof/Machine/Heat.lean ====
section
/-! DEFINITION. Heats, checker duty and takeover (R52, R59 to R65, R390). -/

namespace Sys2Proof.Machine

/-! ### Fault of a tile (R63, R65) -/

/-- The processor of a tile is halted: what it wrote to X in the lap is discarded, its partials with it, and
its banks stay as they are (R63). -/
def State.haltTile (s : State) (t : Nat) : State :=
  let k := s.tileAt t
  let s := s.setTile t { k with
    halted := true, haltLap := s.lap + 1, part := [], xw := [], bank := k.xw.foldl (fun b w => b.erase w) k.bank }
  match s.tileSlot t with
  | none => s
  | some slot =>
    { s with audio := { s.audio with
        partLap := s.audio.partLap.erase (s.lap % 16 * 32 + slot)
        part := s.audio.part.drop (fun key => key / 2048 == s.lap % 16 * 32 + slot) } }

/-- The failed tile's slot is isolated: its objects are held muted (R65). -/
def State.isolateTile (s : State) (t : Nat) : State :=
  let s := match s.tileSlot t with
    | none => s
    | some slot => { s with tile := { s.tile with isolated := s.tile.isolated.put false slot true } }
  (s.setTstate t 6).setEvent Reg.TIL_EVENT_ev 0

/-- The heat's spare leaves checker duty: it is idle again. -/
def State.chkIdle (s : State) (h : Nat) : State :=
  let s := s.setHeat h { s.heat h with step := .idle, lapsLeft := 0, suspect := none }
  let s := (s.wr (Reg.TIL_HEAT_checked_tile h) 63).wr (Reg.TIL_HEAT_chk_state h)
    (if (s.spare h).isSome then 0 else 5)
  match s.spare h with
  | none => s
  | some p => s.setTstate p 3

/-- A heat has no spare from now on: TIL_HEATh reads 63 and checker duty stops (R62, R63, R390). -/
def State.loseSpare (s : State) (h : Nat) : State :=
  let s := ((s.wr (Reg.TIL_HEAT_spare_tile h) 63).chkIdle h).countSpares
  s.atticLow

/-- A fault of an active tile. With a spare, and takeover enabled or the keeper's command, a takeover is due
at the next lap boundary; otherwise the slot is isolated (R63, R65). A spare that another tile's takeover waits for
is none to this tile. -/
def State.tileFault (s : State) (t : Nat) (keeper : Bool) : State :=
  let h := t / 9
  let s := s.haltTile t
  match s.spare h with
  | none => s.isolateTile t
  | some _ =>
    if (s.heat h).takeover.getD t ≠ t then s.isolateTile t
    else if keeper || s.on Reg.TIL_CHK_CFG_takeover_en then
      s.setHeat h { s.heat h with takeover := some t }
    else
      let s := s.isolateTile t
      if s.rd (Reg.TIL_HEAT_checked_tile h) = t then s.chkIdle h else s

/-- The spare of a heat is declared faulty and withdrawn (R62). A halted tile that waited for it is isolated: its heat has
no spare (R63, R65). -/
def State.withdrawSpare (s : State) (h : Nat) : State :=
  match s.spare h with
  | none => s
  | some p =>
    let s := (s.loseSpare h).setTstate p 6
    let s := (s.setEvent Reg.TIL_EVENT_ev 2).setEvent Reg.TIL_EVENT_ev 4
    match (s.heat h).takeover with
    | none => s
    | some t => (s.setHeat h { s.heat h with takeover := none }).isolateTile t

/-! ### Checker duty (R59 to R62) -/

/-- The next active tile of a heat after a tile, in ascending order with wrap-round (R59). The rule does not say with which
tile the round begins: a heat that has checked none yet takes the next after tile 0, which is its lowest active tile but
in heat 0, where it is the lowest above T0 (DESIGN CHOICE, log entry 17). -/
def State.nextActive (s : State) (h after : Nat) : Option Nat :=
  let l := (heatTiles h).filter (fun t => s.tileActive t)
  match l.find? (fun t => decide (after < t)) with
  | some t => some t
  | none => l.head?

/-- The tile the spare attaches to next: the suspect when it is rechecked, else the next active tile after
the last one checked, or after the suspect when it is cross-checked (R59, R62). -/
def State.attachTarget (s : State) (h : Nat) : Option Nat :=
  let k := s.heat h
  match k.suspect with
  | some t => if s.rd (Reg.TIL_HEAT_chk_state h) = 3 then some t else s.nextActive h t
  | none => s.nextActive h k.robin

/-- The spare begins to attach (R60). -/
def checkerAttach (h : Nat) (s : State) : State :=
  match s.spare h, s.attachTarget h with
  | some p, some t =>
    if s.on Reg.TIL_CHK_CFG_chk_en && (s.heat h).step == .idle && s.run && !s.power.gated then
      let k := s.heat h
      let s := s.setHeat h { k with step := .copying, copyFrom := s.lap, robin := if k.suspect.isSome then k.robin else t }
      let s := (s.setTstate p 4).wr (Reg.TIL_HEAT_checked_tile h) t
      if k.suspect.isSome then s else s.wr (Reg.TIL_HEAT_chk_state h) 1
    else s
  | _, _ => s

/-- The shadow copy is complete: the spare records the tile's state writes of the next lap (R60). -/
def checkerCopyComplete (h : Nat) (s : State) : State :=
  let k := s.heat h
  if k.step ≠ .copying then s
  else if !s.on Reg.TIL_CHK_CFG_chk_en then s.chkIdle h
  else s.setHeat h { k with step := .recording, lapsLeft := 2 }

/-- Once the recording lap has passed, the spare's banks hold the state that the tile under check reads, with its parity
(R60). -/
def State.shadow (s : State) (h p : Nat) : State :=
  let k := s.tileAt (s.rd (Reg.TIL_HEAT_checked_tile h))
  s.setTile p { s.tileAt p with
    sread := k.sread, bank := k.bank.filter (fun e => e.1 / 16384 == 2 + k.sread), xw := [] }

/-- Checker duty at a lap boundary: it ends while chk_en is 0; a copy is complete within 4 laps, so that attachment takes
at most 5; the recording lap passes, and checking begins in the lap after it (R59, R60). -/
def State.checkerLap (s : State) (h : Nat) : State :=
  let k := s.heat h
  if k.step = .idle then s
  else if !s.on Reg.TIL_CHK_CFG_chk_en then s.chkIdle h
  else if k.step = .copying ∧ k.copyFrom + 4 ≤ s.lap then s.setHeat h { k with step := .recording, lapsLeft := 1 }
  else if k.step = .recording then
    if k.lapsLeft ≤ 1 then
      let s := s.setHeat h { k with step := .window, lapsLeft := s.rd Reg.TIL_CHK_CFG_window, cmpLap := 0 }
      let s := match s.spare h with
        | none => s
        | some p => (s.shadow h p).setTstate p 5
      if k.suspect.isSome then s else s.wr (Reg.TIL_HEAT_chk_state h) 2
    else s.setHeat h { k with lapsLeft := k.lapsLeft - 1 }
  else s

/-- A mismatch (R62): the first makes the spare check the tile again, the second makes it cross-check another
tile, and a mismatch there makes the spare itself the suspect. -/
def State.mismatch (s : State) (h : Nat) : State :=
  let k := s.heat h
  let s := (s.bump Reg.TIL_CHK_MISMATCH_count 1).setEvent Reg.TIL_EVENT_ev 1
  let s := { s with health := { s.health with mism := s.health.mism.insert h (s.health.mism.get 0 h + 1) } }
  match k.suspect with
  | none =>
    let t := s.rd (Reg.TIL_HEAT_checked_tile h)
    (s.setHeat h { k with step := .idle, lapsLeft := 0, suspect := some t }).wr (Reg.TIL_HEAT_chk_state h) 3
  | some _ =>
    if s.rd (Reg.TIL_HEAT_chk_state h) = 3 then
      (s.setHeat h { k with step := .idle, lapsLeft := 0 }).wr (Reg.TIL_HEAT_chk_state h) 4
    else s.withdrawSpare h

/-- The spare has run the lap of the tile under check on its own banks, from the same words (R61): where no word differs
they hold what the tile's hold. -/
def State.shadowRun (s : State) (h : Nat) : State :=
  match s.spare h with
  | none => s
  | some p =>
    let k := s.tileAt (s.rd (Reg.TIL_HEAT_checked_tile h))
    s.setTile p { s.tileAt p with bank := k.bank, xw := k.xw }

/-- The comparison of one lap (R61), once in a lap of the window: it never touches the tile under check. Both processors
run the same modules on the same words, so a word differs only by a fault in one of them, which the command says. -/
def checkerCompare (h : Nat) (differs : Bool) (s : State) : State :=
  let k := s.heat h
  if k.step = .window then
    if !s.on Reg.TIL_CHK_CFG_chk_en then s.chkIdle h
    else if k.cmpLap = s.lap + 1 then s
    else if differs then s.mismatch h
    else (s.shadowRun h).setHeat h { k with lapsLeft := k.lapsLeft - 1, cmpLap := s.lap + 1 }
  else s

/-- A window without a mismatch ends (R62): round robin goes on, a recheck that passes was transient, and a
cross-check that passes is the verdict against the suspect. -/
def checkerWindowEnd (h : Nat) (s : State) : State :=
  let k := s.heat h
  if k.step = .window ∧ k.lapsLeft = 0 then
    let s := { s with health := { s.health with
      passed := s.health.passed.insert h (s.health.passed.get 0 h + 1) } }
    match k.suspect with
    | none => s.chkIdle h
    | some t =>
      if s.rd (Reg.TIL_HEAT_chk_state h) = 4 then (s.chkIdle h).tileFault t false else s.chkIdle h
  else s

/-- CHECKER_ATTACH (R60). -/
def execCheckerAttach (heat : Nat) (s : State) : Host.Outcome State Fault Refusal :=
  whenWf (.checkerAttach heat) (checkerAttach heat s)

/-- CHECKER_COPY_COMPLETE (R60). -/
def execCheckerCopyComplete (heat : Nat) (s : State) : Host.Outcome State Fault Refusal :=
  whenWf (.checkerCopyComplete heat) (checkerCopyComplete heat s)

/-- CHECKER_COMPARE (R61, R62). -/
def execCheckerCompare (heat : Nat) (differs : Bool) (s : State) : Host.Outcome State Fault Refusal :=
  whenWf (.checkerCompare heat differs) (checkerCompare heat differs s)

/-- CHECKER_WINDOW_END (R62, R63). -/
def execCheckerWindowEnd (heat : Nat) (s : State) : Host.Outcome State Fault Refusal :=
  whenWf (.checkerWindowEnd heat) (checkerWindowEnd heat s)

/-! ### Causes of a takeover (R52, R62, R63) -/

/-- TILE_OVERRUN (R52, R63): a fault of an active tile. -/
def execTileOverrun (tile : Nat) (s : State) : Host.Outcome State Fault Refusal :=
  whenWf (.tileOverrun tile) (if s.tileActive tile then s.tileFault tile false else s)

/-- RESIDUE_ERROR (R62, R63): in the spare it withdraws the spare, in an active tile it is a fault. -/
def execResidueError (tile : Nat) (s : State) : Host.Outcome State Fault Refusal :=
  whenWf (.residueError tile)
    (if s.spare (tile / 9) = some tile then s.withdrawSpare (tile / 9)
    else if s.tileActive tile then s.tileFault tile false else s)

/-- The keeper's command (R62, R63): the takeover of a tile whatever takeover_en holds, or the spare is
declared faulty. A keeper in restricted mode gives none (R397). -/
def keeperTakeover (h : Nat) (tile : Option Nat) (s : State) : State :=
  if !s.keeperOk then s
  else
    match tile with
    | none => s.withdrawSpare h
    | some t =>
      if s.spare h = some t then s.withdrawSpare h
      else if s.tileActive t && t / 9 == h then s.tileFault t true
      else s

/-- KEEPER_TAKEOVER_COMMAND (R62, R63). -/
def execKeeperTakeoverCommand (heat : Nat) (tile : Option Nat) (s : State) :
    Host.Outcome State Fault Refusal :=
  whenWf (.keeperTakeoverCommand heat tile) (keeperTakeover heat tile s)

/-- The resumption ramp of a slot's objects after a takeover (R63, R67). -/
def State.resumeSlot (s : State) (slot : Nat) : State :=
  (s.objsOn slot).foldl (fun s o =>
    if s.tile.cold.get false o then s else s.startRamp o (s.rd Reg.TIL_RAMP_resume_samples)) s

/-- At the boundary after the fault the spare adopts the halted tile's banks, with the state parity it read, and its slot
(R63); objects whose adopted words cannot be read restart cold (R64). TIL_TILEn.state of the spare reads 0 from then on,
also while its outputs ramp in or its objects restart cold: which of the codes shows then is not stated (DESIGN CHOICE,
log entry 17). Tiles that QUIET gates take nothing over. -/
def spareTakeover (t : Nat) (bad : List Nat) (allBad : Bool) (s : State) : State :=
  let h := t / 9
  let k := s.heat h
  match s.spare h with
  | none => s
  | some p =>
    if k.takeover = some t ∧ s.power.gated = false ∧ ((s.tileAt t).haltLap ≤ s.lap ∨ s.run = false) then
      let slot := s.rd (Reg.TIL_TILE_slot t)
      let x := s.tileAt t
      let s := s.setTile p { x with halted := false }
      let s := ((s.wr (Reg.TIL_TILE_slot p) slot).wr (Reg.TIL_TILE_no_slot p) 0)
      let s := (s.wr (Reg.TIL_TILE_no_slot t) 1).setTstate t 6
      let s := s.loseSpare h
      let s := (s.setTstate p 0).setHeat h { s.heat h with takeover := none, exhaust := true }
      let s := (s.bump (Reg.TIL_HEAT_takeovers h) 1).setEvent Reg.TIL_EVENT_ev 0
      let s := s.fault 0x0E00 t slot
      let s := s.resumeSlot slot
      let cold := (s.objsOn slot).filter (fun o => allBad || bad.contains o)
      let s := s.setEventIf (!cold.isEmpty) Reg.TIL_EVENT_ev 3
      cold.foldl State.coldObj s
    else s

/-- SPARE_TAKEOVER (R63, R64). -/
def execSpareTakeover (tile : Nat) (badObjs : List Nat) (allBad : Bool) (s : State) :
    Host.Outcome State Fault Refusal :=
  whenWf (.spareTakeover tile badObjs allBad) (spareTakeover tile badObjs allBad s)

/-- TILE_RETEST_DONE (R65, R390): a failed tile that passes becomes the spare of a heat that has none; one
that fails is retired and stays failed. -/
def tileRetestDone (t : Nat) (pass : Bool) (s : State) : State :=
  let h := t / 9
  if s.tstate t = 6 ∧ pass ∧ s.keeperOk ∧ s.spare h = none then
    let s := (s.wr (Reg.TIL_TILE_no_slot t) 1).setTile t { Tile.reset with sread := s.lap % 2 }
    let s := (s.wr (Reg.TIL_HEAT_spare_tile h) t).countSpares
    s.chkIdle h
  else s

/-- TILE_RETEST_DONE (R65, R390). -/
def execTileRetestDone (tile : Nat) (pass : Bool) (s : State) : Host.Outcome State Fault Refusal :=
  whenWf (.tileRetestDone tile pass) (tileRetestDone tile pass s)

end Sys2Proof.Machine
end

