-- ==== Sys2Proof/Machine/Health.lean ====
section
/-! DEFINITION. Endurance, spares and faults (R387 to R401). -/

namespace Sys2Proof.Machine

/-! ### Retiring tiles, ageing monitors (R395, R401) -/

/-- An HLT_CMD is refused (R401). -/
def State.hltRefuse (s : State) : State := s.setEvent Reg.HLT_EVENT_ev 10

/-- A tile may be retired: it is active and its heat has a spare, for which no takeover waits (R395, R401). -/
def State.canRetire (s : State) (t : Nat) : Bool :=
  s.tileActive t && (s.spare (t / 9)).isSome && (s.heat (t / 9)).takeover.isNone

/-- RETIRE_TILE (R395, R401): HLT_CMD with cmd = 1. -/
def retireTile (t : Nat) (s : State) : State :=
  if !s.keeperOk || s.on Reg.HLT_STATUS_subst || !s.canRetire t then s.hltRefuse else s.tileFault t true

/-- MARGIN_LOW (R395): a monitor's reading; below margin_thr the tile may be retired. -/
def marginLow (monitor slack : Nat) (s : State) : State :=
  let s := (s.wr (Reg.HLT_MARGIN_now monitor) slack).wr (Reg.HLT_MARGIN_min monitor)
    (min slack (s.rd (Reg.HLT_MARGIN_min monitor)))
  let s := { s with health := { s.health with
    slackRec := s.health.slackRec.insert monitor (min slack (s.health.slackRec.get 255 monitor)) } }
  if slack < s.rd Reg.HLT_THR_margin_thr then
    let s := s.setEvent Reg.HLT_EVENT_ev 2
    if s.on Reg.HLT_CFG_auto_tile && s.keeperOk && decide (monitor < 36) && s.canRetire monitor then
      s.tileFault monitor true
    else s
  else s

/-! ### Cellar banks (R391) -/

/-- Spare physical banks: in the pool, serving no logical bank. -/
def State.spareBanks (s : State) : List Nat :=
  (List.range 68).filter (fun n => s.rd (Reg.CEL_PBANK_logical n) == 127 && s.rd (Reg.CEL_PBANK_owner n) == 0)

/-- HLT_ATTIC.banks follows the spare banks; none left sets attic_low (R390). -/
def State.countBanks (s : State) : State :=
  let n := s.spareBanks.length
  let was := s.rd Reg.HLT_ATTIC_banks
  let s := s.wr Reg.HLT_ATTIC_banks n
  if n = 0 ∧ was ≠ 0 then s.atticLow else s

/-- The banks that production test marked failed serve nothing (R221): the lowest-numbered spare takes each one's logical bank,
and they are retired (DESIGN CHOICE, log 63). -/
def State.mapFailed (s : State) : State :=
  let bad := s.core.fuses.failedBanks.filter (fun o => decide (o < 68))
  let s := bad.foldl (fun (s : State) o =>
    let b := s.rd (Reg.CEL_PBANK_logical o)
    let s := (s.wr (Reg.CEL_PBANK_owner o) 2).wr (Reg.CEL_PBANK_logical o) 127
    match s.spareBanks.filter (fun n => !bad.contains n) with
    | [] => s
    | n :: _ => if b < 64 then s.wr (Reg.CEL_PBANK_logical n) b else s) s
  if bad.isEmpty then s else s.countBanks

/-- A substitution begins: writes go to both banks from the next lap boundary. -/
def State.startSubst (s : State) (o : Nat) : State :=
  match s.spareBanks with
  | [] => s
  | p :: _ =>
    let x : Subst := ⟨o, p, s.rd (Reg.CEL_PBANK_logical o), s.lap + 1, false⟩
    let s := { s with health := { s.health with subst := some x } }
    (s.wr Reg.HLT_STATUS_subst 1).wr Reg.HLT_STATUS_subst_bank o

/-- A physical bank may be substituted: it serves a logical bank and a spare remains. -/
def State.canSubst (s : State) (o : Nat) : Bool :=
  decide (s.rd (Reg.CEL_PBANK_logical o) < 64) && !s.spareBanks.isEmpty

/-- The automatic trigger of R391 holds for a bank. -/
def State.substDue (s : State) (o : Nat) : Bool :=
  s.on Reg.HLT_CFG_auto_bank && s.keeperOk &&
    (s.health.failedBanks.contains o ||
      decide (16 * s.rd Reg.HLT_THR_bank_ce < (s.health.bankCe.get [] o).length))

/-- SUBSTITUTE_BANK (R391, R401): HLT_CMD with cmd = 2, or the keeper's own trigger; a second one waits until
the first has switched. -/
def substituteBank (o : Nat) (cmd : Bool) (s : State) : State :=
  if cmd then
    if !s.keeperOk || s.on Reg.HLT_STATUS_subst || !s.canSubst o then s.hltRefuse else s.startSubst o
  else if s.substDue o && s.canSubst o then
    if s.health.subst.isNone then s.startSubst o
    else if s.health.substQueue.contains o ||
        (s.health.subst.map (·.o)) == some o then s
    else { s with health := { s.health with substQueue := s.health.substQueue ++ [o] } }
  else s

/-- BANK_SUBST_SWITCH (R391): at the first lap boundary after the copy, which begins at L0, the spare serves the bank; the
old bank goes to class 1 and is tested. A restricted keeper switches nothing (R397). -/
def bankSubstSwitch (s : State) : State :=
  match s.health.subst with
  | none => s
  | some x =>
    if s.lap ≤ x.from_ ∨ !s.keeperOk then s
    else
      let s := (s.wr (Reg.CEL_PBANK_logical x.s) x.b).wr (Reg.CEL_PBANK_logical x.o) 127
      let s := s.bankClass x.o 1
      let s := { s with health := { s.health with subst := none, testing := s.health.testing ++ [x.o] } }
      let s := (s.wr Reg.HLT_STATUS_subst 0).wr Reg.HLT_STATUS_subst_bank 127
      let s := (s.countBanks.setEvent Reg.HLT_EVENT_ev 3).fault 0x1203 x.o x.s
      match s.health.substQueue with
      | [] => s
      | o :: q =>
        let s := { s with health := { s.health with substQueue := q } }
        if s.canSubst o then s.startSubst o else s

/-- BANK_TEST_DONE (R390, R391): a bank that passes returns to the attic, one that fails is retired. -/
def bankTestDone (n : Nat) (pass : Bool) (s : State) : State :=
  if s.health.testing.contains n && s.keeperOk then
    let s := { s with health := { s.health with
      testing := s.health.testing.filter (· != n)
      failedBanks := if pass then s.health.failedBanks.filter (· != n) else s.health.failedBanks
      bankCe := s.health.bankCe.erase n } }
    (s.bankClass n (if pass then 0 else 2)).countBanks
  else s

/-! ### Field repair and scrubbing (R392, R394) -/

/-- FIELD_REPAIR (R392): `corrected` errors of one column within 24 h, whether a spare column of the macro
remains, and the measured VDD_FUSE in mV (R423). -/
def fieldRepair (corrected : Nat) (spareLeft : Bool) (vddFuse : Nat) (s : State) : State :=
  if s.on Reg.HLT_CFG_auto_repair && s.keeperOk && decide (s.rd Reg.HLT_THR_col_ce ≤ corrected) &&
      spareLeft && decide (1750 ≤ vddFuse) && decide (vddFuse ≤ 1890) &&
      decide (s.core.fuses.repairs + (s.core.burn.filter (· == .repair)).length < 512) then
    let s := { s with core := { s.core with burn := s.core.burn ++ [KeeperBurn.repair] } }
    ((s.wr Reg.HLT_STATUS_repair_pending 1).setEvent Reg.HLT_EVENT_ev 5).fault 0x1205 0 0
  else s

/-- SCRUB_PASS_END (R394). -/
def scrubPassEnd (s : State) : State :=
  let s := { s with health := { s.health with scrubLate := false } }
  (s.bump Reg.HLT_SCRUB_PASSES_count 1).wr Reg.HLT_SCRUB_progress 0

/-- SCRUB_LATE (R394). -/
def scrubLate (s : State) : State :=
  { s with health := { s.health with scrubLate := true } }.setEvent Reg.HLT_EVENT_ev 7

/-! ### Temperature and life used (R396, R398) -/

/-- The highest of readings in 1/16 °C. -/
def maxTemp (l : List Int) : Int := l.foldl max (l.headD 0)

/-- TEMPERATURE_SAMPLE (R396): the eight sensors, in 1/16 °C. -/
def temperatureSample (temps : List Int) (s : State) : State :=
  let t := maxTemp temps
  let s := (s.wrS Reg.HLT_TEMP_now t).wrS Reg.HLT_TEMP_peak (max t (s.rdS Reg.HLT_TEMP_peak))
  let s := { s with health := { s.health with tempPeakRec := max t s.health.tempPeakRec } }
  let s := s.setEventIf (decide (100 * 16 ≤ t)) Reg.HLT_EVENT_ev 0
  s.setEventIf (decide (105 * 16 ≤ t)) Reg.HLT_EVENT_ev 1

/-- e^x for x in fixed point of any size. -/
def fxExpAny (x : Int) : Int :=
  let n := x / fxLn2
  let m := fxExp (x - n * fxLn2)
  if 0 ≤ n then m * 2 ^ n.toNat else m / 2 ^ (-n).toNat

/-- The weight of R398 in 2^-32 s, for a temperature in 1/16 °C. -/
def lifeWeight (t : Int) : Nat :=
  let k : Int := 437040 + 100 * t
  (fxRound (fxExpAny (fxDiv (81234 * 100) (10 * 36315) - fxDiv (81234 * 1600) (10 * k))) 32).toNat

/-- HLT_LIFE shows the count plus the base, in whole seconds. -/
def State.showLife (s : State) : State :=
  s.wr64 Reg.HLT_LIFE_LO_sec Reg.HLT_LIFE_HI_sec
    (s.health.life / 2 ^ 32 + s.rd64 Reg.HLT_LIFE_BASE_LO_sec Reg.HLT_LIFE_BASE_HI_sec)

/-- LIFE_USED_UPDATE (R398): each second, with its highest sensor reading; the count advances in RUN, QUIET
and KEEP and between them. -/
def lifeUsedUpdate (t : Int) (s : State) : State :=
  let s := { s with health := { s.health with seconds := s.health.seconds + 1 } }
  if 2 ≤ s.pstate then
    { s with health := { s.health with life := s.health.life + lifeWeight t } }.showLife
  else s

/-! ### The health record (R400) -/

/-- A count cut to its field's maximum, as bytes. -/
def satBytes (n v : Nat) : List Byte := leBytes n (min v (2 ^ (8 * n) - 1))

/-- One byte for each of n keyed counts. -/
def countBytes (t : Tbl Nat) (base n dflt : Nat) : List Byte :=
  (List.range n).flatMap (fun i => satBytes 1 (t.get dflt (base + i)))

/-- One fault entry. -/
def FaultEntry.bytes (e : FaultEntry) : List Byte :=
  leBytes 8 e.lap ++ leBytes 2 e.cause ++ leBytes 2 e.unit ++ leBytes 4 e.detail

/-- The 256 bytes of a health record. -/
def State.recordBytes (s : State) : List Byte :=
  let h := s.health
  let entries := (h.faults.take 3).flatMap FaultEntry.bytes
  let slack (n : Nat) : Nat := h.slackRec.get (s.rd (Reg.HLT_MARGIN_now n)) n
  leBytes 8 s.lap ++ leBytes 4 h.seq ++ satBytes 4 (s.lap - h.recLap) ++
    leBytes 8 (s.rd64 Reg.HLT_LIFE_LO_sec Reg.HLT_LIFE_HI_sec) ++
    leBytes 2 (s.rd Reg.HLT_TEMP_now) ++ leBytes 2 (BitVec.ofInt 16 h.tempPeakRec).toNat ++
    leBytes 4 (s.reg Reg.HLT_ATTIC_tiles.off).toNat ++
    (List.range 40).flatMap (fun n => satBytes 1 (slack n)) ++
    countBytes h.ceRec 0 36 0 ++ countBytes h.ceRec 128 68 0 ++ countBytes h.ceRec 256 14 0 ++
    satBytes 2 h.ueRec ++ countBytes h.passed 0 4 0 ++ countBytes h.mism 0 4 0 ++
    satBytes 2 h.runnerFaults ++ satBytes 2 h.faultsLost ++ leBytes 4 0 ++
    entries ++ List.replicate (48 - entries.length) 0

/-- A new interval begins. -/
def State.newInterval (s : State) : State :=
  { s with health := { s.health with
      seq := s.health.seq + 1
      recLap := s.lap
      ceRec := []
      ueRec := 0
      slackRec := []
      passed := []
      mism := []
      runnerFaults := 0
      faults := []
      faultsLost := 0
      tempPeakRec := s.rdS Reg.HLT_TEMP_now } }

/-- HEALTH_RECORD (R400): written into the next buffer of the health ring, or lost and counted. -/
def healthRecord (s : State) : State :=
  if !s.on Reg.HLT_CFG_rec_en then s
  else
    let r := s.rd Reg.HLT_CFG_ring
    let bytes := s.recordBytes
    match s.buffer r 8 with
    | none => (s.newInterval.bump Reg.HLT_REC_LOST_count 1).setEvent Reg.HLT_EVENT_ev 8
    | some d => s.newInterval.deliver r d bytes []

/-- RETIRE_TILE (R395). -/
def execRetireTile (tile : Nat) (s : State) : Host.Outcome State Fault Refusal :=
  whenWf (.retireTile tile) (retireTile tile s)

/-- SUBSTITUTE_BANK (R391). -/
def execSubstituteBank (bank : Nat) (cmd : Bool) (s : State) : Host.Outcome State Fault Refusal :=
  whenWf (.substituteBank bank cmd) (substituteBank bank cmd s)

/-- BANK_SUBST_SWITCH (R391). -/
def execBankSubstSwitch (s : State) : Host.Outcome State Fault Refusal :=
  whenWf .bankSubstSwitch (bankSubstSwitch s)

/-- BANK_TEST_DONE (R391). -/
def execBankTestDone (bank : Nat) (pass : Bool) (s : State) : Host.Outcome State Fault Refusal :=
  whenWf (.bankTestDone bank pass) (bankTestDone bank pass s)

/-- FIELD_REPAIR (R392). -/
def execFieldRepair (corrected : Nat) (spareLeft : Bool) (vddFuse : Nat) (s : State) : Host.Outcome State Fault Refusal :=
  whenWf (.fieldRepair corrected spareLeft vddFuse) (fieldRepair corrected spareLeft vddFuse s)

/-- SCRUB_PASS_END (R394). -/
def execScrubPassEnd (s : State) : Host.Outcome State Fault Refusal :=
  whenWf .scrubPassEnd (scrubPassEnd s)

/-- SCRUB_LATE (R394). -/
def execScrubLate (s : State) : Host.Outcome State Fault Refusal :=
  whenWf .scrubLate (scrubLate s)

/-- TEMPERATURE_SAMPLE (R396). -/
def execTemperatureSample (temps : List Int) (s : State) : Host.Outcome State Fault Refusal :=
  whenWf (.temperatureSample temps) (temperatureSample temps s)

/-- MARGIN_LOW (R395). -/
def execMarginLow (monitor slack : Nat) (s : State) : Host.Outcome State Fault Refusal :=
  whenWf (.marginLow monitor slack) (marginLow monitor slack s)

/-- LIFE_USED_UPDATE (R398). -/
def execLifeUsedUpdate (temp : Int) (s : State) : Host.Outcome State Fault Refusal :=
  whenWf (.lifeUsedUpdate temp) (lifeUsedUpdate temp s)

/-- HEALTH_RECORD (R400). -/
def execHealthRecord (s : State) : Host.Outcome State Fault Refusal :=
  whenWf .healthRecord (healthRecord s)

end Sys2Proof.Machine
end

