-- ==== Sys2Proof/Machine/Strips.lean ====
section
/-! DEFINITION. The strips' stages, lap by lap: trim, polarity and sections (chapter 05); dynamics, fader, mute, pan,
sends, cells and meters (chapter 06). -/

namespace Sys2Proof.Machine

/-! ### Front stages (R101 to R110) -/

/-- Samples multiplied by gains. -/
def mulLap (gs xs : List A48) : List A48 := (xs.zip gs).map (fun e => gainA e.2 e.1)

/-- The polarity stage at sample 0 of a lap: the live polarity and the filter crossfade length (R102). -/
def Polarity.begin (p : Polarity) (live : Bool) (lf : Nat) : Polarity :=
  if !p.valid then ⟨live, live, none, true⟩
  else if fadeRuns p.fade || live == p.cur then p
  else if lf = 0 then { p with cur := live, old := live, fade := none }
  else { p with cur := live, old := p.cur, fade := some ⟨lf, 0, false⟩ }

/-- A sign applied to an aligned product. -/
def signed (neg : Bool) (e : Int) : Int := if neg then -e else e

/-- The polarity stage over a lap. -/
def Polarity.run : List A48 → Polarity → List A48 × Polarity
  | [], p => ([], p)
  | x :: xs, p =>
    let y := match p.fade with
      | some f =>
        if f.runs then
          sumA48 [signed p.old (prAA x (gOut false f.len f.pos)), signed p.cur (prAA x (gIn false f.len f.pos))]
        else if p.cur then regNegV .a48 x.toInt else x
      | none => if p.cur then regNegV .a48 x.toInt else x
    let r := Polarity.run xs { p with fade := fadeNext p.fade }
    (y :: r.1, r.2)

/-- section() of R103. -/
def sectionOut (c : Coefs) (x x1 x2 y1 y2 : A48) : A48 :=
  sumA48 [prCA c.b0 x, prCA c.b1 x1, prCA c.b2 x2, -prCA c.a1 y1, -prCA c.a2 y2]

/-- The live coefficients at a base of six parameters, with R104 applied. -/
def State.coefs (s : State) (cls idx base : Nat) : Coefs :=
  if s.code cls idx base = 0 then Coefs.unity
  else ⟨s.par cls idx (base + 1), s.par cls idx (base + 2), s.par cls idx (base + 3), s.par cls idx (base + 4),
    s.par cls idx (base + 5)⟩

/-- The profile of the newest commit that changed one of some parameters. R107 names the commit that made the live set current
and is silent on a coefficient written while en = 0, which leaves that set as it is (R104): such a commit counts too
(DESIGN CHOICE, log entry 66). -/
def State.newestProf (s : State) (ps : List Nat) : Prof :=
  (ps.foldl (fun (a : Chg) p =>
    let c := s.vault.chg.get ⟨0, Prof.cut⟩ p
    if a.gen < c.gen then c else a) ⟨0, Prof.cut⟩).prof

/-- COEFFICIENT_COMPARE (R107). -/
def Section.begin (r : Section) (live : Coefs) (lf : Nat) : Section :=
  let fading := match r.fade with
    | some f => decide (f.i < f.len)
    | none => false
  if !r.valid then { r with cur := live, valid := true }
  else if fading || live = r.cur then r
  else if lf = 0 then { r with cur := live, fade := none }
  else { r with cur := live, fade := some ⟨r.cur, r.y1, r.y2, 0, lf⟩ }

/-- BIQUAD_SECTION (R103, R108): one sample. -/
def Section.step (r : Section) (x : A48) : A48 × Section :=
  let yn := sectionOut r.cur x r.x1 r.x2 r.y1 r.y2
  let next := { r with x2 := r.x1, x1 := x, y2 := r.y1, y1 := yn }
  match r.fade with
  | some f =>
    if f.i < f.len then
      let yo := sectionOut f.old x r.x1 r.x2 f.y1o f.y2o
      (blend false f.len f.i yo yn, { next with fade := some { f with y2o := f.y1o, y1o := yo, i := f.i + 1 } })
    else (yn, next)
  | none => (yn, next)

/-- A section over a lap. -/
def Section.run : List A48 → Section → List A48 × Section
  | [], r => ([], r)
  | x :: xs, r =>
    let a := r.step x
    let b := Section.run xs a.2
    (a.1 :: b.1, b.2)

/-- The six parameters of a section. -/
def sectionPids (cls idx base : Nat) : List Nat := (List.range 6).map (fun k => pid cls idx (base + k))

/-- The sections of a strip in order, `n` of them from section k on. -/
def State.runSections (s : State) (cls idx : Nat) (secs : List Section) :
    Nat → Nat → List A48 → List A48 × List Section
  | 0, _, x => (x, [])
  | n + 1, k, x =>
    let base := 0x10 + 8 * k
    let r := ((secs.getD k Section.cold).begin (s.coefs cls idx base)
      (s.newestProf (sectionPids cls idx base)).filt).run x
    let q := s.runSections cls idx secs n (k + 1) r.1
    (q.1, r.2 :: q.2)

/-! ### Dynamics (R118 to R122) -/

/-- The parameters of a dynamics unit in one lap. -/
structure DynPar where
  unit : Nat
  mode : Nat
  thresh : D32
  slope : C48
  knee : D32
  range : D32
  hyst : D32
  hold : Nat
  attack : C48
  release : C48
  makeup : D32
  rms : Bool
  beta : C48
  key : Coefs
  deriving DecidableEq, Repr

/-- The live parameters of a unit (R115): D3 has slope 1.0, knee 0, attack 1.0 and the peak detector on its own
input. -/
def State.dynPar (s : State) (cls idx unit : Nat) : DynPar :=
  let b := 0x1E0 + 0x20 * unit
  { unit := unit
    mode := s.code cls idx b
    thresh := s.lev cls idx (b + 1)
    slope := if unit = 3 then c48One else s.par cls idx (b + 2)
    knee := if unit = 2 then s.lev cls idx (b + 3) else 0
    range := if unit = 1 then s.lev cls idx (b + 4) else 0
    hyst := if unit = 1 then s.lev cls idx (b + 5) else 0
    hold := if unit = 1 then s.code cls idx (b + 6) else 0
    attack := if unit = 3 then c48One else s.par cls idx (b + 7)
    release := s.par cls idx (b + 8)
    makeup := if unit = 2 then s.lev cls idx (b + 9) else 0
    rms := unit != 3 && s.code cls idx (b + 0xA) == 1
    beta := if unit = 3 then 0 else s.par cls idx (b + 0xB)
    key := if unit = 3 then Coefs.unity else s.coefs cls idx (b + 0x10) }

/-- An aligned D32 code. -/
def alD (d : D32) : Int := d.toInt * 2 ^ 59

/-- shr of a level by one. -/
def dHalf (d : D32) : D32 := (regShrV .d32 d.toInt 1).setWidth 32

/-- neg of a level. -/
def dNeg (d : D32) : D32 := (regNegV .d32 d.toInt).setWidth 32

/-- A one-pole step of a value: ld, then mac of the difference by a coefficient. -/
def poleA (y x : A48) (c : C48) : A48 := sumA48 [alA y, prCA c (regSubV .a48 x.toInt y.toInt)]

/-- DYNAMICS_LEVEL (R118). -/
def Dyn.level (u : Dyn) (p : DynPar) (x : A48) : D32 × Dyn :=
  let k := if p.unit = 3 then x else sectionOut p.key x u.kx1 u.kx2 u.ky1 u.ky2
  let u := if p.unit = 3 then u else { u with kx2 := u.kx1, kx1 := x, ky2 := u.ky1, ky1 := k }
  if p.rms then
    let ms := poleA u.ms (gainA k k) p.beta
    (dHalf (lin2dbV ms), { u with ms := ms })
  else (lin2dbV k, u)

/-- D1_GAIN (R119). -/
def Dyn.gateGain (u : Dyn) (p : DynPar) (l : D32) : D32 × Dyn :=
  if p.mode = 0 then (0, u)
  else if p.mode = 1 then
    let under := dSub p.thresh l
    if under.toInt ≤ 0 then (0, u) else (dMax p.range (sumD32 [-prDC under p.slope]), u)
  else
    let u :=
      if u.gate then
        if l.toInt < (dSub p.thresh p.hyst).toInt then
          if 0 < u.hc then { u with hc := u.hc - 1 } else { u with gate := false }
        else { u with hc := p.hold }
      else if p.thresh.toInt ≤ l.toInt then { u with gate := true, hc := p.hold }
      else u
    (if u.gate then 0 else p.range, u)

/-- COMPRESSOR_GAIN (R120). -/
def compGain (p : DynPar) (l : D32) : D32 :=
  if p.mode = 0 then 0
  else
    let ovr := dSub l p.thresh
    let h := dHalf p.knee
    if ovr.toInt ≤ (dNeg h).toInt then 0
    else if h.toInt ≤ ovr.toInt then sumD32 [-prDC ovr p.slope]
    else dHalf (sumD32 [-prDC (dAdd ovr h) p.slope])

/-- GAIN_SMOOTHING (R121). -/
def smoothGain (p : DynPar) (gs gr : D32) : D32 :=
  let attack := if p.unit = 1 then decide (gs.toInt < gr.toInt) else decide (gr.toInt < gs.toInt)
  let c := if attack then p.attack else p.release
  let y := sumD32 [alD gs, prDC (dSub gr gs) c]
  if p.mode = 0 ∧ (0xFFFF0000#32).toInt < y.toInt then 0 else y

/-- One sample of a unit: the sample with its gain applied (R122). -/
def Dyn.step (u : Dyn) (p : DynPar) (x : A48) : A48 × Dyn :=
  let l := u.level p x
  let g := if p.unit = 1 then l.2.gateGain p l.1 else (compGain p l.1, l.2)
  let gs := smoothGain p g.2.gs g.1
  (gainA (db2linV (if p.unit = 2 then dAdd gs p.makeup else gs)) x, { g.2 with gs := gs })

/-- A unit over a lap. -/
def Dyn.run (p : DynPar) : List A48 → Dyn → List A48 × Dyn
  | [], u => ([], u)
  | x :: xs, u =>
    let a := u.step p x
    let b := Dyn.run p xs a.2
    (a.1 :: b.1, b.2)

/-! ### Fader and mute (R123) -/

/-- The mute at sample 0 of a lap. -/
def Mute.begin (m : Mute) (live : Bool) (lg : Nat) : Mute :=
  if !m.valid then { m with use := live, valid := true }
  else if m.fade.isSome then m
  else if m.searching then (if live = m.use then { m with searching := false } else m)
  else if live = m.use then m
  else if lg = 0 then { m with use := live }
  else { m with searching := true, c := 0, want := live }

/-- A search meets its timeout. -/
def Mute.timeout (m : Mute) : Mute := { m with fade := some 0, searching := false }

/-- One sample of the fader and mute stage: T is the last search sample, g the fader's gain. -/
def Mute.step (T : Nat) (m : Mute) (g y2 : A48) : A48 × Mute :=
  let m := if m.searching then
      if y2 = 0 ∨ sgn y2 ≠ sgn m.yPrev then { m with use := m.want, searching := false }
      else if m.c = T then m.timeout
      else { m with c := m.c + 1 }
    else m
  let t := gainA g y2
  match m.fade with
  | none => (if m.use then 0 else t, { m with yPrev := y2 })
  | some i =>
    let mg := if m.want then gOut false 32 i else gIn false 32 i
    let y := if mg = a48One then t else if mg = 0 then 0 else gainA mg t
    let m := if i + 1 < 32 then { m with fade := some (i + 1) } else { m with fade := none, use := m.want }
    (y, { m with yPrev := y2 })

/-- The stage over a lap: fader gains and samples in pairs. -/
def Mute.run (T : Nat) : List (A48 × A48) → Mute → List A48 × Mute
  | [], m => ([], m)
  | (g, y) :: t, m =>
    let a := m.step T g y
    let b := Mute.run T t a.2
    (a.1 :: b.1, b.2)

/-! ### Meters (R128, R130) -/

/-- One sample of the mean square and of the lap's peak and clip. -/
def meterStep (beta : C48) (a : A48 × A48 × Bool) (e : A48 × A48) : A48 × A48 × Bool :=
  let ax := regAbsV .a48 e.1.toInt
  (if a.1.toInt < ax.toInt then ax else a.1, poleA a.2.1 (gainA e.1 e.1) beta,
    a.2.2 || decide (2 ^ 39 ≤ e.2.toInt) || decide (e.2.toInt < -(2 ^ 39)))

/-- METER_UPDATE (R128): the meter point and the output in pairs. -/
def Meter.run (m : Meter) (decay : D32) (beta : C48) (l : List (A48 × A48)) : Meter :=
  let r := l.foldl (meterStep beta) (0, m.msm, false)
  let top := lin2dbV r.1
  { pk := if m.valid then dMax top (dSub m.pk decay) else top
    rms := dHalf (lin2dbV r.2.1)
    msm := r.2.1
    clipLaps := (m.clipLaps + b2n r.2.2) % 65536
    valid := true }

/-! ### Pan, sends and cells (R124, R125) -/

/-- PAN_GAINS (R124): left and right. -/
def panGains (law p : Nat) : A48 × A48 :=
  match law with
  | 0 => (BitVec.ofInt 48 (fxRound (fxCosTurn p 1024) 39), BitVec.ofInt 48 (fxRound (fxSinTurn p 1024) 39))
  | 1 => (BitVec.ofNat 48 ((256 - p) * 2 ^ 31), BitVec.ofNat 48 (p * 2 ^ 31))
  | _ => (BitVec.ofNat 48 (min (2 ^ 39) ((256 - p) * 2 ^ 32)), BitVec.ofNat 48 (min (2 ^ 39) (p * 2 ^ 32)))

/-- lin2db of a pan gain, rounded to a multiple of 2^-14 dB. -/
def panDb (g : A48) : D32 :=
  let a := (regShrV .d32 (lin2dbV g).toInt 10).setWidth 32
  (regShlV .d32 (a : D32).toInt 10).setWidth 32

/-- The lowest finite level of a slew. -/
def slewFloor : D32 := 0x80000400#32

/-- SEND_SLEW (R125) of one lap: the level the lap ends at, and the send from its first sample on. -/
def Send.begin (d : Send) (lev : D32) (pt lg : Nat) (slew : D32) : D32 × Send :=
  if d.pUse = 0 ∨ lg = 0 then (lev, ⟨lev, pt⟩)
  else
    let tgt := if pt = d.pUse then lev else d32NegInf
    let u1 := if d.u = d32NegInf then slewFloor else d.u
    let t1 := if tgt = d32NegInf then slewFloor else tgt
    let e := dAdd u1 (dMax (dNeg slew) (dMin slew (dSub t1 u1)))
    (if tgt = d32NegInf ∧ e = slewFloor then d32NegInf else e, d)

/-- The gains of a lap from level u to level e. -/
def slewGains (n : Nat) (u e : D32) : List A48 :=
  let gs := (db2linV u).toInt
  let ge := (db2linV e).toInt
  (List.range n).map (fun (j : Nat) => BitVec.ofInt 48 (gs + (ge - gs) * ((j : Int) + 1) / n))

/-- A send at the end of a lap. -/
def Send.finish (d : Send) (e : D32) (pt : Nat) : Send :=
  if e = d32NegInf ∧ pt ≠ d.pUse then ⟨e, pt⟩ else { d with u := e }

/-- One send or cell over a lap: its in-use point, its gains and the send after it. -/
def Send.run (n : Nat) (d : Send) (lev : D32) (pt lg : Nat) (slew : D32) : Nat × List A48 × Send :=
  let b := d.begin lev pt lg slew
  (b.2.pUse, slewGains n b.2.u b.1, b.2.finish b.1 pt)

/-- The live level and point of a send, and the gain ramp length of the newest commit that changed an input of
R125. -/
def State.sendLive (s : State) (o b : Nat) : D32 × Nat × Nat :=
  let even := b / 2 * 2
  let linked := s.code 2 even 0x1F0 = 1
  let q := if linked then even else b
  let lev := s.lev 6 o q
  let lg := (s.newestProf [pid 6 o q, pid 6 o (0x100 + q), pid 1 o 0x103, pid 1 o 0x104, pid 2 even 0x1F0]).gain
  if linked then
    let g := panGains (s.code 1 o 0x104) (s.code 1 o 0x103)
    (dAdd lev (panDb (if b % 2 = 0 then g.1 else g.2)), s.code 6 o (0x100 + q), lg)
  else (lev, s.code 6 o (0x100 + q), lg)

/-- Buses whose send from a strip may differ from the default: those with a parameter of their own, both buses of a
linked pair, and those with a state of their own. -/
def State.sendBuses (s : State) (o : Nat) (t : Tbl Send) : List Nat :=
  let own := (s.vault.pids (fun p => pidClass p == 6 && pidIndex p == o && decide (pidNum p < 0x200))).map
    (fun p => pidNum p % 256)
  let pairs := own.flatMap (fun b => if s.code 2 (b / 2 * 2) 0x1F0 = 1 then [b / 2 * 2, b / 2 * 2 + 1] else [b])
  let all := (pairs ++ t.map (·.1)).eraseDups
  (List.range s.nBus).filter (fun b => all.contains b)

/-- A send or a cell that nothing has written: cold before the first lap, then at −∞ on its default point. -/
def sendAt (warm : Bool) (pt b : Nat) (t : Tbl Send) : Send := t.get (if warm then ⟨d32NegInf, pt⟩ else Send.cold) b

/-- The sends of a strip over a lap: for each bus the in-use point and gains, and the table after the lap. -/
def State.runSends (s : State) (o : Nat) (warm : Bool) (t : Tbl Send) : List (Nat × Nat × List A48) × Tbl Send :=
  let slew := s.lev 1 o 0x106
  (s.sendBuses o t).foldl (fun a b =>
    let l := s.sendLive o b
    let r := (sendAt warm 3 b t).run s.nLap l.1 l.2.1 l.2.2 slew
    (a.1 ++ [(b, r.1, r.2.1)], a.2.insert b r.2.2)) ([], t)

/-- Cells of a matrix output that may differ from the default. -/
def State.cellBuses (s : State) (m : Nat) (t : Tbl Send) : List Nat :=
  let own := (s.vault.pids (fun p => pidClass p == 3 && pidIndex p == m && decide (0x400 ≤ pidNum p) &&
    decide (pidNum p < 0x500))).map (fun p => pidNum p - 0x400)
  let all := own ++ t.map (·.1)
  (List.range s.nBus).filter (fun b => all.contains b)

/-- The cells of a matrix output over a lap (R127): for each bus its gains, and the table after the lap. -/
def State.runCells (s : State) (m : Nat) (warm : Bool) (t : Tbl Send) : List (Nat × List A48) × Tbl Send :=
  let slew := s.lev 3 m 0x106
  (s.cellBuses m t).foldl (fun a b =>
    let p := pid 3 m (0x400 + b)
    let r := (sendAt warm 1 b t).run s.nLap (s.lev 3 m (0x400 + b)) 1 (s.profOf p).gain slew
    (a.1 ++ [(b, r.2.1)], a.2.insert b r.2.2)) ([], t)

/-- MATRIX_SUM (R127): the value that enters a matrix output strip, with its cells after the lap. -/
def State.matrixSum (s : State) (m : Nat) (warm : Bool) (t : Tbl Send) : List A48 × Tbl Send :=
  let r := s.runCells m warm t
  ((List.range s.nLap).map (fun j =>
    sumA48 (r.1.map (fun e => prAA ((s.audio.busOut.get s.zeroLap e.1).getD j 0) (e.2.getD j 0)))), r.2)

/-! ### A strip (R94, R112) -/

/-- A strip after a lap: its state and the values of its three points. -/
structure StripRun where
  st : Strip
  p1 : List A48
  p2 : List A48
  p3 : List A48
  deriving DecidableEq, Repr

/-- One lap of a strip's stages from the value that enters them after the delay; its sends and cells are left. -/
def State.runStrip (s : State) (o : Nat) (st : Strip) (x : List A48) : StripRun :=
  let c := placeClass o
  let i := placeIndex o
  let ob := pid c i 0
  let trim := s.smooth st.trim ob (pid c i 0)
  let pol := (st.pol.begin (s.code c i 1 == 1) (s.profOf (pid c i 1)).filt).run (mulLap trim.1 x)
  let sec := s.runSections c i st.secs (if c = 3 then 3 else 10) 0 pol.1
  let d1 := if c = 3 then (sec.1, st.d1) else Dyn.run (s.dynPar c i 1) sec.1 st.d1
  let d2 := if c = 3 then (d1.1, st.d2) else Dyn.run (s.dynPar c i 2) d1.1 st.d2
  let fader := s.smooth st.fader ob (pid c i 0x100)
  let mute := (st.mute.begin (s.code c i 0x101 == 1) (s.profOf (pid c i 0x101)).gain).run
    (s.msSamples (s.code c i 0x102)) (fader.1.zip d2.1)
  let d3 := if c = 2 then Dyn.run (s.dynPar c i 3) mute.1 st.d3 else (mute.1, st.d3)
  let pt := if c = 3 then 3 else s.code c i 0x108
  let xm := if pt = 1 then sec.1 else if pt = 2 then d2.1 else d3.1
  let meter := st.meter.run (s.lev c i 0x109) (s.par c i 0x10A) (xm.zip d3.1)
  ⟨{ st with
      trim := trim.2, pol := pol.2, secs := sec.2, d1 := d1.2, d2 := d2.2, d3 := d3.2, fader := fader.2,
      mute := mute.2, meter := meter }, sec.1, d2.1, d3.1⟩

/-- The value of a point. -/
def StripRun.point (r : StripRun) (n : Nat) : List A48 := if n = 1 then r.p1 else if n = 2 then r.p2 else r.p3

/-- An object's ramp after a lap; it waits while the object is muted. -/
def State.rampStepObj (s : State) (o : Nat) : State :=
  match s.tile.ramp.get none o with
  | none => s
  | some r => if s.objMuted o then s else { s with tile := { s.tile with ramp := s.tile.ramp.insert o (some { r with pos := r.pos + s.nLap }) } }

/-- What a strip sends in a lap, into a table of sums. The ramp gain of R67 acts on the value of the point, and the send's
gain on the product, with a rounding between: the rule says only that each contribution is multiplied before it is
accumulated (DESIGN CHOICE, log entry 18). -/
def addSends (r : StripRun) (ramp : Option Ramp) (sends : List (Nat × Nat × List A48)) (t : Partials) : Partials :=
  sends.foldl (fun t e =>
    let xs := rampLap ramp (r.point e.2.1)
    ((xs.zip e.2.2).zipIdx).foldl (fun (t : Partials) f =>
      let k := e.1 * 8 + f.2
      t.put 0 k (t.get 0 k + prAA f.1.1 f.1.2)) t) t

/-- Stores a strip's state of the lap in the write bank. -/
def State.putStrip (s : State) (o : Nat) (st : Strip) : State :=
  { s with audio := { s.audio with stripsW := s.audio.stripsW.insert o st } }

/-- Puts an object's output of the lap. -/
def State.putOut (s : State) (code : Nat) (vs : List A48) : State :=
  { s with audio := { s.audio with outv := s.audio.outv.insert code vs } }

/-- Puts what a strip sent in the lap. -/
def State.putSends (s : State) (o : Nat) (t : Partials) : State :=
  { s with audio := { s.audio with sendW := s.audio.sendW.insert o t } }

/-- The lap of a placed strip: its outputs, its state and what it sends. -/
def State.placedStrip (s : State) (o : Nat) : State :=
  if s.objFrozen o then
    let s := s.zeroOut o
    if fadeRuns (s.dirPt o).fade && decide (o < 1024) then s.setDirPt o ((s.dirPt o).pass s.nLap) else s
  else if s.audio.stripsW.has o then s.zeroOut o
  else
    let c := placeClass o
    let i := placeIndex o
    let st := s.audio.strips.get Strip.cold o
    let warm := st.meter.valid
    let ramp := s.tile.ramp.get none o
    let mute (l : List A48) : List A48 := if s.objMuted o then s.zeroLap else l
    if c = 1 then
      let r := s.runStrip o st (s.audio.xin.get s.zeroLap o)
      let sends := s.runSends i warm st.sends
      let dir := (s.dirPt i).lap (fun v => rampLap ramp (r.point v.src))
      let s' := (s.putStrip o { r.st with sends := sends.2 }).putOut (outCode o) (mute dir.1)
      let s' := if fadeRuns (s.dirPt i).fade then s'.setDirPt i dir.2 else s'
      (s'.putSends o (if s.objMuted o then [] else addSends r ramp sends.1 [])).rampStepObj o
    else if c = 2 then
      let r := s.runStrip o st (s.audio.xin.get s.zeroLap o)
      ((s.putStrip o r.st).putOut (outCode o) (mute (rampLap ramp r.p3))).rampStepObj o
    else
      let sum := if s.layout.mtxHead = 1 then (s.audio.xin.get s.zeroLap o, s.audio.cellW.get st.sends o) else s.matrixSum i warm st.sends
      let r := s.runStrip o st sum.1
      ((s.putStrip o { r.st with sends := sum.2 }).putOut (outCode o) (mute (rampLap ramp r.p3))).rampStepObj o

/-! ### The ends that a stage reports (R102, R109, R119, R123) -/

/-- Changes a strip's state where it is held: in the write bank once its lap has run, else in the read bank. -/
def State.onStrip (s : State) (o : Nat) (f : Strip → Strip) : State :=
  if s.audio.stripsW.has o then
    { s with audio := { s.audio with stripsW := s.audio.stripsW.insert o (f (s.audio.stripsW.get Strip.cold o)) } }
  else if s.audio.strips.has o then
    { s with audio := { s.audio with strips := s.audio.strips.insert o (f (s.audio.strips.get Strip.cold o)) } }
  else s

/-- POLARITY_FADE_END (R102). -/
def Strip.polarityEnd (x : Strip) : Strip :=
  if x.pol.fade.isSome && !fadeRuns x.pol.fade then { x with pol := { x.pol with fade := none, old := x.pol.cur } } else x

/-- SECTION_FADE_END (R109). -/
def Strip.sectionEnd (k : Nat) (x : Strip) : Strip :=
  let r := x.secs.getD k Section.cold
  match r.fade with
  | some f => if f.i < f.len then x else { x with secs := x.secs.set k { r with fade := none } }
  | none => x

/-- GATE_HOLD_EXPIRE (R119): a level below the threshold less the hysteresis meets an open gate whose hold has run
out: the gate closes. -/
def Strip.gateExpire (p : DynPar) (level : D32) (x : Strip) : Strip :=
  if p.mode ≠ 0 ∧ p.mode ≠ 1 ∧ x.d1.gate ∧ x.d1.hc = 0 ∧ level.toInt < (dSub p.thresh p.hyst).toInt
  then { x with d1 := { x.d1 with gate := false } } else x

/-- MUTE_TIMEOUT (R123): search sample T brings no crossing. -/
def Strip.muteTimeout (T : Nat) (y2 : A48) (x : Strip) : Strip :=
  if x.mute.searching ∧ x.mute.c = T ∧ y2 ≠ 0 ∧ sgn y2 = sgn x.mute.yPrev then { x with mute := x.mute.timeout } else x

/-- POLARITY_FADE_END (R102). -/
def execPolarityFadeEnd (obj : Nat) (s : State) : Host.Outcome State Fault Refusal :=
  whenWf (.polarityFadeEnd obj) (s.onStrip obj Strip.polarityEnd)

/-- SECTION_FADE_END (R109). -/
def execSectionFadeEnd (obj sec : Nat) (s : State) : Host.Outcome State Fault Refusal :=
  whenWf (.sectionFadeEnd obj sec) (s.onStrip obj (Strip.sectionEnd sec))

/-- GATE_HOLD_EXPIRE (R119). -/
def execGateHoldExpire (obj : Nat) (level : D32) (s : State) : Host.Outcome State Fault Refusal :=
  whenWf (.gateHoldExpire obj level)
    (s.onStrip obj (Strip.gateExpire (s.dynPar (placeClass obj) (placeIndex obj) 1) level))

/-- MUTE_TIMEOUT (R123). -/
def execMuteTimeout (obj : Nat) (sample : A48) (s : State) : Host.Outcome State Fault Refusal :=
  whenWf (.muteTimeout obj sample)
    (s.onStrip obj (Strip.muteTimeout (s.msSamples (s.code (placeClass obj) (placeIndex obj) 0x102)) sample))

end Sys2Proof.Machine
end

