-- ==== Sys2Proof/Machine/Racks.lean ====
section
/-! DEFINITION. The racks (R132 to R143) and the placed processing of a tile (R51, R56, R126). -/

namespace Sys2Proof.Machine

/-! ### The transform (R138) -/

/-- A complex value: real and imaginary part. -/
abbrev Cplx := A48 × A48

/-- The C48 twiddle factors of bin k of n, with the sign of the transform. -/
def twiddle (neg : Bool) (n k : Nat) : C48 × C48 :=
  let w := fxRound (fxSinTurn k n) 44
  (BitVec.ofInt 48 (fxRound (fxCosTurn k n) 44), BitVec.ofInt 48 (if neg then -w else w))

/-- One butterfly: the outputs at p and at q. -/
def butterfly (c : C48) (w : C48 × C48) (p q : Cplx) : Cplx × Cplx :=
  let tr := sumA48 [prCA w.1 q.1, -prCA w.2 q.2]
  let ti := sumA48 [prCA w.2 q.1, prCA w.1 q.2]
  ((sumA48 [prCA c p.1, prCA c tr], sumA48 [prCA c p.2, prCA c ti]),
   (sumA48 [prCA c p.1, -prCA c tr], sumA48 [prCA c p.2, -prCA c ti]))

/-- A stage of half-length h over the groups of an array of n values. -/
def fftStage (neg : Bool) (c : C48) (n h : Nat) : Nat → List Cplx → List Cplx
  | 0, _ => []
  | g + 1, z =>
    let r := (((z.take h).zip ((z.drop h).take h)).zipIdx).map (fun e =>
      butterfly c (twiddle neg n (e.2 * (n / (2 * h)))) e.1.1 e.1.2)
    r.map (·.1) ++ r.map (·.2) ++ fftStage neg c n h g (z.drop (2 * h))

/-- The stages from half-length h up. -/
def fftStages (neg : Bool) (c : C48) (n : Nat) : Nat → Nat → List Cplx → List Cplx
  | 0, _, z => z
  | m + 1, h, z => fftStages neg c n m (2 * h) (fftStage neg c n h (n / (2 * h)) z)

/-- The transform of 2^m values. -/
def fft (neg : Bool) (c : C48) (m : Nat) (z : List Cplx) : List Cplx :=
  fftStages neg c (2 ^ m) m 1 ((List.range (2 ^ m)).map (fun i => z.getD (bitRev m i) (0, 0)))

/-- forward(): DFT / N. -/
def fftForward (m : Nat) (z : List Cplx) : List Cplx := fft true 0x080000000000#48 m z

/-- inverse(). -/
def fftInverse (m : Nat) (z : List Cplx) : List Cplx := fft false c48One m z

/-! ### Partitioned convolution (R136, R137, R139, R140) -/

/-- The cellar address of a bin of a region: region 0 and 1 the table pages, 2 the history (R136). -/
def State.binAddr (s : State) (r bp n region p k : Nat) : Option Nat :=
  (s.allocOf 2 r).map (fun a => a.first * 4096 + region * 32 * bp + 16 * (p * n + k))

/-- A bin as the cellar holds it. -/
def State.binGet (s : State) (r bp n region p k : Nat) : Cplx :=
  match s.binAddr r bp n region p k with
  | none => (0, 0)
  | some a => (BitVec.ofNat 48 (ofLe (s.cellarGet a 6)), BitVec.ofNat 48 (ofLe (s.cellarGet (a + 8) 6)))

/-- Stores a block's spectrum as a history entry. -/
def State.storeSpectrum (s : State) (r bp n p : Nat) (z : List Cplx) : State :=
  match s.binAddr r bp n 2 p 0 with
  | none => s
  | some a => s.cellarPut a (z.flatMap (fun c => leBytes 8 (c.1.signExtend 64).toNat ++ leBytes 8 (c.2.signExtend 64).toNat))

/-- The output of block i with a table page: spectral sum, inverse transform, scaling (R139). -/
def State.convBlock (s : State) (r b parts page i : Nat) : List A48 :=
  let bl := 2 ^ b
  let n := 2 * bl
  let bp := bl * parts
  let ys := (List.range n).map (fun k =>
    let prods := (List.range parts).map (fun p =>
      (s.binGet r bp n 2 ((i + parts - p % parts) % parts) k, s.binGet r bp n page p k))
    (sumA48 (prods.flatMap (fun e => [prAA e.1.1 e.2.1, -prAA e.1.2 e.2.2])),
     sumA48 (prods.flatMap (fun e => [prAA e.1.1 e.2.2, prAA e.1.2 e.2.1]))))
  let v := fftInverse (b + 1) ys
  let e := s.code 7 r 3
  (List.range bl).map (fun q =>
    let y := (v.getD (bl + q) (0, 0)).1
    if e = 0 then y else regShlV .a48 y.toInt e)

/-- A page fade runs at the start of a block's computation: returns of it are still to come. Of those computed, the block
computed last returns only now. -/
def Rack.pageFades (x : Rack) (bl : Nat) : Bool :=
  match x.fade with
  | none => false
  | some f => decide (f.pos < f.len + bl)

/-- TABLE_PAGE_COMPARE (R140). The first block after a cold start takes the live page without a fade: the rule does not say
which page is in use then (DESIGN CHOICE, log entry 60). -/
def Rack.takePage (x : Rack) (bl live lf : Nat) : Rack :=
  if x.pageFades bl then x
  else if live = x.page ∨ x.blocks = 0 ∨ lf = 0 then { x with page := live, pageOld := live, fade := none }
  else { x with page := live, pageOld := x.page, fade := some ⟨lf, 0, false⟩ }

/-- The returns of a block with a running page fade, and the fade after them (R89, R140). -/
def blendPage (f : Fade) (old new : List A48) : List A48 × Fade :=
  (((old.zip new).zipIdx).map (fun e =>
    if f.pos + e.2 < f.len then blend false f.len (f.pos + e.2) e.1.1 e.1.2 else e.1.2), { f with pos := f.pos + new.length })

/-- CONVOLUTION_BLOCK (R139, R140): at the start of block i + 1 the rack takes block i from its history. -/
def State.convStart (s : State) (r b parts i : Nat) (x : Rack) : State × Rack :=
  let bl := 2 ^ b
  let ret := x.ret ++ List.replicate (bl - x.ret.length) 0
  if x.hist.isEmpty then (s, { (x.takePage bl (s.code 7 r 4) 0) with ret := ret ++ List.replicate bl 0 })
  else
    let x := x.takePage bl (s.code 7 r 4) (s.profOf (pid 7 r 4)).filt
    let u : List Cplx := (List.range (2 * bl)).map (fun t => (x.hist.getD (2 * bl - 1 - t) 0, (0 : A48)))
    let s := s.storeSpectrum r (bl * parts) (2 * bl) (i % parts) (fftForward (b + 1) u)
    let new := s.convBlock r b parts x.page i
    let out := match x.fade with
      | none => (new, none)
      | some f =>
        let old := if f.runs then s.convBlock r b parts x.pageOld i else new
        let y := blendPage f old new
        (y.1, some y.2)
    (s, { x with ret := ret ++ out.1, fade := out.2, blocks := x.blocks + 1 })

/-- The samples of a lap through the convolution: returns out, inputs in. -/
def convLap (cap : Nat) : List A48 → Rack → List A48 × Rack
  | [], x => ([], x)
  | v :: vs, x =>
    let r := convLap cap vs { x with hist := (v :: x.hist).take cap, ret := x.ret.drop 1, retAt := x.retAt + 1 }
    (x.ret.headD 0 :: r.1, r.2)

/-- Samples that the rack did not run, after a takeover (R63): their inputs are skipped, which counts as silence (DEDUCED,
log entry 60), and their returns are past. Those that follow keep their counts (R137, R143). -/
def Rack.skip (cap n : Nat) (x : Rack) : Rack :=
  { x with hist := (List.replicate (min n cap) 0 ++ x.hist).take cap, ret := x.ret.drop n, retAt := x.retAt + n }

/-- The media sample count of sample 0 of the lap that a rack processes: it runs in its column (R84, R137). -/
def State.rackCount (s : State) (r : Nat) : Nat := (s.lap - 1 - s.elemPos (pid 7 r 0)) * s.nLap

/-- A lap of a convolution rack. -/
def State.convRun (s : State) (r : Nat) (x : Rack) (vs : List A48) : State × Rack × List A48 :=
  let b := s.code 7 r 1
  let m := s.rackCount r
  let cap := 2 * 2 ^ b
  let first := m / 2 ^ b * 2 ^ b
  let x := if x.hist.isEmpty then { x with retAt := m } else x
  let q := if x.retAt ≤ first ∧ 0 < first then
      s.convStart r b (s.code 7 r 2) (m / 2 ^ b - 1) (if x.retAt < first then x.skip cap (first - x.retAt) else x)
    else (s, x)
  let z := if q.2.retAt < m then q.2.skip cap (m - q.2.retAt) else q.2
  let y := convLap cap vs z
  (q.1, y.2, y.1)

/-! ### Linear-phase FIR (R141) -/

/-- One output of a tap set over a history, newest first. -/
def firSum (taps : List C48) (h : List A48) : A48 := sumA48 ((taps.zip h).map (fun e => prCA e.1 e.2))

/-- FIR_SAMPLE (R141). -/
def firLap (n : Nat) : List A48 → Rack → List A48 × Rack
  | [], x => ([], x)
  | v :: vs, x =>
    let h := (v :: x.hist).take n
    let y := firSum x.taps h
    let r := match x.fade with
      | some f =>
        if f.runs then (blend f.power f.len f.pos (firSum x.tapsOld h) y, { x with hist := h, fade := fadeNext x.fade })
        else (y, { x with hist := h, fade := none })
      | none => (y, { x with hist := h })
    let q := firLap n vs r.2
    (r.1 :: q.1, q.2)

/-- The tap set at sample 0 of a lap (R106 to R109, R141). -/
def Rack.takeTaps (x : Rack) (live : List C48) (lf : Nat) : Rack :=
  if !x.valid then { x with taps := live, valid := true }
  else if fadeRuns x.fade || live == x.taps then x
  else if lf = 0 then { x with taps := live, fade := none }
  else { x with taps := live, tapsOld := x.taps, fade := some ⟨lf, 0, false⟩ }

/-- A lap of a FIR rack. -/
def State.firRun (s : State) (r : Nat) (x : Rack) (vs : List A48) : Rack × List A48 :=
  let n := 16 * s.code 7 r 1
  let live := (List.range n).map (fun k => s.par 7 r (0x100 + k))
  let lf := (s.newestProf ((List.range n).map (fun k => pid 7 r (0x100 + k)))).filt
  let y := firLap n vs (x.takeTaps live lf)
  (y.2, y.1)

/-! ### Multi-tap delay (R142) -/

/-- The values of one tap for the running lap, read and blended in the exchange window (R100, R142). -/
def State.tapLap (s : State) (r t : Nat) : List A48 × State :=
  let key := 8 * (1344 + r) + t
  let u := s.audio.delay.get DelayU.reset key
  let m := s.lap * s.nLap
  let new := s.lineBack 2 r m s.nLap u.cur
  if fadeRuns u.fade then
    let f := fadeLap u.fade ((s.lineBack 2 r m s.nLap u.old).zip new)
    (f.1, s.setDelay key { u with fade := f.2 })
  else (new, s)

/-- A placed multi-tap delay in the exchange window: the last lap's line values are written, then every tap is
read. -/
def State.tapWindow (s : State) (r : Nat) : State :=
  let o := 1344 + r
  let s := s.lineLap 2 r ((s.lap - 1) * s.nLap) (s.audio.rackLine.get [] o)
  (List.range (s.code 7 r 1)).foldl (fun s t =>
    let y := s.tapLap r t
    { y.2 with audio := { y.2.audio with rackTap := y.2.audio.rackTap.insert (8 * o + t) y.1 } }) s

/-- MULTITAP_SAMPLE (R142): a lap of a multi-tap delay: its state, its returns and its line values. -/
def State.tapRun (s : State) (r : Nat) (x : Rack) (vs : List A48) : Rack × List A48 × List A48 :=
  let ob := pid 7 r 0
  let n := s.code 7 r 1
  let dry := s.smooth x.dry ob (pid 7 r 0x10)
  let fb := s.smooth x.fb ob (pid 7 r 0x11)
  let lv := (List.range n).map (fun t => s.smooth (x.lvl.getD t Smoother.cold) ob (pid 7 r (0x21 + 2 * t)))
  let tap (t j : Nat) : A48 := (s.audio.rackTap.get s.zeroLap (8 * (1344 + r) + t)).getD j 0
  let ys := (vs.zipIdx).map (fun e =>
    sumA48 (prAA e.1 (dry.1.getD e.2 0) :: (lv.zipIdx).map (fun l => prAA (tap l.2 e.2) (l.1.1.getD e.2 0))))
  let ls := (vs.zipIdx).map (fun e => sumA48 [alA e.1, prAA (tap 0 e.2) (fb.1.getD e.2 0)])
  ({ x with dry := dry.2, fb := fb.2, lvl := lv.map (·.2), valid := true }, ys, ls)

/-! ### A placed rack -/

/-- Puts a rack's state, its returns and its line values of the lap. -/
def State.putRack (s : State) (o : Nat) (x : Rack) (ys ls : List A48) : State :=
  let s := { s with audio := { s.audio with
    racksW := s.audio.racksW.insert o x, rackLine := s.audio.rackLine.insert o ls } }
  let out := if s.objMuted o then s.zeroLap else rampLap (s.tile.ramp.get none o) ys
  { s with audio := { s.audio with rackOut := s.audio.rackOut.insert o out } }.rampStepObj o

/-- The lap of a placed rack (R132, R143): it runs on what entered its insert point, or on silence. R135 checks the loft's shape
at placement and does not say when it becomes the one that runs: the live page's shape runs, which a commit's exchange changes
(DESIGN CHOICE, log entry 66). -/
def State.placedRack (s : State) (o : Nat) : State :=
  let r := o - 1344
  if s.objFrozen o then s.zeroOut o
  else if s.audio.racksW.has o then s.zeroOut o
  else
    let x := s.audio.racks.get Rack.cold o
    let vs := s.audio.xin.get s.zeroLap o
    match s.code 7 r 0 with
    | 1 =>
      let y := s.convRun r x vs
      y.1.putRack o y.2.1 y.2.2 []
    | 2 =>
      let y := s.firRun r x vs
      s.putRack o y.1 y.2 []
    | 3 =>
      let y := s.tapRun r x vs
      s.putRack o y.1 y.2.1 y.2.2
    | _ => s.putRack o x s.zeroLap []

/-! ### Placed processing (R51, R56, R68, R126) -/

/-- The placed modules of a slot run in ascending order of placement index. -/
def State.runSlot (s : State) (slot : Nat) : State :=
  ((s.objsOn slot).foldl (fun s o => if o < 1344 then s.placedStrip o else s.placedRack o) s).storePartials slot

/-- PLACED_PROCESSING (R51): once a lap, after the exchange window, on a tile that holds a slot and is not halted. -/
def placedProcessing (t : Nat) (s : State) : State :=
  match s.tileSlot t with
  | none => s
  | some slot =>
    if s.run && s.tileActive t && s.tileRuns t && (s.tileAt t).ranLap != s.lap + 1 && !s.power.gated &&
        s.audio.exchLap == s.lap + 1 then
      let s := s.runSlot slot
      s.setTile t { s.tileAt t with ranLap := s.lap + 1, tgen := s.vault.gen }
    else s

/-- PLACED_PROCESSING (R51). -/
def execPlacedProcessing (tile : Nat) (s : State) : Host.Outcome State Fault Refusal :=
  whenWf (.placedProcessing tile) (placedProcessing tile s)

end Sys2Proof.Machine
end

