-- ==== Sys2Proof/Machine/Window.lean ====
section
/-! DEFINITION. The exchange window of a lap (R51): captured samples, the input patch and the delay units, the spine
(R68 to R70), insert points, and the output patch with what it delivers to ports, streams, the cascade and records. -/

namespace Sys2Proof.Machine

/-! ### What a lap captured (R72, R79) -/

/-- The history kept of a source: a lap and the largest alignment delay (R81). -/
def histLen : Nat := 8200

/-- Playback channels of enabled rings. -/
def State.playChans (s : State) : List Nat :=
  (List.range 64).flatMap (fun r => if s.ringOn r && s.ringFunc r == 3 then
    (List.range (s.chanRange r).2).map (fun k => (s.chanRange r).1 + k) else [])

/-- The samples of every source of a capture lap, by source code. -/
def State.captureLap (s : State) (lap : Nat) : Tbl (List A48) × State :=
  let a := s.captureStreams
  let b := a.2.capturePorts lap
  let c := b.2.captureGens lap
  let s := c.2
  let join (x y : Tbl (List A48)) : Tbl (List A48) := x.foldl (fun t e => t.insert e.1 e.2) y
  let casc := (s.casc.chanHist.filter (fun e => e.1 / 2048 == lap % 16)).foldl
    (fun (t : Tbl (List A48)) e => t.insert (0x4000 + e.1 % 2048) e.2) (join a.1 (join b.1 c.1))
  (s.playChans.foldl (fun (t : Tbl (List A48)) ch => t.insert (0x5000 + ch) (((s.playLap ch lap).map (·.1)).getD s.zeroLap)) casc, s)

/-- The sources' histories with one more lap, newest first; a history of zeros is not kept. -/
def State.pushHist (s : State) (new : Tbl (List A48)) : State :=
  let keys := ((s.audio.hist.map (·.1)) ++ new.map (·.1)).eraseDups
  let hist := keys.foldl (fun (t : Tbl (List A48)) k =>
    let h := ((new.get s.zeroLap k).reverse ++ s.audio.hist.get [] k).take histLen
    if h.all (· == 0) then t.erase k else t.insert k h) s.audio.hist
  { s with audio := { s.audio with hist := hist } }

/-- The bits that travel with the samples of a capture lap (R270, R273), by source code. -/
def State.captureBits (s : State) (lap : Nat) : Tbl (List Nat) :=
  (List.range 8).foldl (fun (t : Tbl (List Nat)) r =>
    if s.portCarries (16 + r) false then
      [0, 1].foldl (fun (t : Tbl (List Nat)) ch => t.insert (0x3000 + 2 * r + ch)
        ((s.countsOf lap).map (fun m =>
          if s.fifoHas false (16 + r) m then s.port.subBits.get 0 (fifoAt false (16 + r) m ch) else 0))) t
    else t) s.streamBits

/-- The histories of those bits with one more lap, newest first. -/
def State.pushBits (s : State) (new : Tbl (List Nat)) : State :=
  let keys := ((s.port.bitHist.map (·.1)) ++ new.map (·.1)).eraseDups
  let none_ : List Nat := List.replicate s.nLap 0
  let hist := keys.foldl (fun (t : Tbl (List Nat)) k =>
    let h := ((new.get none_ k).reverse ++ s.port.bitHist.get [] k).take histLen
    if h.all (· == 0) then t.erase k else t.insert k h) s.port.bitHist
  { s with port := { s.port with bitHist := hist } }

/-! ### Route points (R72 to R74, R89) -/

/-- A source's values in the running lap: what the ports captured in the lap before, delayed; what the objects put
out in the lap before; silence for a source that is none or invalid (R74). `mat` holds the matrix outputs after
their delay units. -/
def State.srcLap (s : State) (mat : Tbl (List A48)) (v : RVal) : List A48 :=
  if !s.srcValid v.src then s.zeroLap
  else match v.src / 4096 with
    | 0 => s.zeroLap
    | 8 => s.audio.outv.get s.zeroLap v.src
    | 9 => s.audio.busOut.get s.zeroLap (v.src % 4096)
    | 10 => mat.get s.zeroLap (v.src % 4096)
    | _ => histBack s.nLap v.aux (s.audio.hist.get [] v.src)

/-- A strip's input point over the running lap. -/
def State.inputLap (s : State) (i : Nat) : List A48 × State :=
  let r := (s.inPt i).lap (s.srcLap [])
  (s.unlessLate (pid 4 i 0) r.1, if fadeRuns (s.inPt i).fade then s.setInPt i r.2 else s)

/-! ### The spine (R68 to R70) -/

/-- Local slots whose partials of a lap's sends are expected, each with whether they are present. -/
def State.slotPartials (s : State) (k : Nat) : List (Nat × Bool) :=
  (List.range 32).filterMap (fun slot =>
    let v := s.audio.partLap.get 0 (partSlot k slot)
    if v / 2 = k + 1 then some (slot, v % 2 == 1) else none)

/-- The exact sums of the local partials of a lap's sends, by bus × 8 + sample. -/
def State.localSums (s : State) (k : Nat) : Tbl Int :=
  let slots := ((s.slotPartials k).filter (·.2)).map (fun e => partSlot k e.1)
  (s.audio.part.filter (fun e => slots.contains (e.1 / 2048))).foldl (fun (t : Tbl Int) e =>
    t.put 0 (e.1 % 2048) (t.get 0 (e.1 % 2048) + e.2.toInt)) []

/-- Other engines of the ring whose partials of a lap's sends are expected. An engine that has left the ring is none. -/
def State.enginePartials (s : State) (k : Nat) : List Nat :=
  if s.inRing && s.layout.h != 0 then
    (List.range 8).filter (fun q => q != s.casc.pos && (s.audio.eStrips.get PartRun.none q).expects k &&
      (s.on (Reg.EXL_MAP_east_ok q) || s.on (Reg.EXL_MAP_west_ok q)))
  else []

/-- An engine's partial of a bus for a lap's sends has arrived. -/
def State.partCame (s : State) (k q b : Nat) : Bool := s.audio.ePartLap.get 0 ((k % 16 * 8 + q) * 256 + b) == k + 1

/-- Adds the engine partials that are present. -/
def State.addEngines (s : State) (k : Nat) (t : Tbl Int) : Tbl Int :=
  let keys := (s.enginePartials k).map (fun q => k % 16 * 8 + q)
  (s.audio.ePart.filter (fun e => keys.contains (e.1 / 2048) && s.partCame k (e.1 / 2048 % 8) (e.1 / 8 % 256))).foldl (fun (t : Tbl Int) e =>
    t.put 0 (e.1 % 2048) (t.get 0 (e.1 % 2048) + e.2.toInt)) t

/-- The buses of a lap's sends of which a partial is absent (R70): every bus where a slot's is, since each strip sends to
every bus, and those of which an engine's has not come. -/
def State.missingBuses (s : State) (k : Nat) : Nat :=
  let slot := (s.slotPartials k).any (fun e => !e.2)
  let engines := s.enginePartials k
  ((List.range s.nBus).filter (fun b => slot || engines.any (fun q => !s.partCame k q b))).length

/-- SPINE_SUM (R68, R70): the bus values of a lap's sends, by bus × 8 + sample, saturated once. A bus-lap with an
absent partial is counted. -/
def State.spineSum (s : State) (k : Nat) : Tbl A48 × State :=
  let sums := s.addEngines k (s.localSums k)
  let n := s.missingBuses k
  let s := if n = 0 then s else (s.bump Reg.TIL_SPINE_MISSING_count n).setEvent Reg.TIL_EVENT_ev 5
  (sums.map (fun e => (e.1, satA48 e.2)), s)

/-- A bus value over a lap. -/
def busLap (n : Nat) (t : Tbl A48) (b : Nat) : List A48 := (List.range n).map (fun j => t.get 0 (b * 8 + j))

/-- ENGINE_PARTIAL_SEND (R69): in a ring, the exact local sums of the last lap's sends, saturated to X64, for every
bus, when a slot of this engine contributes. -/
def State.formPartials (s : State) : State :=
  if s.inRing && s.layout.h != 0 && decide (0 < s.lap) && !(s.slotPartials (s.lap - 1)).isEmpty then
    let sums := s.localSums (s.lap - 1)
    { s with casc := { s.casc with partOut := (List.range s.nBus).map (fun b =>
      (b, (List.range s.nLap).map (fun j => satX64 (sums.get 0 (b * 8 + j))))) } }
  else { s with casc := { s.casc with partOut := [] } }

/-! ### Into the columns (R83, R84, R94, R99) -/

/-- What enters an insert point in the running lap. -/
def State.intoInsert (s : State) (k : Nat) (vs : List A48) : State :=
  { s with audio := { s.audio with insIn := s.audio.insIn.insert k vs } }

/-- What enters an object's bank. -/
def State.intoBank (s : State) (o : Nat) (vs : List A48) : State :=
  { s with audio := { s.audio with xin := s.audio.xin.insert o vs } }

/-- The value after a head column: what the column passed on in the last lap, or the value itself. -/
def State.afterColumn (s : State) (k : Nat) (vs : List A48) : List A48 :=
  if s.layout.insOn k then s.audio.insOut.get s.zeroLap k else vs

/-- A strip or bus strip: its value enters a present head column, and what leaves it goes through the delay unit into
the bank. -/
def State.enterStrip (s : State) (o : Nat) (vs : List A48) : State :=
  let s := if s.layout.insOn (2 * o) then s.intoInsert (2 * o) vs else s
  let d := s.delayLap o (s.afterColumn (2 * o) vs)
  d.2.intoBank o d.1

/-- An output strip's value enters a present tail column. -/
def State.enterTail (s : State) (o : Nat) : State :=
  if s.layout.insOn (2 * o + 1) then s.intoInsert (2 * o + 1) (s.audio.outv.get s.zeroLap (outCode o)) else s

/-- A bus value after its tail column (R127). -/
def State.busAfter (s : State) (b : Nat) : List A48 :=
  s.afterColumn (2 * (1024 + b) + 1) (s.audio.outv.get s.zeroLap (0x9000 + b))

/-- A matrix output in a present head column: its cells are summed as the value enters it (R84, R127). -/
def State.enterMatrix (s : State) (o : Nat) : State :=
  if s.layout.mtxHead = 1 then
    let st := s.audio.strips.get Strip.cold o
    let sum := s.matrixSum (o - 1280) st.meter.valid st.sends
    let frozen := s.objFrozen o
    let s := if frozen then s else { s with audio := { s.audio with cellW := s.audio.cellW.insert o sum.2 } }
    let s := s.intoInsert (2 * o) (if frozen then s.zeroLap else sum.1)
    s.intoBank o (s.audio.insOut.get s.zeroLap (2 * o))
  else s

/-- A placed rack: what enters its insert point, and the taps of a multi-tap delay (R83, R142). -/
def State.enterRack (s : State) (o : Nat) : State :=
  let vs := match s.rackPoint (o - 1344) with
    | none => s.zeroLap
    | some k => if s.layout.insOn k then s.audio.insIn.get s.zeroLap k else s.zeroLap
  let s := s.intoBank o vs
  if s.rackKind o = 3 && decide (0 < s.lap) then s.tapWindow (o - 1344) else s

/-- Placed objects of a range of placement indexes. -/
def State.placedRange (s : State) (lo hi : Nat) : List Nat :=
  (s.tile.placed.map (·.1)).filter (fun o => decide (lo ≤ o) && decide (o < hi) && (s.slotOf o).isSome)

/-- Input strips: every one that is placed, and every input point whose fade runs. -/
def State.windowInputs (s : State) : State :=
  let idle := (s.audio.inPt.map (·.1)).filter (fun i => (s.slotOf i).isNone)
  let s := idle.foldl (fun s i => (s.inputLap i).2) s
  (s.placedRange 0 1024).foldl (fun s o =>
    let r := s.inputLap o
    r.2.enterStrip o r.1) s

/-- Bus strips, with the sums of the sends H + 1 laps earlier. -/
def State.windowBuses (s : State) : State :=
  let r := if s.layout.h + 1 ≤ s.lap then s.spineSum (s.lap - 1 - s.layout.h) else ([], s)
  (r.2.placedRange 1024 1280).foldl (fun s o =>
    (s.enterStrip o (busLap s.nLap r.1 (o - 1024))).enterTail o) r.2

/-- Bus outputs, matrix strips and racks. -/
def State.windowMatrix (s : State) : State :=
  let buses := ((s.placedRange 1024 1280).map (fun o => o - 1024))
  let s := { s with audio := { s.audio with
    busOut := buses.foldl (fun (t : Tbl (List A48)) b => t.insert b (s.busAfter b)) [] } }
  (s.placedRange 1280 1344).foldl (fun s o => (s.enterMatrix o).enterTail o) s

/-- Racks, once every insert point has its input. -/
def State.windowRacks (s : State) : State := (s.placedRange 1344 2048).foldl State.enterRack s

/-! ### The transport (R73, R87, R89, R99) -/

/-- Matrix outputs after their tail column and their delay units. -/
def State.matrixOuts (s : State) : Tbl (List A48) × State :=
  (s.placedRange 1280 1344).foldl (fun (a : Tbl (List A48) × State) o =>
    let s := a.2
    let d := s.delayLap o (s.afterColumn (2 * o + 1) (s.audio.outv.get s.zeroLap (outCode o)))
    (a.1.insert (o - 1280) d.1, d.2)) ([], s)

/-- The sinks' values of the transport lap: the route, the mute of a late commit, the layout mute. -/
def State.sinkLaps (s : State) (mat : Tbl (List A48)) : Tbl (List A48) × State :=
  (s.audio.outPt.map (·.1)).foldl (fun (a : Tbl (List A48) × State) k =>
    let s := a.2
    let r := (s.outPt k).lap (s.srcLap mat)
    let s := if fadeRuns (s.outPt k).fade then s.setOutPt k r.2 else s
    (a.1.insert k (s.muteLap (s.unlessLate (pid 5 (k % 4096) (k / 4096 * 16)) r.1)), s)) ([], s)

/-- Cascade outputs: every channel that the engine owns goes into the frame; a route to another's block sends nothing
and is reported (R73, R344). -/
def State.deliverCasc (s : State) (val : Nat → List A48) : State :=
  let routed := (s.audio.outPt.filter (fun (e : Nat × RoutePt) => e.1 / 4096 == 4 && e.2.cur.src != 0)).map (fun e => e.1 % 4096)
  let s := s.setEventIf (routed.any (fun c => s.chanOwner c != some s.casc.pos)) Reg.EXL_EVENT_ev 7
  let own := if s.inRing then (List.range s.ringChans).filter (fun c => s.chanOwner c == some s.casc.pos) else []
  { s with casc := { s.casc with chanOut := own.map (fun c => (c, val (0x4000 + c))) } }

/-- Record channels (R198). -/
def State.deliverRec (s : State) (sinks : Tbl (List A48)) : State :=
  { s with host := { s.host with recNow :=
    (sinks.filter (fun e => e.1 / 4096 == 5)).map (fun e => (e.1 % 4096, e.2)) } }

/-- A sink's source is none, or was failed in the lap just captured. -/
def State.sinkFailed (s : State) (k : Nat) : Bool :=
  let v := (s.outPt k).cur.src
  v == 0 || (decide (v / 4096 < 8) && s.srcFailed v (s.lap - 1))

/-- The validity bits of the AES3 transmitters for the frames of the next lap (R251). -/
def State.deliverFlags (s : State) : State :=
  let muted := s.layoutMuted
  let flags := (List.range 8).flatMap (fun r => (List.range 2).flatMap (fun ch =>
    let p := 24 + r
    let v := s.sinkFailed (0x3000 + 2 * r + ch) || muted || !(s.pst p == 2 || s.pst p == 3)
    (s.countsOf (s.lap + 1)).map (fun m => ((2 * r + ch) * 64 + (m % 64).toNat, v))))
  { s with port := { s.port with
    vflag := flags.foldl (fun (t : Tbl Bool) e => t.put true e.1 e.2) s.port.vflag } }

/-- The bits of a transmit context's channel for the counts of the next lap (R273): those of an AES3 input or an AM824
receive channel patched directly, where cs_src is 1; otherwise its validity bit by v_mode. -/
def State.txBits (s : State) (key : Nat) : List Nat :=
  let c := key / 64
  let sink := 0x1000 + s.cBase c + key % 64
  let v := (s.outPt sink).cur
  let am := match s.rxOf (v.src % 4096) with
    | none => false
    | some d => s.cr d Reg.STM_CFG_enc == 2
  if s.cr c Reg.STM_CFG_cs_src = 1 ∧ (v.src / 4096 = 3 ∨ (v.src / 4096 = 1 ∧ am = true)) then
    let h := (s.port.bitHist.get [] v.src).drop v.aux
    ((List.range s.nLap).map (fun j => 16 + h.getD j 0)).reverse
  else
    let bit := match s.cr c Reg.STM_CFG_v_mode with
      | 0 => false
      | 1 => true
      | _ => s.sinkFailed sink || s.layoutMuted || (s.ctx c).stopAt != 0 || s.cst c == 6
    List.replicate s.nLap (b2n bit)

/-- The output patch carries every source's value to the sinks; in the lap of a synthesizer takeover the ports take
zero (R327). -/
def State.transport (s : State) : State :=
  let m := s.judgeSnaps.matrixOuts
  let k := m.2.sinkLaps m.1
  let s := k.2
  let val (n : Nat) : List A48 := k.1.get s.zeroLap n
  let port (n : Nat) : List A48 := if s.syn.zeroLap = s.lap + 1 then s.zeroLap else val n
  ((((s.deliverFlags.deliverPorts port).deliverStreams val s.txBits).deliverCasc val).deliverRec k.1).muteStep

/-- EXCHANGE_WINDOW (R51): once a lap, while processing runs; `ecc` are the errors of the cellar words it reads (R227); in KEEP no block of the signal path has power (R413). -/
def exchangeWindow (ecc : List (Nat × Nat × CellEcc)) (s : State) : State :=
  if !s.run || s.audio.exchLap == s.lap + 1 || s.on Reg.SYN_STATUS_gated || decide (6 ≤ s.pstate) then s
  else
    let s := if 0 < s.lap then
        let b := s.captureBits (s.lap - 1)
        let c := s.captureLap (s.lap - 1)
        (c.2.pushHist c.1).pushBits b
      else s
    let s := s.windowEcc ecc
    let s := { s.formPartials with audio := { s.audio with insIn := [], xin := [] } }
    let s := s.windowInputs.windowBuses.windowMatrix.windowRacks
    let s := { s with audio := { s.audio with exchLap := s.lap + 1 }, fab := { s.fab with zeroWords := [] } }
    s.transport

/-- EXCHANGE_WINDOW (R51). -/
def execExchangeWindow (ecc : List (Nat × Nat × CellEcc)) (s : State) : Host.Outcome State Fault Refusal :=
  whenWf (.exchangeWindow ecc) (exchangeWindow ecc s)

end Sys2Proof.Machine
end

