-- ==== Sys2Proof/Machine/Laps.lean ====
section
/-! DEFINITION. The lap boundary (R16): the end of the lap that has run, and the begin of the next. -/

namespace Sys2Proof.Machine

/-! ### The end of a lap -/

/-- A slot's tile ran the lap: it holds the slot, is not halted and has run placed processing. -/
def State.slotRan (s : State) (slot : Nat) : Bool :=
  match s.slotTile slot with
  | none => false
  | some t => !(s.tileAt t).halted && (s.tileAt t).ranLap == s.lap + 1

/-- The outputs of the lap are replaced by zero: for every object after a synthesizer takeover (R327), otherwise for
those whose tile did not run it (R63). -/
def State.lapLost (s : State) (o : Nat) : Bool :=
  s.syn.zeroLap == s.lap + 1 || (match s.slotOf o with
    | none => true
    | some slot => !s.slotRan slot)

/-- What a lost lap wrote is discarded: its states are kept as they were. After a synthesizer takeover the outputs ramp
in from the next lap (R327). -/
def State.dropLost (s : State) : State :=
  let lost := ((s.tile.placed.map (·.1)) ++ s.audio.stripsW.map (·.1) ++ s.audio.racksW.map (·.1)).eraseDups.filter
    (fun o => s.lapLost o)
  let s := lost.foldl State.zeroOut s
  let s := { s with audio := { s.audio with
    sendW := []
    cellW := []
    stripsW := s.audio.stripsW.drop (fun o => lost.contains o)
    racksW := s.audio.racksW.drop (fun o => lost.contains o)
    part := if s.syn.zeroLap = s.lap + 1 then s.audio.part.drop (fun k => k / 65536 == s.lap % 16) else s.audio.part } }
  if s.syn.zeroLap = s.lap + 1 then (List.range 32).foldl State.resumeSlot s else s

/-- A slot's partials of the lap are due: present, except where its tile was halted in the lap, or is halted and the
slot not isolated (R65, R70). -/
def State.tagPartials (s : State) : State :=
  let slots := (List.range 32).filter (fun slot => (s.objsOn slot).any (fun o => decide (o < 1024)))
  { s with audio := { s.audio with partLap := slots.foldl (fun (t : Tbl Nat) slot =>
    let absent := match s.slotTile slot with
      | none => false
      | some t => (s.tileAt t).halted && (!s.slotIsolated slot || (s.tileAt t).haltLap == s.lap + 1)
    t.insert (partSlot s.lap slot) (2 * (s.lap + 1) + b2n (!absent))) s.audio.partLap } }

/-- The states written in the lap become those that the next lap reads (R50). -/
def State.swapStates (s : State) : State :=
  { s with audio := { s.audio with
    strips := s.audio.stripsW.foldl (fun (t : Tbl Strip) e => t.insert e.1 e.2) s.audio.strips
    stripsW := []
    racks := s.audio.racksW.foldl (fun (t : Tbl Rack) e => t.insert e.1 e.2) s.audio.racks
    racksW := [] } }

/-- A tile at a lap boundary (R50, R53): the state banks change roles unless it is halted, and its generators start
again; what ST_X64 stored goes with the lap (DESIGN CHOICE, log entry 65). -/
def Tile.lapEnd (t : Tile) : Tile :=
  { t with
    sread := if t.halted then t.sread else 1 - t.sread
    part := []
    xw := []
    ag := t.ag.map (fun e => (e.1, { e.2 with ptr := 0 })) }

/-- The end of the lap. -/
def State.endLap (s : State) : State :=
  let s := s.dropLost.gatherSnaps.tagPartials.swapStates.insertLap
  let s := { s with tile := { s.tile with tiles := (List.range 36).map (fun n => (n, (s.tileAt n).lapEnd)) } }
  s.markHealth s.lap

/-! ### The begin of a lap -/

/-- The local clock at the begin of a lap (R282): the media time of its sample 0, rounded down, in 2^-32 ns. -/
def State.lapClock (s : State) (lap : Nat) : Nat :=
  (((lap * s.nLap : Nat) + s.time.anchor) * (10 ^ 9 * 2 ^ 32) / s.fs).toNat

/-- The lap index and the local clock step (R16, R282). -/
def State.stepLap (s : State) : State :=
  { s with lap := s.lap + 1, time := { s.time with clock := s.lapClock (s.lap + 1) } }

/-- A heat that lost its spare in the last lap says so (R63). -/
def State.heatLap (s : State) (h : Nat) : State :=
  let s := s.checkerLap h
  if (s.heat h).exhaust then
    (s.setHeat h { s.heat h with exhaust := false }).setEvent Reg.TIL_EVENT_ev 4
  else s

/-- PLAYBACK_UNDERRUN (R197): a ring that has not fetched every sample of the lap that begins. Samples of laps that
have been read are dropped. -/
def State.playLapCheck (s : State) (r : Nat) : State :=
  if s.ringOn r && s.ringFunc r == 3 then
    let g := s.ring r
    let m0 := s.lap * s.nLap
    let missing := !s.on Reg.HST_STATUS_bme || (List.range s.nLap).any (fun j => !g.samples.has ((m0 + j) * 256 + (s.chanRange r).1))
    let due := match g.firstLap with
      | none => false
      | some l => decide (l ≤ s.lap)
    let s := if missing && due then (s.bump Reg.HST_PLAY_UNDER_count 1).setEvent Reg.HST_EVENT_ev 4 else s
    let old := (s.lap - 1) * s.nLap
    let g := s.ring r
    s.setRing r { g with
      samples := g.samples.filter (fun e => decide (old * 256 ≤ e.1))
      fetched := g.fetched.filter (fun u => decide (old < u.1 + u.2)) }
  else s

/-- A record frame: one word per channel of the ring (R44, R196). -/
def State.recFrame (s : State) (r j : Nat) : List Byte :=
  let fmt := s.rd (Reg.HST_RAUD_fmt r)
  (List.range (s.chanRange r).2).flatMap (fun k =>
    let v := (s.host.recOut.get s.zeroLap ((s.chanRange r).1 + k)).getD j 0
    leBytes (fmtBytes fmt) (BitVec.ofInt 32 (pcmOut (fmtBits fmt) v).toInt).toNat)

/-- Whether record carries zero for a transport lap: the transition to or from QUIET holds it (R411, R412). -/
def State.recZero (s : State) (lap : Nat) : Bool :=
  match s.power.recZeroFrom with
  | none => false
  | some a => decide (a ≤ lap) && (match s.power.recZeroTo with
    | none => true
    | some b => decide (lap < b))

/-- One frame of a record ring is written into its oldest buffer, or lost (R198). -/
def State.writeFrame (s : State) (r j : Nat) (zero : Bool) : State :=
  let m := (s.lap - 1) * s.nLap + j
  match s.buffer r 4 with
  | none => (s.bump Reg.HST_REC_LOST_count 1).setEvent Reg.HST_EVENT_ev 5
  | some d =>
    let bytes := if zero then (s.recFrame r j).map (fun _ => 0) else s.recFrame r j
    let s := s.emit (.hostWrite (d.word64 2 + d.moved * bytes.length) bytes)
    let m0 := if d.moved = 0 then m else d.count0
    let d := { d with moved := d.moved + 1, count0 := m0 }
    let s := s.setDesc r d
    if d.len ≤ d.moved then
      s.complete r d.id 0x40 0 d.moved [(4, BitVec.ofNat 32 m0), (5, BitVec.ofNat 32 (m0 / 2 ^ 32))]
    else s

/-- RECORD_FRAMES_WRITE (R198): in the lap after a play-out lap, whose samples were transported in the lap before it. -/
def State.recLap (s : State) (r : Nat) : State :=
  if s.ringOn r && s.ringFunc r == 4 && (s.ring r).recFrom != 0 && decide ((s.ring r).recFrom ≤ s.lap) then
    (List.range s.nLap).foldl (fun s j => s.writeFrame r j (s.recZero (s.lap - 2))) s
  else s

/-- The record frames of the play-out lap that has ended, and those of the one that begins. -/
def State.records (s : State) : State :=
  let s := (List.range 64).foldl State.recLap s
  { s with host := { s.host with recOut := s.host.recNow, recNow := [] } }

/-- A strip's sources or mode change at this boundary: R82 evaluates it anew, and R80 does not. -/
def State.abSwaps (s : State) (i : Nat) : Bool :=
  s.vault.arms.any (fun a => a.dist && a.reach == s.lap && s.vault.covers a.mask (pid 4 i 0)) &&
    [0, 1, 2].any (fun n => s.vault.loft (pid 4 i n) != s.vault.live (pid 4 i n))

/-- An object's element exchanges its pages in this lap: a commit switches it now, or its entry lap begins (R162). -/
def State.elemSwaps (s : State) (ob e : Nat) : Bool :=
  s.vault.switching.any (fun x => x.lap + s.elemPos e == s.lap && s.vault.covers x.mask ob &&
    s.vault.bankBit.get false e != s.vault.storeBit.get false ob) ||
  (s.elemPos e == 0 && s.vault.arms.any (fun a => a.dist && a.reach == s.lap && s.vault.covers a.mask ob))

/-- DELAY_COMPARE of every placed object (R100), but of those whose page swaps at this boundary: PAGE_EXCHANGE compares
them with the page that the lap presents. -/
def State.delayCompareAll (s : State) : State :=
  ((s.tile.placed.flatMap (fun e => s.delayKeys e.1)).filter (fun k =>
    !s.elemSwaps (objOf (delayPid k)) (elemOf (delayPid k)))).foldl State.delayCompare s

/-- AB_EVALUATE of every strip (R80). -/
def State.abLap (s : State) : State :=
  (s.abStrips.filter (fun i => !s.abSwaps i)).foldl (fun s i => s.abEvaluate (s.lap - 1) i) s

/-- Partials of 16 laps ago make room for those of the lap that begins. -/
def State.dropPartials (s : State) : State :=
  let n := s.lap % 16
  { s with audio := { s.audio with
    part := s.audio.part.drop (fun k => k / 65536 == n)
    partLap := s.audio.partLap.drop (fun k => k / 32 == n)
    ePart := s.audio.ePart.drop (fun k => k / 16384 == n)
    ePartLap := s.audio.ePartLap.drop (fun k => k / 2048 == n) } }

/-- The begin of the lap. -/
def State.beginLap (s : State) : State :=
  let s := (List.range 4).foldl State.heatLap s.stepLap.dropPartials
  let s := (List.range 16).foldl State.moverLap s
  let s := { s.startBoth.rampStep with health := { s.health with bankUe := [] } }
  let s := (List.range 64).foldl State.playLapCheck s
  let s := (s.gateOuts.records.abLap.checkInvalid.delayCompareAll.checkForwarded.expireForwards false).openSnaps.layoutCheck.muteBoundary
  let s := (List.range 32).foldl State.portLap s
  s.streamsBoundary.cascBoundary

/-- LAP_BOUNDARY (R16): while the pacer runs. -/
def lapBoundary (s : State) : State :=
  if s.run && !s.on Reg.SYN_STATUS_gated then s.endLap.beginLap else s

/-- LAP_BOUNDARY (R16). -/
def execLapBoundary (s : State) : Host.Outcome State Fault Refusal :=
  whenWf .lapBoundary (lapBoundary s)

end Sys2Proof.Machine
end

