-- ==== Sys2Proof/Machine/Sha.lean ====
section
/-! DEFINITION. SHA-256, the hash of the meter's log (R375, R376). -/

namespace Sys2Proof.Machine

/-- The round constants. -/
def shaK : List Word := [
  0x428A2F98#32, 0x71374491#32, 0xB5C0FBCF#32, 0xE9B5DBA5#32, 0x3956C25B#32, 0x59F111F1#32, 0x923F82A4#32, 0xAB1C5ED5#32,
  0xD807AA98#32, 0x12835B01#32, 0x243185BE#32, 0x550C7DC3#32, 0x72BE5D74#32, 0x80DEB1FE#32, 0x9BDC06A7#32, 0xC19BF174#32,
  0xE49B69C1#32, 0xEFBE4786#32, 0x0FC19DC6#32, 0x240CA1CC#32, 0x2DE92C6F#32, 0x4A7484AA#32, 0x5CB0A9DC#32, 0x76F988DA#32,
  0x983E5152#32, 0xA831C66D#32, 0xB00327C8#32, 0xBF597FC7#32, 0xC6E00BF3#32, 0xD5A79147#32, 0x06CA6351#32, 0x14292967#32,
  0x27B70A85#32, 0x2E1B2138#32, 0x4D2C6DFC#32, 0x53380D13#32, 0x650A7354#32, 0x766A0ABB#32, 0x81C2C92E#32, 0x92722C85#32,
  0xA2BFE8A1#32, 0xA81A664B#32, 0xC24B8B70#32, 0xC76C51A3#32, 0xD192E819#32, 0xD6990624#32, 0xF40E3585#32, 0x106AA070#32,
  0x19A4C116#32, 0x1E376C08#32, 0x2748774C#32, 0x34B0BCB5#32, 0x391C0CB3#32, 0x4ED8AA4A#32, 0x5B9CCA4F#32, 0x682E6FF3#32,
  0x748F82EE#32, 0x78A5636F#32, 0x84C87814#32, 0x8CC70208#32, 0x90BEFFFA#32, 0xA4506CEB#32, 0xBEF9A3F7#32, 0xC67178F2#32]

/-- The initial hash value. -/
def shaH0 : List Word := [
  0x6A09E667#32, 0xBB67AE85#32, 0x3C6EF372#32, 0xA54FF53A#32, 0x510E527F#32, 0x9B05688C#32, 0x1F83D9AB#32, 0x5BE0CD19#32]

/-- The functions of a round and of the message schedule. -/
def shaCh (x y z : Word) : Word := (x &&& y) ^^^ (~~~x &&& z)
def shaMaj (x y z : Word) : Word := (x &&& y) ^^^ (x &&& z) ^^^ (y &&& z)
def shaBig0 (x : Word) : Word := x.rotateRight 2 ^^^ x.rotateRight 13 ^^^ x.rotateRight 22
def shaBig1 (x : Word) : Word := x.rotateRight 6 ^^^ x.rotateRight 11 ^^^ x.rotateRight 25
def shaSmall0 (x : Word) : Word := x.rotateRight 7 ^^^ x.rotateRight 18 ^^^ (x >>> 3)
def shaSmall1 (x : Word) : Word := x.rotateRight 17 ^^^ x.rotateRight 19 ^^^ (x >>> 10)

/-- Extends the message schedule, newest word first, by n words. -/
def shaSchedule : Nat → List Word → List Word
  | 0, w => w
  | n + 1, w =>
    shaSchedule n ((shaSmall1 (w.getD 1 0) + w.getD 6 0 + shaSmall0 (w.getD 14 0) + w.getD 15 0) :: w)

/-- The eight working variables. -/
structure ShaVars where
  a : Word
  b : Word
  c : Word
  d : Word
  e : Word
  f : Word
  g : Word
  h : Word

/-- One round. -/
def shaRound (v : ShaVars) (kw : Word × Word) : ShaVars :=
  let t1 := v.h + shaBig1 v.e + shaCh v.e v.f v.g + kw.1 + kw.2
  let t2 := shaBig0 v.a + shaMaj v.a v.b v.c
  ⟨t1 + t2, v.a, v.b, v.c, v.d + t1, v.e, v.f, v.g⟩

/-- The working variables that a hash value starts. -/
def shaStart (h : List Word) : ShaVars :=
  ⟨h.getD 0 0, h.getD 1 0, h.getD 2 0, h.getD 3 0, h.getD 4 0, h.getD 5 0, h.getD 6 0, h.getD 7 0⟩

/-- Compresses one block of sixteen words into the hash value. -/
def shaBlock (h : List Word) (block : List Word) : List Word :=
  let w := (shaSchedule 48 block.reverse).reverse
  let v := (shaK.zip w).foldl shaRound (shaStart h)
  List.zipWith (· + ·) h [v.a, v.b, v.c, v.d, v.e, v.f, v.g, v.h]

/-- Four bytes as a word, the highest first. -/
def shaWord (l : List Byte) : Word := BitVec.ofNat 32 (l.foldl (fun a b => a * 256 + b.toNat) 0)

/-- The words of n blocks of bytes. -/
def shaWords : Nat → List Byte → List Word
  | 0, _ => []
  | n + 1, l => shaWord (l.take 4) :: shaWords n (l.drop 4)

/-- Hashes n blocks. -/
def shaBlocks : Nat → List Byte → List Word → List Word
  | 0, _, h => h
  | n + 1, l, h => shaBlocks n (l.drop 64) (shaBlock h (shaWords 16 l))

/-- The message with its padding: a bit 1, zeros, and the length in bits. -/
def shaPad (l : List Byte) : List Byte :=
  let zeros := (119 - l.length % 64) % 64
  l ++ [0x80#8] ++ List.replicate zeros 0 ++
    (List.range 8).map (fun i => BitVec.ofNat 8 (8 * l.length / 256 ^ (7 - i)))

/-- SHA-256: 32 bytes, in the order in which it produces them. -/
def sha256 (l : List Byte) : List Byte :=
  let m := shaPad l
  (shaBlocks (m.length / 64) m shaH0).flatMap (fun w =>
    (List.range 4).map (fun i => BitVec.ofNat 8 (w.toNat / 256 ^ (3 - i))))

end Sys2Proof.Machine
end

