-- ==== Sys2Proof/Machine/Meter.lean ====
section
/-! DEFINITION. The sealed level meter: measurement, log, seal, Meter Port and mirror (R370 to R386). -/

namespace Sys2Proof.Machine

/-- Applies a change to the meter's part of the state. -/
def State.meterMap (s : State) (f : MeterSt → MeterSt) : State := { s with meter := f s.meter }

/-! ### Levels (R373, R374) -/

/-- A level's code: cal plus n × 1000 log10 of a ratio q / (d · 2^k), the nearest code, 0 at or below 0 dB. -/
def levelCode (cal n q d k : Nat) : Nat :=
  if q = 0 ∨ d = 0 then 0
  else (clampI 0 0xFFFE (nearest (cal * fxLn10 + n * 1000 * (fxLn q 0 - fxLn d 0 - k * fxLn2)) fxLn10)).toNat

/-- A gathered channel's levels: LAeq,T, LCeq,T, LCpeak, LAFmax, LASmax and LAeq,15min. -/
def Gather.levels (g : Gather) (cal n : Nat) : List Nat :=
  [levelCode cal 1 g.sumA n 62, levelCode cal 1 g.sumC n 62, levelCode cal 2 g.peakC 1 31,
    levelCode cal 1 g.maxF 1 126, levelCode cal 1 g.maxS 1 126,
    levelCode cal 1 (g.secs.foldl (· + ·) 0) (48000 * g.secs.length) 62]

/-- A channel's flags in a data record (R375). -/
def Gather.flags (g : Gather) : Nat :=
  b2n g.overload + 2 * b2n g.noSignal + 4 * b2n (decide (g.secs.length < 900))

/-- One exponential mean, with 64 fraction bits more than the energy (R373). -/
def expMean (e q n : Nat) : Nat := (((e : Int) + ((q * 2 ^ 64 : Nat) - e : Int) / n)).toNat

/-- One sample of a channel: its word, and its A and C weighted values in units of 2^-31 of full scale (R371
to R373). -/
def Gather.sample (g : Gather) (w : Nat) (pA pC : Int) (secEnd : Bool) : Gather :=
  let qa := pA.natAbs * pA.natAbs
  let qc := pC.natAbs * pC.natAbs
  let fast := expMean g.fast qa 6000
  let slow := expMean g.slow qa 48000
  let same := if g.last = some w then g.same + 1 else 1
  let sec := g.secSum + qa
  { sumA := g.sumA + qa
    sumC := g.sumC + qc
    peakC := max g.peakC pC.natAbs
    fast := fast
    slow := slow
    maxF := max g.maxF fast
    maxS := max g.maxS slow
    overload := g.overload || w == 0x80000000 || w == 0x7FFFFFFF
    same := same
    last := some w
    noSignal := g.noSignal || decide (48000 ≤ same)
    secs := if secEnd then (sec :: g.secs).take 900 else g.secs
    secSum := if secEnd then 0 else sec }

/-- An energy in units of the digital full scale, carried from one calibration to another: the same pressure
(R372). -/
def recal (old new e : Nat) : Nat :=
  if old = new then e else ((e : Int) * pow10Round ((old : Int) - new) 1000 192 / 2 ^ 192).toNat

/-- A new period begins for a channel; what goes on from before keeps its pressure under a new calibration. -/
def Gather.newPeriod (g : Gather) (old new : Nat) : Gather :=
  { g with
    sumA := 0, sumC := 0, peakC := 0, maxF := 0, maxS := 0, overload := false, noSignal := false
    fast := recal old new g.fast
    slow := recal old new g.slow
    secs := g.secs.map (recal old new)
    secSum := recal old new g.secSum }

/-! ### Records (R375 to R377) -/

/-- The code of a seal state. -/
def Seal.code : Seal → Nat
  | .blank => 0
  | .sealed => 1
  | .broken => 2

/-- The key slot in use: none in state blank. -/
def MeterSt.keySlot (m : MeterSt) : Option Nat :=
  if m.sealSt = .blank then none else some (m.fuses.keys.length - 1)

/-- The state word (R375). -/
def MeterSt.stateWord (m : MeterSt) : Nat :=
  m.sealSt.code + 256 * m.cfgSlot + 65536 * (m.keySlot.getD 0xFF)

/-- Bytes padded with zeros to a length. -/
def padTo (n : Nat) (l : List Byte) : List Byte := (l ++ List.replicate n 0).take n

/-- Bytes 0 to 59 of a record. -/
def MeterSt.header (m : MeterSt) (kind : Nat) : List Byte :=
  [BitVec.ofNat 8 kind, 1, 0, 0] ++ leBytes 8 m.seq ++ leBytes 8 m.samples ++ leBytes 4 m.fuses.events ++
    leBytes 4 m.stateWord ++ padTo 32 m.lastHash

/-- Appends a record to the log: its place, its hash, and the next sequence number. -/
def MeterSt.append (m : MeterSt) (kind : Nat) (payload : List Byte) : MeterSt :=
  let rec_ := m.header kind ++ padTo 64 payload ++ [0, 0, 0, 0]
  { m with
    log := m.log.insert (m.seq % 32768) rec_
    lastHash := sha256 rec_
    seq := m.seq + 1
    plain := if kind = 2 then m.plain else m.plain + 1 }

/-- The status block (R382). -/
def MeterSt.status (m : MeterSt) : List Byte :=
  leBytes 8 (m.seq - 1) ++ leBytes 8 m.samples ++ leBytes 4 m.stateWord ++ leBytes 4 m.fuses.events ++
    leBytes 1 m.result ++ List.replicate 7 0 ++ padTo 32 m.lastHash

/-- The public key of the slot in use; zero in state blank. -/
def MeterSt.pubKey (m : MeterSt) : List Byte :=
  match m.keySlot with
  | none => List.replicate 64 0
  | some k =>
    let p := m.fuses.keys.getD k (0, 0)
    beBytes 32 p.1 ++ beBytes 32 p.2

/-- A configuration as its 32 bytes. -/
def MeterCfg.bytes (c : MeterCfg) : List Byte :=
  leBytes 4 c.t ++ leBytes 4 c.en ++ leBytes 4 c.cal0 ++ leBytes 4 c.cal1 ++ List.replicate 16 0

/-- The counter or a set of slots is used up. -/
def MeterSt.exhausted (m : MeterSt) : Bool :=
  m.fuses.events == 64 || m.fuses.cfgs.length == 16 || m.fuses.keys.length == 16

/-! ### The mirror (R384, R386) -/

/-- The main engine takes the meter's writes to the mirror: powered, out of reset and not in KEEP. -/
def State.mirrorOn (s : State) : Bool := s.power.main && !s.power.porLow && s.pstate != 6

/-- The status block, key and configuration reach the mirror, and the SLM registers with them. -/
def State.mirrorState (s : State) : State :=
  let m := s.meter
  let s := s.meterMap (fun m => { m with
    mirrorStatus := m.status, mirrorKey := m.pubKey, mirrorCfg := m.cfg.bytes })
  let s := (s.wr Reg.SLM_STATUS_seal m.sealSt.code).wr Reg.SLM_STATUS_running (b2n m.running)
  let s := (s.wr Reg.SLM_STATUS_exhausted (b2n m.exhausted)).wr Reg.SLM_SEALCNT_count m.fuses.events
  (s.wr64 Reg.SLM_SEQ_LO_seq Reg.SLM_SEQ_HI_seq (m.seq - 1)).wr Reg.SLM_PERIOD_t m.cfg.t

/-- A 16-bit field of a record. -/
def recordWord (r : List Byte) (off : Nat) : Nat := ofLe ((r.drop off).take 2)

/-- What a data record shows in the SLM registers. -/
def State.mirrorLevels (s : State) (r : List Byte) : State :=
  let fl := (r.getD 88 0).toNat
  let fh := (r.getD 89 0).toNat
  let ov := fl % 2 + 2 * (fh % 2)
  let ns := fl / 2 % 2 + 2 * (fh / 2 % 2)
  let s := (s.wr Reg.SLM_STATUS_overload ov).wr Reg.SLM_STATUS_no_signal ns
  let s := (s.wr (Reg.SLM_LEVEL_laeq 0) (recordWord r 64)).wr (Reg.SLM_LEVEL_laeq15 0) (recordWord r 74)
  let s := (s.wr (Reg.SLM_LEVEL_laeq 1) (recordWord r 76)).wr (Reg.SLM_LEVEL_laeq15 1) (recordWord r 86)
  let s := s.setEvent Reg.SLM_EVENT_ev 0
  s.setEventIf (ov != 0 || ns != 0) Reg.SLM_EVENT_ev 2

/-- A complete record reaches the mirror (R384); dropped while the main engine does not take it. -/
def State.mirrorRecord (s : State) (kind : Nat) : State :=
  if !s.mirrorOn then s
  else
    let i := (s.meter.seq - 1) % 32768
    let r := s.meter.log.get [] i
    let s := (s.meterMap (fun m => { m with mirror := m.mirror.insert i r })).mirrorState
    match kind with
    | 1 => s.mirrorLevels r
    | 3 => s.setEvent Reg.SLM_EVENT_ev 3
    | 4 => s.setEvent Reg.SLM_EVENT_ev 1
    | _ => s

/-- After POR_N the mirror reads zero and takes the whole log from a meter that runs (R384). -/
def State.mirrorResync (s : State) : State :=
  if s.meter.running then
    ((s.meterMap (fun m => { m with mirror := m.log })).mirrorState).wr Reg.SLM_STATUS_mirror_sync 1
  else s.meterMap (fun m => { m with mirror := [], mirrorStatus := [], mirrorKey := [], mirrorCfg := [] })

/-- A signature record is due: after every 60th other record, while the meter holds a key slot (R377). -/
def MeterSt.signDue (m : MeterSt) (kind : Nat) : Bool :=
  kind != 2 && m.plain % 60 == 0 && m.keySlot.isSome

/-- Writes a record and, when one is due, the signature record behind it; the signature is an open value. -/
def State.record (s : State) (kind : Nat) (payload : List Byte) : State :=
  let s := (s.meterMap (fun m => m.append kind payload)).mirrorRecord kind
  if s.meter.signDue kind then
    let (sig, s) := s.drawBits 512
    (s.meterMap (fun m => m.append 2 (beBytes 64 sig.toNat))).mirrorRecord 2
  else s

/-! ### Start, reset and samples (R370, R371, R376) -/

/-- Measurement begins anew, from the highest committed configuration (R373, R379). -/
def MeterSt.start (m : MeterSt) : MeterSt :=
  { m with
    running := true
    cfg := m.fuses.cfgs.getLast?.getD MeterCfg.default
    cfgSlot := m.fuses.cfgs.length - 1
    nextCfg := none
    samples := 0
    periodStart := 0
    ch0 := Gather.reset
    ch1 := Gather.reset
    plain := 0 }

/-- The meter starts (R375, R376): cold after its power was applied, else warm. A mirror that has not had the
log since POR_N takes it now (R384). -/
def State.meterStart (s : State) : State :=
  let cold := s.meter.cold
  let s := (s.meterMap (fun m => { m.start with cold := false })).record 3 [if cold then 0 else 1]
  if s.mirrorOn && s.rd Reg.SLM_STATUS_mirror_sync == 0 then s.mirrorResync else s

/-- SLM_POWER_ON (R370, R376): a cold start with an empty log, once SLM_RST_N is high. -/
def slmPowerOn (s : State) : State :=
  if s.meter.power then s
  else
    let s := s.meterMap (fun m => { m with power := true, cold := true, seq := 0, lastHash := [], log := [] })
    if s.meter.rstLow then s else s.meterStart

/-- SLM_RESET (R370): measurement stops and the logic is reset; the log RAM keeps its contents. -/
def slmReset (s : State) : State :=
  let s := s.meterMap (fun m => { m with rstLow := true })
  if !s.meter.running then s
  else
    let s := s.meterMap (fun m => { m with
      running := false
      staged := []
      burn := false
      result := 0
      samples := 0
      periodStart := 0
      ch0 := Gather.reset
      ch1 := Gather.reset
      nextCfg := none
      busyColl := false
      out := [] })
    let s := { s with pads := { s.pads with mtrBusy := false } }
    if s.mirrorOn then s.wr Reg.SLM_STATUS_running 0 else s

/-- SLM_RESET_RELEASE (R370, R376): a start, which goes on behind the intact chain where it is warm. -/
def slmResetRelease (s : State) : State :=
  let s := s.meterMap (fun m => { m with rstLow := false })
  if s.meter.power && !s.meter.running then s.meterStart else s

/-- SLM_POWER_REMOVE (R370): the meter stops and the log RAM loses its contents. -/
def slmPowerRemove (s : State) : State :=
  let s := s.meterMap (fun m => { m with
    power := false, running := false, cold := false, log := [], seq := 0, lastHash := [], staged := [], burn := false,
    result := 0, nextCfg := none, out := [], busyColl := false })
  let s := { s with pads := { s.pads with mtrBusy := false, mtrSealed := false } }
  if s.mirrorOn then s.wr Reg.SLM_STATUS_running 0 else s

/-- The pin MTR_SEALED shows the seal (R380). -/
def State.sealPin (s : State) : State :=
  { s with pads := { s.pads with mtrSealed := s.meter.power && s.meter.sealSt == .sealed } }

/-- METER_SAMPLE (R371 to R373). The weighted values are open values: R373 gives the filters' responses within
a tolerance. -/
def meterSample (w0 w1 : Word) (s : State) : State :=
  if !s.meter.running then s
  else
    let (a0, s) := s.drawInt
    let (c0, s) := s.drawInt
    let (a1, s) := s.drawInt
    let (c1, s) := s.drawInt
    s.meterMap (fun m =>
      let n := m.samples + 1
      let e := n % 48000 == 0
      { m with
        samples := n
        ch0 := if bitAt m.cfg.en 0 then m.ch0.sample w0.toNat a0 c0 e else m.ch0
        ch1 := if bitAt m.cfg.en 1 then m.ch1.sample w1.toNat a1 c1 e else m.ch1 })

/-- A channel's six levels in a data record; a disabled channel's are invalid. -/
def levelBytes (g : Gather) (on : Bool) (cal n : Nat) : List Byte :=
  if on then (g.levels cal n).flatMap (leBytes 2) else List.replicate 12 0xFF

/-- A channel's flags byte in a data record. -/
def flagByte (g : Gather) (on : Bool) : Byte := BitVec.ofNat 8 (if on then g.flags else 8)

/-- The payload of a data record (R375). -/
def MeterSt.dataPayload (m : MeterSt) : List Byte :=
  let n := 48000 * m.cfg.t
  leBytes 4 m.cfg.t ++ levelBytes m.ch0 (bitAt m.cfg.en 0) m.cfg.cal0 n ++
    levelBytes m.ch1 (bitAt m.cfg.en 1) m.cfg.cal1 n ++
    [flagByte m.ch0 (bitAt m.cfg.en 0), flagByte m.ch1 (bitAt m.cfg.en 1)]

/-- A new period begins; a committed configuration applies from here (R379). -/
def MeterSt.newPeriod (m : MeterSt) : MeterSt :=
  let (c, slot) := m.nextCfg.getD (m.cfg, m.cfgSlot)
  { m with
    cfg := c, cfgSlot := slot, nextCfg := none, periodStart := m.samples,
    ch0 := m.ch0.newPeriod m.cfg.cal0 c.cal0, ch1 := m.ch1.newPeriod m.cfg.cal1 c.cal1 }

/-- METER_PERIOD_END (R373, R375): the period is complete, 48 000 × T samples after it began. -/
def meterPeriodEnd (s : State) : State :=
  let m := s.meter
  if m.running && decide (0 < m.samples) && m.samples == m.periodStart + 48000 * m.cfg.t then
    (s.record 1 m.dataPayload).meterMap MeterSt.newPeriod
  else s

/-! ### The Meter Port (R381 to R383) -/

/-- MTR_BUSY after a transfer: high only while fuses are being burnt (R383). -/
def State.busyPin (s : State) : State := { s with pads := { s.pads with mtrBusy := s.meter.burn } }

/-- The data of a read transfer. -/
def State.meterOut (s : State) (bs : List Byte) (coll : Bool) : State :=
  if s.meter.running then (s.meterMap (fun m => { m with out := bs, busyColl := coll })).busyPin else s

/-- READ_STATUS (R382). -/
def readStatus (n : Nat) (s : State) : State := s.meterOut (s.meter.status.take n) false

/-- n bytes of the log from an offset, wrapping at 4 MiB. -/
def logBytes (log : Tbl (List Byte)) (off : Nat) : Nat → List Byte
  | 0 => []
  | n + 1 => (log.get [] (off % 0x400000 / 128)).getD (off % 128) 0 :: logBytes log (off + 1) n

/-- Puts four bytes over a list at an index. -/
def overlay (l : List Byte) (i : Nat) (v : List Byte) : List Byte :=
  l.take i ++ (v.take (l.length - i)) ++ l.drop (i + v.length)

/-- READ_LOG (R381, R383): the word with number `coll` of the transfer collided with the writer and reads an
open value. -/
def readLog (off n : Nat) (coll : Option Nat) (s : State) : State :=
  let bs := logBytes s.meter.log off n
  match coll with
  | none => s.meterOut bs false
  | some k =>
    let (v, s) := s.drawBits 32
    s.meterOut (overlay bs (4 * k) (leBytes 4 v.toNat)) true

/-- READ_KEY (R381). -/
def readKey (n : Nat) (s : State) : State := s.meterOut (s.meter.pubKey.take n) false

/-- READ_CFG (R381): the configuration in use, then the staged one. -/
def readCfg (n : Nat) (s : State) : State :=
  s.meterOut ((s.meter.cfg.bytes ++ padTo 32 s.meter.staged).take n) false

/-- The result of a write command (R382). -/
def State.meterResult (s : State) (r : Nat) : State := s.meterMap (fun m => { m with result := r })

/-- A write command that the meter takes: it runs, and no fuses are being burnt (R382). -/
def State.meterWrite (s : State) (f : State → State) : State :=
  if !s.meter.running then s
  else if s.meter.burn then s.meterResult 2
  else f s

/-- SET_TIME (R381). -/
def setTime (sec : Word) (s : State) : State :=
  s.meterWrite (fun s => (s.meterResult 0).record 5 (leBytes 4 sec.toNat))

/-- STAGE_CFG (R381): takes effect once the 32 bytes have arrived. -/
def stageCfg (data : List Byte) (s : State) : State :=
  if data.length < 32 then s
  else s.meterWrite (fun s => (s.meterResult 0).meterMap (fun m => { m with staged := data.take 32 }))

/-- The staged configuration, when it may be committed (R381). -/
def MeterSt.stagedCfg (m : MeterSt) : Option MeterCfg :=
  let w (i : Nat) : Nat := ofLe ((m.staged.drop (4 * i)).take 4)
  if m.staged.length = 32 ∧ 1 ≤ w 0 ∧ w 0 ≤ 3600 ∧ w 1 < 4 ∧ (m.staged.drop 16).all (· == 0) then
    some ⟨w 0, w 1, w 2, w 3⟩
  else none

/-- An accepted command: counted, its fuses burnt, and its seal-event record written (R379). -/
def State.sealEvent (s : State) (cause : Nat) (f : MeterSt → MeterSt) : State :=
  let s := s.meterMap (fun m =>
    let m := f m
    { m with burn := true, result := 0, fuses := { m.fuses with events := m.fuses.events + 1 } })
  ((s.record 4 [BitVec.ofNat 8 cause]).sealPin).busyPin

/-- COMMIT_CFG (R379, R381). -/
def commitCfg (arg : Word) (s : State) : State :=
  s.meterWrite (fun s =>
    let m := s.meter
    match m.stagedCfg with
    | none => s.meterResult 1
    | some c =>
      if arg ≠ 0x43464731#32 ∨ m.sealSt = .sealed ∨ m.fuses.events = 64 ∨ m.fuses.cfgs.length = 16 then
        s.meterResult 1
      else s.sealEvent 1 (fun m => { m with
        nextCfg := some (c, m.fuses.cfgs.length)
        fuses := { m.fuses with cfgs := m.fuses.cfgs ++ [c] } }))

/-- SEAL (R378, R379): the new key pair is an open value. -/
def sealMeter (arg : Word) (s : State) : State :=
  s.meterWrite (fun s =>
    let m := s.meter
    if arg ≠ 0x5345414C#32 ∨ m.sealSt = .sealed ∨ m.fuses.cfgs.isEmpty ∨ m.fuses.events = 64 ∨
        m.fuses.keys.length = 16 then s.meterResult 1
    else
      let (x, s) := s.drawBits 256
      let (y, s) := s.drawBits 256
      s.sealEvent 2 (fun m => { m with
        sealSt := .sealed
        fuses := { m.fuses with keys := m.fuses.keys ++ [(x.toNat, y.toNat)] } }))

/-- UNSEAL (R379). -/
def unsealMeter (arg : Word) (s : State) : State :=
  s.meterWrite (fun s =>
    if arg ≠ 0x4F50454E#32 ∨ s.meter.sealSt ≠ .sealed ∨ s.meter.fuses.events = 64 then s.meterResult 1
    else s.sealEvent 3 (fun m => { m with sealSt := .broken }))

/-- FUSE_BURN_DONE (R382, R383). -/
def fuseBurnDone (s : State) : State := (s.meterMap (fun m => { m with burn := false })).busyPin

/-- SLM_POWER_ON (R376). -/
def execSlmPowerOn (s : State) : Host.Outcome State Fault Refusal :=
  whenWf .slmPowerOn ((slmPowerOn s).sealPin)

/-- SLM_RESET (R370). -/
def execSlmReset (s : State) : Host.Outcome State Fault Refusal :=
  whenWf .slmReset (slmReset s)

/-- SLM_RESET_RELEASE (R376). -/
def execSlmResetRelease (s : State) : Host.Outcome State Fault Refusal :=
  whenWf .slmResetRelease (slmResetRelease s)

/-- SLM_POWER_REMOVE (R370). -/
def execSlmPowerRemove (s : State) : Host.Outcome State Fault Refusal :=
  whenWf .slmPowerRemove (slmPowerRemove s)

/-- METER_SAMPLE (R371). -/
def execMeterSample (w0 w1 : Word) (s : State) : Host.Outcome State Fault Refusal :=
  whenWf (.meterSample w0 w1) (meterSample w0 w1 s)

/-- METER_PERIOD_END (R373). -/
def execMeterPeriodEnd (s : State) : Host.Outcome State Fault Refusal :=
  whenWf .meterPeriodEnd (meterPeriodEnd s)

/-- READ_STATUS (R382). -/
def execReadStatus (n : Nat) (s : State) : Host.Outcome State Fault Refusal :=
  whenWf (.readStatus n) (readStatus n s)

/-- READ_LOG (R381). -/
def execReadLog (off n : Nat) (coll : Option Nat) (s : State) : Host.Outcome State Fault Refusal :=
  whenWf (.readLog off n coll) (readLog off n coll s)

/-- READ_KEY (R381). -/
def execReadKey (n : Nat) (s : State) : Host.Outcome State Fault Refusal :=
  whenWf (.readKey n) (readKey n s)

/-- READ_CFG (R381). -/
def execReadCfg (n : Nat) (s : State) : Host.Outcome State Fault Refusal :=
  whenWf (.readCfg n) (readCfg n s)

/-- SET_TIME (R381). -/
def execSetTime (sec : Word) (s : State) : Host.Outcome State Fault Refusal :=
  whenWf (.setTime sec) (setTime sec s)

/-- STAGE_CFG (R381). -/
def execStageCfg (data : List Byte) (s : State) : Host.Outcome State Fault Refusal :=
  whenWf (.stageCfg data) (stageCfg data s)

/-- COMMIT_CFG (R379). -/
def execCommitCfg (arg : Word) (s : State) : Host.Outcome State Fault Refusal :=
  whenWf (.commitCfg arg) (commitCfg arg s)

/-- SEAL (R379). -/
def execSealCmd (arg : Word) (s : State) : Host.Outcome State Fault Refusal :=
  whenWf (.sealCmd arg) (sealMeter arg s)

/-- UNSEAL (R379). -/
def execUnsealCmd (arg : Word) (s : State) : Host.Outcome State Fault Refusal :=
  whenWf (.unsealCmd arg) (unsealMeter arg s)

/-- FUSE_BURN_DONE (R382). -/
def execFuseBurnDone (s : State) : Host.Outcome State Fault Refusal :=
  whenWf .fuseBurnDone (fuseBurnDone s)

end Sys2Proof.Machine
end

