-- ==== Sys2Proof/Machine/Ptp.lean ====
section
/-! DEFINITION. The PTP instances (R287 to R293): messages received and sent, offsets and path delay, time steps and
delay steps, and the choice of the master. Times are in 2^-16 ns. Message formats, the default data set comparison and
addresses are those of IEEE 1588 (PRESUMED). -/

namespace Sys2Proof.Machine

/-- An instance: 0 A, 1 B. -/
def State.ptp (s : State) (n : Nat) : Ptp := s.time.ptp.get Ptp.reset n

/-- Stores an instance. -/
def State.setPtp (s : State) (n : Nat) (x : Ptp) : State := { s with time := { s.time with ptp := s.time.ptp.insert n x } }

/-- A runner serves the instance, whose messages runner firmware handles: class 0 or 1 (R288, R365). -/
def State.ptpServed (s : State) (n : Nat) : Bool :=
  (List.range 9).any (fun k => bitAt (s.rd (Reg.SCH_SVC_affinity n)) k && s.runnerRuns k)

/-- The instance's port state. -/
def State.ptpState (s : State) (n : Nat) : Nat := s.rd (Reg.TIM_PTP_STATE_state n)

/-- Writes the port state. -/
def State.setPtpState (s : State) (n v : Nat) : State := s.wr (Reg.TIM_PTP_STATE_state n) v

/-- A message beyond a limit, or one that is not supported, is counted (R287, R288). -/
def State.ptpDrop (s : State) (n : Nat) : State := s.bump (Reg.TIM_PTP_DROP_count n) 1

/-- Units in a second. -/
def sec16 : Int := 10 ^ 9 * 65536

/-! ### Timestamps (R289) -/

/-- The latency constant of a mode in 1/16 ns. -/
def latConst (mode : Nat) (tx : Bool) : Nat :=
  if mode = 2 then (if tx then 3392 else 5408) else if tx then 776 else 1008

/-- TIM_PTPx_LAT follows the port's mode. -/
def State.showLat (s : State) (p : Nat) : State :=
  let m := s.rd (Reg.NT_CFG_mode p)
  (s.wr (Reg.TIM_PTP_LAT_tx p) (latConst m true)).wr (Reg.TIM_PTP_LAT_rx p) (latConst m false)

/-- A receive timestamp at local time t in 1/16 ns, reduced by the latency; `align` is the block-alignment delay measured in
10GBASE-R. In 1/16 ns. -/
def State.rxStamp (s : State) (p : Nat) (t align : Nat) : Int :=
  let m := s.rd (Reg.NT_CFG_mode p)
  (t : Int) - latConst m false - 16 * s.rdS (Reg.TIM_PTP_CORR_rx p) - (if m = 1 then align else 0)

/-- A transmit timestamp at local time t, increased by the latency. In 1/16 ns. -/
def State.txStamp (s : State) (p t : Nat) : Int :=
  (t : Int) + latConst (s.rd (Reg.NT_CFG_mode p)) true + 16 * s.rdS (Reg.TIM_PTP_CORR_tx p)

/-! ### Messages -/

/-- The clock identity: the MAC address with 0xFFFE after its third byte. -/
def State.clockId (s : State) (n : Nat) : Nat :=
  let mac := s.portMac n
  (mac / 2 ^ 24 * 65536 + 0xFFFE) * 2 ^ 24 + mac % 2 ^ 24

/-- The instance's port identity: port number 1. -/
def State.portId (s : State) (n : Nat) : Nat := s.clockId n * 65536 + 1

/-- The timestamp of a message: whole seconds and ns. -/
def stampBytes (t : Int) : List Byte :=
  let ns := (t / 65536).toNat
  beBytes 6 (ns / 10 ^ 9) ++ beBytes 4 (ns % 10 ^ 9)

/-- The fraction of a ns that a timestamp leaves out, as a correction. -/
def stampFrac (t : Int) : Int := t % 65536

/-- The timestamp of ten bytes at an offset. -/
def stampAt (l : List Byte) (off : Nat) : Int := ((be l off 6 * 10 ^ 9 + be l (off + 6) 4 : Nat) : Int) * 65536

/-- The correction of a message. -/
def corrOf (l : List Byte) : Int := (BitVec.ofNat 64 (be l 8 8)).toInt

/-- The logMessageInterval of a message. -/
def logIntOf (l : List Byte) : Int := (BitVec.ofNat 8 (be l 33 1)).toInt

/-- A message has the two-step flag. -/
def twoStep (l : List Byte) : Bool := bitAt (be l 6 1) 1

/-- A message: header and body. -/
def State.ptpMsg (s : State) (n type flags : Nat) (corr : Int) (seq ctl : Nat) (log : Int) (body : List Byte) :
    List Byte :=
  beBytes 1 type ++ beBytes 1 0x12 ++ beBytes 2 (34 + body.length) ++ beBytes 1 (s.rd (Reg.TIM_PTP_CFG_domain n)) ++
    beBytes 1 0 ++ beBytes 2 flags ++ beBytes 8 (BitVec.ofInt 64 corr).toNat ++ beBytes 4 0 ++ beBytes 8 (s.clockId n) ++
    beBytes 2 1 ++ beBytes 2 seq ++ beBytes 1 ctl ++ beBytes 1 (BitVec.ofInt 8 log).toNat ++ body

/-- A message joins egress queue 0 (R276); `peer` for those of the Pdelay exchange, `event` for those that are
timestamped. -/
def State.sendPtp (s : State) (n : Nat) (peer event : Bool) (data : List Byte) (tag : EgTag) : State :=
  let frame :=
    if s.on (Reg.TIM_PTP_CFG_transport n) then
      ethFrame (if peer then 0x0180C200000E else 0x011B19000000) (s.portMac n) 0x88F7 data
    else
      let ip := if peer then 0xE000006B else 0xE0000181
      let port := if event then 319 else 320
      s.udpFrame n (mapMac ip) ip (Config.frameField 2) port port data
  s.joinQueue n 0 ⟨frame, tag⟩

/-! ### Offsets, time steps and delay steps (R290 to R293) -/

/-- An instance holds a valid offset. -/
def State.offValid (s : State) (n : Nat) : Bool := s.on (Reg.TIM_PTP_STATE_valid n)

/-- TIM_XCMP while both instances hold a valid offset (R291). -/
def State.showXcmp (s : State) : State :=
  if s.offValid 0 && s.offValid 1 then
    let d := (s.ptp 0).off - (s.ptp 1).off
    let ovr := decide ((s.rd Reg.TIM_CFG_xcmp_thr : Int) * 1000 * 65536 < d.natAbs)
    let s := s.wrS Reg.TIM_XCMP_ns (sat32 (d / 65536))
    let s := s.setEventIf (ovr && !s.time.xcmpEp) Reg.TIM_EVENT_ev 3
    { s with time := { s.time with xcmpEp := ovr } }
  else s

/-- TIME_STEP (R292): the difference is recorded and the slot is to be disqualified as by a phase jump. -/
def State.timeStep (s : State) (n : Nat) (d : Int) : State :=
  let s := (s.wrS (Reg.TIM_PTP_STEP_ns n) (sat32 (d / 65536))).wr (Reg.TIM_PTP_STATE_stepped n) 1
  let s := (s.setEvent Reg.TIM_EVENT_ev 0).setEventIf (decide (d < 0)) Reg.TIM_EVENT_ev 1
  s.setSlot n { s.slot n with timeStep := true }

/-- An offset is compared with the last accepted one (R292). -/
def State.judgeOffset (s : State) (n : Nat) : State :=
  let x := s.ptp n
  match x.accepted with
  | none => s.setPtp n { x with accepted := some x.off, runS := 0 }
  | some a =>
    if ((x.off - a).natAbs : Int) ≤ s.rd (Reg.TIM_PTP_THR_step_thr n) * 1000 * 65536 then
      s.setPtp n { x with accepted := some x.off, runS := 0 }
    else if x.runS = 0 then s.setPtp n { x with runS := 1 }
    else (s.setPtp n { x with accepted := some x.off, runS := 0 }).timeStep n (x.off - a)

/-- The offset of the last Sync (R290), grandmaster minus local: a phase sample of the instance's slot. -/
def State.newOffset (s : State) (n : Nat) : State :=
  let x := s.ptp n
  let off := x.t1 + x.cs + x.mpd - x.t2
  let s := (s.setPtp n { x with off := off }).wrS (Reg.TIM_PTP_OFS_ns n) (sat32 (off / 65536))
  let s := (s.wr (Reg.TIM_PTP_STATE_valid n) 1).judgeOffset n
  let s := if s.ptpState n = 2 then s.setPtpState n 3 else s
  (if s.slotOn n then s.sampleArrives n off else s).showXcmp

/-- A Sync is complete: its offset is computed once the path delay is known. -/
def State.syncDone (s : State) (n : Nat) (t1 t2 cs : Int) : State :=
  let x := s.ptp n
  let s := s.setPtp n { x with sync := none, t1 := t1, t2 := t2, cs := cs, haveSync := true }
  if x.haveMpd then s.newOffset n else s

/-- delay_step (R293): the offset moves with the mean path delay; the slot builds the change out. -/
def State.delayStep (s : State) (n : Nat) (d : Int) : State :=
  let s := (s.wrS (Reg.TIM_PTP_DSTEP_ns n) (sat32 (d / 65536))).setEvent Reg.TIM_EVENT_ev 2
  let x := s.slot n
  (s.setSlot n { x with delayStep := some (x.delayStep.getD 0 + d) }).showXcmp

/-- A measured path delay (R290). -/
def State.newDelay (s : State) (n : Nat) (raw : Int) : State :=
  let x := s.ptp n
  let d := raw - x.mpd
  let ovr := decide ((s.rd (Reg.TIM_PTP_THR_asym_thr n) : Int) * 65536 < d.natAbs)
  let s :=
    if !x.haveMpd then s.setPtp n { x with mpd := raw, haveMpd := true, runD := 0 }
    else if ovr then
      if x.runD = 3 then (s.setPtp n { x with mpd := raw, runD := 0 }).delayStep n d
      else s.setPtp n { x with runD := x.runD + 1 }
    else s.setPtp n { x with mpd := x.mpd + d / 2 ^ s.rd (Reg.TIM_PTP_CFG_davg n), runD := 0 }
  s.wrS (Reg.TIM_PTP_MPD_ns n) (sat32 ((s.ptp n).mpd / 65536))

/-! ### The choice of the master (R287) -/

/-- Lexicographic order of lists of numbers. -/
def lexLt : List Nat → List Nat → Bool
  | a :: as, b :: bs => decide (a < b) || (a == b && lexLt as bs)
  | [], _ :: _ => true
  | _, [] => false

/-- A record is the better one of two: by its data set, or by its distance from the same grandmaster. -/
def Foreign.better (a b : Foreign) : Bool :=
  if a.gm = b.gm then lexLt [a.steps, a.ident] [b.steps, b.ident]
  else lexLt [a.prio1, a.clkClass, a.accuracy, a.variance, a.prio2, a.gm]
    [b.prio1, b.clkClass, b.accuracy, b.variance, b.prio2, b.gm]

/-- clockClass as advertised (R287). -/
def State.ptpClass (s : State) (n : Nat) : Nat :=
  if s.dst = 2 then s.rd (Reg.TIM_PTP_DS_class_lock n) else s.rd (Reg.TIM_PTP_DS_class_hold n)

/-- The instance's own data set. -/
def State.ownData (s : State) (n : Nat) : Foreign :=
  ⟨s.portId n, s.rd (Reg.TIM_PTP_DS_prio1 n), s.ptpClass n, 0xFE, Config.frameField 4 % 65536,
    s.rd (Reg.TIM_PTP_DS_prio2 n), s.clockId n, 0, 2⟩

/-- The best master of those that were heard twice. -/
def bestOf (l : List Foreign) : Option Foreign :=
  (l.filter (fun f => f.heard == 2)).foldl (fun (b : Option Foreign) f =>
    match b with
    | none => some f
    | some g => if f.better g then some f else b) none

/-- The grandmaster's identity; a change sets gm_change (R291). -/
def State.setGm (s : State) (n id : Nat) : State :=
  let s := s.setEventIf (s.rd64 (Reg.TIM_PTP_GM_LO_id n) (Reg.TIM_PTP_GM_HI_id n) != id) Reg.TIM_EVENT_ev 4
  s.wr64 (Reg.TIM_PTP_GM_LO_id n) (Reg.TIM_PTP_GM_HI_id n) id

/-- An exchange with a master ends, and with it the validity of its offset. -/
def State.dropMaster (s : State) (n st : Nat) : State :=
  let x := s.ptp n
  let s := s.setPtp n { x with
    master := none, sync := none, haveSync := false, t3 := none, pd := none, accepted := none, runS := 0, active := false }
  (s.wr (Reg.TIM_PTP_STATE_valid n) 0).setPtpState n st

/-- Follows a master. -/
def State.follow (s : State) (n : Nat) (f : Foreign) : State :=
  let s := if (s.ptp n).master = some f.ident ∧ (s.ptpState n = 2 ∨ s.ptpState n = 3) then s
    else
      let s := s.dropMaster n 2
      s.setPtp n { s.ptp n with master := some f.ident }
  s.setGm n f.gm

/-- Becomes master. -/
def State.becomeMaster (s : State) (n : Nat) : State :=
  let s := if s.ptpState n = 5 then s else s.dropMaster n 5
  s.setGm n (s.clockId n)

/-- The state decision. -/
def State.bmca (s : State) (n : Nat) : State :=
  match bestOf (s.ptp n).foreign with
  | none => s
  | some f =>
    if s.rd (Reg.TIM_PTP_CFG_role n) = 1 then s.follow n f
    else
      let own := s.ownData n
      if own.better f then s.becomeMaster n
      else if own.clkClass ≤ 127 ∧ 1 ≤ own.clkClass then
        (if s.ptpState n = 6 then s else s.dropMaster n 6).setGm n f.gm
      else s.follow n f

/-- The number of foreign masters. -/
def State.showForeign (s : State) (n : Nat) : State :=
  s.wr (Reg.TIM_PTP_STATE_foreign n) (s.ptp n).foreign.length

/-- ANNOUNCE_TIMEOUT (R288, R290): no Sync makes the slot inactive. Where no Announce came either, a slave-only instance listens
again and a master-capable one becomes master. -/
def announceTimeout (n : Nat) (announces : Bool) (s : State) : State :=
  let x := s.ptp n
  let s := s.setPtp n { x with active := false }
  let st := s.ptpState n
  if !announces || st = 0 || st = 5 || !s.ptpServed n then s
  else
    let s := (s.setPtp n { s.ptp n with foreign := x.foreign.filter (fun f => some f.ident != x.master) }).showForeign n
    if s.rd (Reg.TIM_PTP_CFG_role n) = 2 then s.becomeMaster n else s.dropMaster n 1

/-- The role of an instance was written: 0 disables it, any other starts it listening; a slave-only instance is no master,
nor passive (R287). -/
def State.ptpRole (s : State) (n : Nat) : State :=
  if s.rd (Reg.TIM_PTP_CFG_role n) = 0 then
    ((s.dropMaster n 0).setPtp n { Ptp.reset with seqSync := (s.ptp n).seqSync, seqAnn := (s.ptp n).seqAnn
                                                  seqDreq := (s.ptp n).seqDreq }).showForeign n
  else if s.ptpState n = 0 then s.setPtpState n 1
  else if s.rd (Reg.TIM_PTP_CFG_role n) = 1 ∧ 5 ≤ s.ptpState n then s.dropMaster n 1
  else s

/-! ### Messages received -/

/-- The port identity that sent a message. -/
def sourceOf (l : List Byte) : Nat := be l 20 10

/-- The sequence number of a message. -/
def seqOf (l : List Byte) : Nat := be l 30 2

/-- A message comes from the master followed. -/
def State.fromMaster (s : State) (n : Nat) (l : List Byte) : Bool :=
  (s.ptpState n == 2 || s.ptpState n == 3) && (s.ptp n).master == some (sourceOf l)

/-- PTP_SYNC (R290). -/
def State.ptpSync (s : State) (n : Nat) (t : Int) (l : List Byte) : State :=
  if !s.fromMaster n l then s
  else if logIntOf l < -7 ∨ 1 < logIntOf l then s.ptpDrop n
  else
    let s := s.setPtp n { s.ptp n with active := true }
    if twoStep l then s.setPtp n { s.ptp n with sync := some (seqOf l, t, corrOf l) }
    else s.syncDone n (stampAt l 34) t (corrOf l)

/-- PTP_FOLLOW_UP (R287). -/
def State.ptpFollowUp (s : State) (n : Nat) (l : List Byte) : State :=
  match (s.ptp n).sync with
  | none => s
  | some (seq, t2, c) =>
    if s.fromMaster n l && seq == seqOf l then s.syncDone n (stampAt l 34) t2 (c + corrOf l) else s

/-- PTP_DELAY_RESP (R288, R290), end-to-end. -/
def State.ptpDelayResp (s : State) (n : Nat) (l : List Byte) : State :=
  let x := s.ptp n
  match x.t3 with
  | none => s
  | some (seq, t3) =>
    if !s.on (Reg.TIM_PTP_CFG_dmech n) && s.fromMaster n l && be l 44 10 == s.portId n && seq == seqOf l then
      if logIntOf l < -7 ∨ 5 < logIntOf l then s.ptpDrop n
      else if !x.haveSync then s
      else (s.setPtp n { x with t3 := none }).newDelay n
        (((x.t2 - x.t1 - x.cs) + (stampAt l 34 - t3 - corrOf l)) / 2)
    else s

/-- A requester may be answered: 64 of them in a second, each 16 times (R288). -/
def State.limited (s : State) (n : Nat) (t : Int) (l : List Byte) : Bool × State :=
  let x := s.ptp n
  let sec := (t / sec16).toNat
  let live := x.slaves.filter (fun e => e.2.1 == sec)
  match live.find? (fun e => e.1 == sourceOf l) with
  | some e =>
    if 16 ≤ e.2.2 then (false, s.ptpDrop n)
    else (true, s.setPtp n { x with slaves := live.map (fun f => if f.1 = e.1 then (f.1, f.2.1, f.2.2 + 1) else f) })
  | none =>
    if 64 ≤ live.length then (false, s.ptpDrop n)
    else (true, s.setPtp n { x with slaves := live ++ [(sourceOf l, sec, 1)] })

/-- PTP_DELAY_REQ (R287): a master answers. -/
def State.ptpDelayReq (s : State) (n : Nat) (t : Int) (l : List Byte) : State :=
  if s.ptpState n != 5 || s.on (Reg.TIM_PTP_CFG_dmech n) then s
  else
    let a := s.limited n t l
    if a.1 then
      a.2.sendPtp n false false (a.2.ptpMsg n 9 0 (corrOf l - stampFrac t) (seqOf l) 3
        (a.2.rdS (Reg.TIM_PTP_INTV_log_dreq n)) (stampBytes t ++ beBytes 10 (sourceOf l))) .plain
    else a.2

/-- A Pdelay_Req is answered, its follow-up when the answer has left. -/
def State.ptpPdelayReq (s : State) (n : Nat) (t : Int) (l : List Byte) : State :=
  if !s.on (Reg.TIM_PTP_CFG_dmech n) then s
  else
    let a := s.limited n t l
    if a.1 then
      a.2.sendPtp n true true (a.2.ptpMsg n 3 0x0200 (-stampFrac t) (seqOf l) 5 0x7F
        (stampBytes t ++ beBytes 10 (sourceOf l))) (.pdelayResp (sourceOf l) (seqOf l))
    else a.2

/-- A Pdelay_Resp: one-step, its correction holds the turnaround; two-step, its follow-up is awaited. -/
def State.ptpPdelayResp (s : State) (n : Nat) (t : Int) (l : List Byte) : State :=
  let x := s.ptp n
  match x.t3 with
  | none => s
  | some (seq, t1) =>
    if s.on (Reg.TIM_PTP_CFG_dmech n) && be l 44 10 == s.portId n && seq == seqOf l then
      if twoStep l then s.setPtp n { x with pd := some (seq, stampAt l 34, t, corrOf l) }
      else (s.setPtp n { x with t3 := none }).newDelay n ((t - t1 - corrOf l) / 2)
    else s

/-- A Pdelay_Resp_Follow_Up. -/
def State.ptpPdelayFollow (s : State) (n : Nat) (l : List Byte) : State :=
  let x := s.ptp n
  match x.t3, x.pd with
  | some (seq, t1), some (seq2, t2, t4, c) =>
    if s.on (Reg.TIM_PTP_CFG_dmech n) && be l 44 10 == s.portId n && seq == seqOf l && seq2 == seq then
      (s.setPtp n { x with t3 := none, pd := none }).newDelay n
        (((t4 - t1) - (stampAt l 34 - t2) - c - corrOf l) / 2)
    else s
  | _, _ => s

/-- PTP_ANNOUNCE (R287): foreign master records and the BMCA. -/
def State.ptpAnnounce (s : State) (n : Nat) (l : List Byte) : State :=
  let id := sourceOf l
  if id = s.portId n then s
  else if logIntOf l < -3 ∨ 3 < logIntOf l then s.ptpDrop n
  else
    let x := s.ptp n
    let f (heard : Nat) : Foreign :=
      ⟨id, be l 47 1, be l 48 1, be l 49 1, be l 50 2, be l 52 1, be l 53 8, be l 61 2, heard⟩
    if x.foreign.any (fun g => g.ident == id) then
      (s.setPtp n { x with foreign := x.foreign.map (fun g => if g.ident = id then f 2 else g) }).bmca n
    else if 8 ≤ x.foreign.length then s.ptpDrop n
    else (s.setPtp n { x with foreign := x.foreign ++ [f 1] }).showForeign n

/-- An event message counts toward those of the second (R288). -/
def State.countEvent (s : State) (n : Nat) (t : Int) : Bool × State :=
  let x := s.ptp n
  let sec := (t / sec16).toNat
  let k := if x.evSec = sec then x.evCount + 1 else 1
  if 2048 < k then (false, s.ptpDrop n) else (true, s.setPtp n { x with evSec := sec, evCount := k })

/-- A PTP message received at a timestamp, while a runner serves the instance. -/
def State.ptpReceive (s : State) (n : Nat) (t : Int) (l : List Byte) : State :=
  let type := be l 0 1 % 16
  if s.ptpState n = 0 ∨ !s.ptpServed n ∨ l.length < 34 ∨ be l 1 1 % 16 ≠ 2 ∨ be l 4 1 ≠ s.rd (Reg.TIM_PTP_CFG_domain n) then s
  else
    let a := if type < 4 then s.countEvent n t else (true, s)
    if !a.1 then a.2
    else
      let s := a.2
      match type with
      | 0 => s.ptpSync n t l
      | 1 => s.ptpDelayReq n t l
      | 2 => s.ptpPdelayReq n t l
      | 3 => s.ptpPdelayResp n t l
      | 8 => s.ptpFollowUp n l
      | 9 => s.ptpDelayResp n l
      | 10 => s.ptpPdelayFollow n l
      | 11 => s.ptpAnnounce n l
      | 12 => s.ptpDrop n
      | 13 => s.ptpDrop n
      | _ => s

/-! ### Messages sent -/

/-- PTP_SYNC_TRANSMIT (R287): a master's Sync; its Follow_Up is sent when its transmit time is known. -/
def ptpSyncTransmit (n : Nat) (s : State) : State :=
  if s.ptpState n = 5 ∧ s.ptpServed n then
    let x := s.ptp n
    (s.setPtp n { x with seqSync := (x.seqSync + 1) % 65536 }).sendPtp n false true
      (s.ptpMsg n 0 0x0200 0 x.seqSync 0 (s.rdS (Reg.TIM_PTP_INTV_log_sync n)) (List.replicate 10 0)) (.sync x.seqSync)
  else s

/-- PTP_ANNOUNCE_TRANSMIT (R287). -/
def ptpAnnounceTransmit (n : Nat) (s : State) : State :=
  if s.ptpState n = 5 ∧ s.ptpServed n then
    let x := s.ptp n
    let d := s.ownData n
    let body := List.replicate 10 0 ++ beBytes 2 (Config.frameField 5) ++ beBytes 1 0 ++ beBytes 1 d.prio1 ++
      beBytes 1 d.clkClass ++ beBytes 1 d.accuracy ++ beBytes 2 d.variance ++ beBytes 1 d.prio2 ++ beBytes 8 d.gm ++
      beBytes 2 0 ++ beBytes 1 (Config.frameField 6)
    (s.setPtp n { x with seqAnn := (x.seqAnn + 1) % 65536 }).sendPtp n false false
      (s.ptpMsg n 11 (Config.frameField 7) 0 x.seqAnn 5 (s.rdS (Reg.TIM_PTP_INTV_log_ann n)) body) .plain
  else s

/-- PTP_DELAY_REQ_TRANSMIT (R290): a Delay_Req of a slave, or a Pdelay_Req. -/
def ptpDelayReqTransmit (n : Nat) (s : State) : State :=
  let st := s.ptpState n
  let x := s.ptp n
  let t := (s.setPtp n { x with seqDreq := (x.seqDreq + 1) % 65536, t3 := none, pd := none })
  if !s.ptpServed n then s
  else if s.on (Reg.TIM_PTP_CFG_dmech n) then
    if st = 0 ∨ st = 7 then s
    else t.sendPtp n true true (s.ptpMsg n 2 0 0 x.seqDreq 5 0x7F (List.replicate 20 0)) (.delayReq x.seqDreq)
  else if st = 2 ∨ st = 3 then
    t.sendPtp n false true (s.ptpMsg n 1 0 0 x.seqDreq 1 0x7F (List.replicate 10 0)) (.delayReq x.seqDreq)
  else s

/-- A frame of queue 0 has left at a timestamp, in 2^-16 ns (R289). -/
def State.ptpSent (s : State) (n : Nat) (tag : EgTag) (t : Int) : State :=
  match tag with
  | .sync seq =>
    s.sendPtp n false false (s.ptpMsg n 8 0 (stampFrac t) seq 2 (s.rdS (Reg.TIM_PTP_INTV_log_sync n)) (stampBytes t)) .plain
  | .delayReq seq => s.setPtp n { s.ptp n with t3 := some (seq, t) }
  | .pdelayResp dest seq =>
    s.sendPtp n true false (s.ptpMsg n 10 0 (stampFrac t) seq 5 0x7F (stampBytes t ++ beBytes 10 dest)) .plain
  | _ => s

/-- The local clock is set, or stepped by d: what an exchange in progress measured against it moves along, or is
dropped by a set (R284, R294). -/
def State.ptpStepped (s : State) (d : Int) : State :=
  [0, 1].foldl (fun s n =>
    let x := s.ptp n
    let s := s.setPtp n { x with
      sync := x.sync.map (fun e => (e.1, e.2.1 + d, e.2.2))
      t2 := x.t2 + d
      t3 := x.t3.map (fun e => (e.1, e.2 + d))
      pd := x.pd.map (fun e => (e.1, e.2.1, e.2.2.1 + d, e.2.2.2))
      off := x.off - d
      accepted := x.accepted.map (fun a => a - d) }
    if s.offValid n then s.wrS (Reg.TIM_PTP_OFS_ns n) (sat32 ((s.ptp n).off / 65536)) else s) s

/-- ANNOUNCE_TIMEOUT (R290). -/
def execAnnounceTimeout (inst : Nat) (announces : Bool) (s : State) : Host.Outcome State Fault Refusal :=
  whenWf (.announceTimeout inst announces) (announceTimeout inst announces s)

/-- PTP_SYNC_TRANSMIT (R287). -/
def execPtpSyncTransmit (inst : Nat) (s : State) : Host.Outcome State Fault Refusal :=
  whenWf (.ptpSyncTransmit inst) (ptpSyncTransmit inst s)

/-- PTP_DELAY_REQ_TRANSMIT (R290). -/
def execPtpDelayReqTransmit (inst : Nat) (s : State) : Host.Outcome State Fault Refusal :=
  whenWf (.ptpDelayReqTransmit inst) (ptpDelayReqTransmit inst s)

/-- PTP_ANNOUNCE_TRANSMIT (R287). -/
def execPtpAnnounceTransmit (inst : Nat) (s : State) : Host.Outcome State Fault Refusal :=
  whenWf (.ptpAnnounceTransmit inst) (ptpAnnounceTransmit inst s)

end Sys2Proof.Machine
end

