-- ==== Sys2Proof/Machine/Net.lean ====
section
/-! DEFINITION. The network ports (R255 to R257, R263, R264, R270 to R277): reception and its classification, media packets
in and out, host frames, egress, IGMP, links, modules and I2C. -/

namespace Sys2Proof.Machine

/-! ### A received frame's form -/

/-- A frame carries a VLAN tag. -/
def isTagged (l : List Byte) : Bool := be l 12 2 == 0x8100

/-- A frame without its tag. -/
def untag (l : List Byte) : List Byte := l.take 12 ++ l.drop 16

/-- Row 1 of R263: FCS error, runt, oversize. -/
def State.frameBad (s : State) (p : Nat) (l : List Byte) : Bool :=
  decide (l.length < 64) || decide (s.maxBytes p (isTagged l) < l.length) ||
    fcs (l.take (l.length - 4)) != l.drop (l.length - 4)

/-- An IPv4 packet without options and fragmentation (R257). -/
def plainIp (l : List Byte) : Bool :=
  be l 12 2 == 0x0800 && be l 14 1 == 0x45 && decide (be l 20 2 % 0x4000 = 0)

/-- A UDP datagram in such a packet. -/
def isUdp (l : List Byte) : Bool := plainIp l && be l 23 1 == 17

/-- The payload of the datagram. -/
def udpPayload (l : List Byte) : List Byte := (l.drop 42).take (be l 38 2 - 8)

/-- The datagram's checksum is 0 or right. -/
def udpSumOk (l : List Byte) : Bool :=
  be l 40 2 == 0 ||
    fold16 (sum16 ((l.drop 26).take 8) + 17 + be l 38 2 + sum16 ((l.drop 34).take (be l 38 2))) == 0xFFFF

/-! ### Host frames (R275) -/

/-- HOST_FRAME_DELIVER (R194, R275): a frame and its time in ns go into the oldest posted buffer, or the frame is dropped. -/
def State.hostFrame (s : State) (p : Nat) (t : Int) (l : List Byte) : State :=
  let r := s.rd (Reg.NT_CFG_rx_ring p)
  match s.buffer r 6 with
  | none => (s.bump (Reg.NT_RX_DROP_count p) 1).setEvent (Reg.NT_EVENT_ev p) 4
  | some d =>
    let ns := (t / 16).toNat
    s.deliver r d l [(4, BitVec.ofNat 32 (p + 2)), (5, BitVec.ofNat 32 l.length),
      (6, BitVec.ofNat 32 ns), (7, BitVec.ofNat 32 (ns / 2 ^ 32))]

/-- A frame for the host by its destination address (R263 row 6, R275). -/
def State.forHost (s : State) (p : Nat) (l : List Byte) : Bool :=
  let dst := be l 0 6
  if dst = 2 ^ 48 - 1 then s.on (Reg.NT_CFG_bcast p)
  else if dst / 2 ^ 40 % 2 = 1 then
    match s.rd (Reg.NT_CFG_mcast p) with
    | 1 => (s.nport p).mcast.any (fun e => e.2 == dst + 2 ^ 48)
    | 2 => true
    | _ => false
  else dst == s.portMac p

/-! ### IGMP (R277) -/

/-- The enabled receive contexts that use a port with a multicast destination. -/
def State.groupCtx (s : State) (p : Nat) : List Nat :=
  (s.net.ctx.map (·.1)).filter (fun c => decide (c < 512) && s.cst c != 0 && s.cst c != 6 && s.cPath c p &&
    multicast (s.cDst c p))

/-- The source filter of a context on a port. -/
def State.cSrc (s : State) (c p : Nat) : Nat := s.cr c (if p = 0 then Reg.STM_SRC_A_addr else Reg.STM_SRC_B_addr)

/-- IGMP_QUERY_ANSWER (R277): for every group, or for the group that the query names. -/
def State.igmpAnswer (s : State) (p : Nat) (l : List Byte) : State :=
  let h := 14 + 4 * (be l 14 1 % 16)
  if be l h 1 ≠ 0x11 then s
  else
    let g := be l (h + 4) 4
    ((s.groupCtx p).filter (fun c => g == 0 || s.cDst c p == g)).foldl
      (fun s c => s.sendReport p .isMember (s.cDst c p) (s.cSrc c p)) s

/-- IGMP_REPORT (R277): the destination group of a receive context on each of its paths. -/
def igmpReport (c : Nat) (s : State) : State :=
  [0, 1].foldl (fun s p =>
    if (s.groupCtx p).contains c then
      let x := s.nport p
      let g := s.cDst c p
      let s := s.setNport p { x with groups := if x.groups.contains g then x.groups else x.groups ++ [g] }
      s.sendReport p .join g (s.cSrc c p)
    else s) s

/-! ### Media packets received (R259, R264, R270) -/

/-- The payload of an RTP packet after its CSRC entries and its extension. -/
def rtpPayload (l : List Byte) : List Byte :=
  let h := 12 + 4 * (be l 0 1 % 16)
  if bitAt (be l 0 1) 4 then l.drop (h + 4 + 4 * be l (h + 2) 2) else l.drop h

/-- The bits of an AM824 label: V + 2 U + 4 C + 8 Z; the block start stands in bit 5, C in bit 2, U in bit 1, V in
bit 0 (PRESUMED: SMPTE ST 2110-31). -/
def labelBits (b : Nat) : Nat := b % 8 / 4 * 4 + b % 4 / 2 * 2 + b % 2 + b / 32 % 2 * 8

/-- One word of a payload. -/
def wordIn (enc : Nat) (l : List Byte) : A48 × Nat :=
  match enc with
  | 0 => (pcmIn 16 (be l 0 2), 0)
  | 1 => (pcmIn 24 (be l 0 3), 0)
  | _ => (pcmIn 24 (be l 1 3), labelBits (be l 0 1))

/-- n words of w bytes. -/
def wordsIn (enc w : Nat) : Nat → List Byte → List (A48 × Nat)
  | 0, _ => []
  | n + 1, l => wordIn enc l :: wordsIn enc w n (l.drop w)

/-- p frames of n words of w bytes. -/
def framesIn (enc w n : Nat) : Nat → List Byte → List (List (A48 × Nat))
  | 0, _ => []
  | p + 1, l => wordsIn enc w n l :: framesIn enc w n p (l.drop (n * w))

/-- A packet breaks the form of its context (R257, R264). -/
def State.formError (s : State) (c : Nat) (l : List Byte) : Bool :=
  let rtp := udpPayload l
  be rtp 0 1 / 64 != 2 || be rtp 1 1 % 128 != s.cr c Reg.STM_RTP_pt ||
    (s.cr c Reg.STM_CFG_ssrc_en == 1 && be rtp 8 4 != s.cr c Reg.STM_SSRC_ssrc) ||
    (rtpPayload rtp).length != s.cPayload c || !udpSumOk l

/-- MEDIA_PACKET (R264, R269): a path is up once a packet is offered, also one that breaks the form; `t` is its arrival in 1/16 ns. -/
def State.mediaPacket (s : State) (c p : Nat) (t : Int) (l : List Byte) : State :=
  let s := s.pathOffered c p
  if s.formError c l then s.cbump c Reg.STM_FORM_count 1
  else
    let rtp := udpPayload l
    s.offerPacket c p (be rtp 4 4) (framesIn (s.cr c Reg.STM_CFG_enc) (s.cBytes c) (s.cNch c) (s.cP c) (rtpPayload rtp)) (t / 16)

/-- The receive context that a datagram matches on a port (R263 row 4). -/
def State.mediaCtx (s : State) (p : Nat) (l : List Byte) : Option Nat :=
  (s.net.ctx.map (·.1)).find? (fun c => decide (c < 512) && s.cst c != 0 && s.cst c != 5 && s.cPath c p &&
    s.cDst c p == be l 30 4 && s.cr c Reg.STM_UDP_dst_port == be l 36 2 &&
    (s.cSrc c p == 0 || s.cSrc c p == be l 26 4))

/-! ### Classification (R263) -/

/-- A PTP message: 802.3 or IPv4 UDP to port 319 or 320; the IPv4 header may carry options (R257 bars them for media alone). -/
def ptpPayload (l : List Byte) : Option (List Byte) :=
  let u := 14 + 4 * (be l 14 1 % 16)
  if be l 12 2 = 0x88F7 then some (l.drop 14)
  else if be l 12 2 = 0x0800 ∧ be l 14 1 / 16 = 4 ∧ be l 20 2 % 0x2000 = 0 ∧ be l 23 1 = 17 ∧
      (be l (u + 2) 2 = 319 ∨ be l (u + 2) 2 = 320) then
    some ((l.drop (u + 8)).take (be l (u + 4) 2 - 8))
  else none

/-- The instance takes a message of its own transport, over UDP only from a multicast address (R287). -/
def State.ptpTakes (s : State) (p : Nat) (l : List Byte) : Bool :=
  if s.on (Reg.TIM_PTP_CFG_transport p) then be l 12 2 == 0x88F7 else be l 12 2 == 0x0800 && multicast (be l 30 4)

/-- Rows 3 to 7 of R263 for a frame without a tag; `t` in 1/16 ns. -/
def State.classify (s : State) (p : Nat) (t : Int) (l : List Byte) : State :=
  match ptpPayload l with
  | some m => if s.ptpTakes p l then s.ptpReceive p (t * 4096) m else s
  | none =>
    match if isUdp l then s.mediaCtx p l else none with
    | some c => s.mediaPacket c p t l
    | none =>
      if be l 12 2 = 0x0800 ∧ be l 23 1 = 2 then (s.igmpAnswer p l).hostFrame p t l
      else if s.forHost p l then s.hostFrame p t l
      else s.bump (Reg.NT_RX_DROP_count p) 1

/-- NETWORK_FRAME_RECEIVE (R263): a frame with its FCS whose start passes the port a number of cycles and sixteenths of a ns
after the local clock's last value; `align` as R289 measures it. -/
def networkFrameReceive (p cyc sub align : Nat) (frame : List Byte) (s : State) : State :=
  if !s.netUp p then s
  else if s.frameBad p frame then s.bump (Reg.NT_RX_DROP_count p) 1
  else
    let s := s.bump (Reg.NT_RX_FRAMES_count p) 1
    let l := frame.take (frame.length - 4)
    let t := s.rxStamp p (s.time16 cyc sub) align
    if isTagged l then
      if s.on (Reg.NT_VLAN_en p) && be l 14 2 % 4096 == s.rd (Reg.NT_VLAN_vid p) then s.classify p t (untag l)
      else s.hostFrame p t l
    else s.classify p t l

/-! ### Media packets sent (R271 to R273) -/

/-- The label of a subframe: block start in bit 5, first subframe in bit 4, even parity in bit 3, C, U and V. -/
def labelOut (bits : Nat) (ch : Nat) (d : BitVec 24) : Nat :=
  let z := b2n (bitAt bits 3 && ch % 2 == 0)
  let ones := (List.range 24).foldl (fun a i => a + b2n (d.getLsbD i)) (b2n (bitAt bits 0) + b2n (bitAt bits 1) +
    b2n (bitAt bits 2))
  z * 32 + (1 - ch % 2) * 16 + ones % 2 * 8 + b2n (bitAt bits 2) * 4 + b2n (bitAt bits 1) * 2 + b2n (bitAt bits 0)

/-- One word of a payload. -/
def Ctx.wordOut (x : Ctx) (enc : Nat) (m : Int) (ch : Nat) : List Byte :=
  let v := x.buf.get 0 (bufKey m ch)
  match enc with
  | 0 => beBytes 2 (pcmOut 16 v).toNat
  | 1 => beBytes 3 (pcmOut 24 v).toNat
  | _ =>
    let d := pcmOut 24 v
    beBytes 1 (labelOut (x.bits.get 0 (bufKey m ch) % 16) ch d) ++ beBytes 3 d.toNat

/-- The frames of n counts from m up. -/
def Ctx.payloadOut (x : Ctx) (enc nch : Nat) : Nat → Int → List Byte
  | 0, _ => []
  | n + 1, m => (List.range nch).flatMap (x.wordOut enc m) ++ x.payloadOut enc nch n (m + 1)

/-- The destination MAC of a transmit context on a port. -/
def State.cMac (s : State) (c p : Nat) : Nat :=
  let mac := s.cr c Reg.STM_DMAC_LO_mac + 2 ^ 32 * s.cr c Reg.STM_DMAC_HI_mac
  if mac = 0 then mapMac (s.cDst c p) else mac

/-- The RTP packet of a context's next counts (R257, R260, R271). -/
def State.rtpPacket (s : State) (c : Nat) (payload : List Byte) : List Byte :=
  let x := s.ctx c
  beBytes 1 0x80 ++ beBytes 1 (s.cr c Reg.STM_RTP_pt) ++ beBytes 2 (x.seq % 65536) ++
    beBytes 4 ((x.m0 + s.time.anchor + s.cr c Reg.STM_RTP_OFS_ofs) % 2 ^ 32).toNat ++
    beBytes 4 (s.cr c Reg.STM_SSRC_ssrc) ++ payload

/-- The instant at which a packet is due (R271), in 2^-32 ns. -/
def State.dueTime (s : State) (c : Nat) : Int :=
  ((s.ctx c).m0 + s.cP c + 1 + s.time.anchor) * (10 ^ 9 * 2 ^ 32) / s.fs

/-- A media packet joins its queue before the packets of higher contexts that are due at the same instant (R271). -/
def mediaJoin (due : Int) (c : Nat) (f : EgFrame) : List EgFrame → List EgFrame
  | [] => [f]
  | g :: t =>
    match g.tag with
    | .media d k => if d = due ∧ c < k then f :: g :: t else g :: mediaJoin due c f t
    | _ => g :: mediaJoin due c f t

/-- The packet is queued on a port that the context uses (R271, R272). -/
def State.queuePacket (s : State) (c p : Nat) (rtp : List Byte) (due : Int) : State :=
  if s.cPath c p then
    let f := s.udpFrame p (s.cMac c p) (s.cDst c p) (s.cr c Reg.STM_RTP_dscp) (s.cr c Reg.STM_UDP_src_port)
      (s.cr c Reg.STM_UDP_dst_port) rtp
    let x := s.nport p
    s.setNport p { x with queues := x.queues.insert 1 (mediaJoin due c ⟨f, .media due c⟩ (x.queues.get [] 1)) }
  else s

/-- The context's packet falls due by the end of the running lap. -/
def State.packetDue (s : State) (c : Nat) : Bool :=
  s.run && !s.on Reg.SYN_STATUS_gated && s.cst c != 0 && s.cst c != 5 &&
    decide ((s.ctx c).m0 + s.cP c + 1 < ((s.lap : Int) + 1) * s.nLap)

/-- PACKET_TRANSMIT (R271): of transmit context n. The last packet of a disabled context holds the end of its fade
(R262). -/
def packetTransmit (n : Nat) (s : State) : State :=
  let c := 512 + n
  if !s.packetDue c then s
  else
    let x := s.ctx c
    let rtp := s.rtpPacket c (x.payloadOut (s.cr c Reg.STM_CFG_enc) (s.cNch c) (s.cP c) x.m0)
    let due := s.dueTime c
    let s := (s.queuePacket c 0 rtp due).queuePacket c 1 rtp due
    let next := x.m0 + s.cP c
    let sent (k : Nat) : Bool := (List.range (s.cP c)).any (fun (i : Nat) => k / 64 == ((x.m0 + i) % 2 ^ 31).toNat)
    let s := s.setCtx c { x with m0 := next, seq := (x.seq + 1) % 65536, buf := x.buf.drop sent, bits := x.bits.drop sent }
    if s.cst c = 6 ∧ ((x.stopAt : Int) - 1) * s.nLap + 32 ≤ next then s.dropCtx c else s

/-! ### Host frames sent (R194, R276) -/

/-- The ports of FRAME_TX's port field. -/
def txPorts (code : Nat) : List Nat := if code = 2 then [0, 1] else [code]

/-- FRAME_TX (R194, R276): `data` is what host memory holds of the segments. The descriptor completes when the frame has
left, on port A where it goes to both. -/
def frameTx (r : Nat) (data : List Byte) (s : State) : State :=
  if !s.ringRuns r || !s.on Reg.HST_STATUS_bme then s
  else
    match s.oldest r 0x0C .taken with
    | none => s
    | some d =>
      if data.length ≠ chainBytes d.segs then s
      else
        let w := d.word 4
        let ports := bitsOf w 0 2
        let q := bitsOf w 2 3
        if ports = 3 ∨ 6 ≤ q then s.complete r d.id 0x43 0 0 []
        else
          let s := s.setDesc r { d with stage := .active }
          ((txPorts ports).zipIdx).foldl (fun s e =>
            s.joinQueue e.1 (2 + q) ⟨data, if e.2 = 0 then .host r d.id (bitAt w 5) else .hostCopy r d.id⟩) s

/-- A frame as it stands on the wire (R275): the port's tag where one is in use and the frame has none, the padding of a
short frame, and the FCS. -/
def State.onWire (s : State) (p : Nat) (l : List Byte) : List Byte :=
  let l := if s.on (Reg.NT_VLAN_en p) && !isTagged l then
      l.take 12 ++ beBytes 2 0x8100 ++ beBytes 2 (s.rd (Reg.NT_VLAN_pcp p) * 8192 + s.rd (Reg.NT_VLAN_vid p)) ++ l.drop 12
    else l
  let l := l ++ List.replicate (60 - l.length) 0
  l ++ fcs l

/-- The first frame in the order of R276, and the queue that holds it. -/
def NetPort.next (x : NetPort) : Option (Nat × EgFrame) :=
  (List.range 8).findSome? (fun q => (x.queues.get [] q).head?.map (fun f => (q, f)))

/-- What follows a frame's departure at local time t in 1/16 ns. -/
def State.frameSent (s : State) (p : Nat) (f : EgFrame) (cyc t : Nat) : State :=
  match f.tag with
  | .plain => s
  | .hostCopy _ _ => s
  | .media due _ =>
    let ns := (((s.clockAt cyc : Int) - due) / 2 ^ 32).toNat
    s.wr (Reg.NT_EGRESS_MAX_ns p) (max (s.rd (Reg.NT_EGRESS_MAX_ns p)) (min ns (2 ^ 32 - 1)))
  | .host r id ts =>
    let ns := if ts then (s.txStamp p t / 16).toNat else 0
    s.complete r id 0x40 0 0 [(6, BitVec.ofNat 32 ns), (7, BitVec.ofNat 32 (ns / 2 ^ 32))]
  | tag => s.ptpSent p tag (s.txStamp p t * 4096)

/-- EGRESS_FRAME (R276): the port is idle and sends its next frame. -/
def egressFrame (p cyc sub : Nat) (s : State) : State :=
  if !s.netUp p then s
  else
    let x := s.nport p
    match x.next with
    | none => s
    | some (q, f) =>
      let s := s.setNport p { x with queues := x.queues.put [] q ((x.queues.get [] q).drop 1) }
      let s := (s.emit (.frame p (s.onWire p f.bytes))).bump (Reg.NT_TX_FRAMES_count p) 1
      s.frameSent p f cyc (s.time16 cyc sub)

/-! ### Links, modules and I2C (R255, R256) -/

/-- LINK_CHANGE (R255). -/
def linkChange (p : Nat) (up : Bool) (s : State) : State :=
  if s.on (Reg.NT_STATUS_link p) == up || (up && s.rd (Reg.NT_CFG_mode p) == 0) then s
  else (s.wr (Reg.NT_STATUS_link p) (b2n up)).setEvent (Reg.NT_EVENT_ev p) 0

/-- SFP_SIGNAL_CHANGE (R255). -/
def sfpSignalChange (p : Nat) (los abs : Bool) (s : State) : State :=
  if s.on (Reg.NT_STATUS_los p) == los && s.on (Reg.NT_STATUS_mod_abs p) == abs then s
  else ((s.wr (Reg.NT_STATUS_los p) (b2n los)).wr (Reg.NT_STATUS_mod_abs p) (b2n abs)).setEvent (Reg.NT_EVENT_ev p) 1

/-- I2C_GO (R256): ignored while a transfer runs. -/
def i2cGo (p : Nat) (val : Word) (s : State) : State :=
  if !val.getLsbD 24 || s.on (Reg.NT_I2C_STAT_busy p) then s
  else
    let s := (s.writePlain true (Reg.NT_I2C_dev p).off val).wr (Reg.NT_I2C_STAT_busy p) 1
    s.emit (.i2c p (s.rd (Reg.NT_I2C_dev p)) (s.on (Reg.NT_I2C_read p)) (s.rd (Reg.NT_I2C_reg p)) (s.rd (Reg.NT_I2C_wdata p)))

/-- I2C_DONE (R256). -/
def i2cDone (p : Nat) (rdata : Byte) (nack : Bool) (s : State) : State :=
  if !s.on (Reg.NT_I2C_STAT_busy p) then s
  else
    let s := (s.wr (Reg.NT_I2C_STAT_busy p) 0).wr (Reg.NT_I2C_STAT_nack p) (b2n nack)
    let s := if nack then s.wr (Reg.NT_I2C_STAT_rdata p) 0
      else if s.on (Reg.NT_I2C_read p) then s.wr (Reg.NT_I2C_STAT_rdata p) rdata.toNat else s
    (s.setEvent (Reg.NT_EVENT_ev p) 2).setEventIf nack (Reg.NT_EVENT_ev p) 3

/-! ### Channel status of a context (R281) -/

/-- An access to STM_CS_DATA of the selected context. -/
def stmCsData (write : Bool) (val : Byte) (s : State) : State :=
  let c := s.selCtx
  let b := s.cr c Reg.STM_CS_ADDR_byte
  let x := s.ctx c
  let t := s.cw c Reg.STM_CS_ADDR_byte (nextByte b)
  if c < 512 then
    let k := x.cs.get CsBlock.reset (s.cr c Reg.STM_CS_ADDR_chan)
    let l := if s.cr c Reg.STM_CS_ADDR_user = 1 then k.latchedUser else k.latched
    { t with resp := .ok (if write then 0 else (l.getD b 0).setWidth 64) }
  else if write then { t.setCtx c { x with csStage := x.csStage.put 0 b val } with resp := .ok 0 }
  else { t with resp := .ok ((x.csStage.get 0 b).setWidth 64) }

/-- CS_DATA_ACCESS (R254, R281). -/
def csDataAccess (stm write : Bool) (val : Byte) (s : State) : State :=
  if stm then stmCsData write val s else aptCsData write val s

/-- FRAME_TX (R194). -/
def execFrameTx (ring : Nat) (data : List Byte) (s : State) : Host.Outcome State Fault Refusal :=
  whenWf (.frameTx ring data) (frameTx ring data s)

/-- CS_DATA_ACCESS (R254). -/
def execCsDataAccess (stm : Bool) (write : Bool) (val : Byte) (s : State) : Host.Outcome State Fault Refusal :=
  whenWf (.csDataAccess stm write val) (csDataAccess stm write val s)

/-- LINK_CHANGE (R255). -/
def execLinkChange (port : Nat) (up : Bool) (s : State) : Host.Outcome State Fault Refusal :=
  whenWf (.linkChange port up) (linkChange port up s)

/-- SFP_SIGNAL_CHANGE (R255). -/
def execSfpSignalChange (port : Nat) (los modAbs : Bool) (s : State) : Host.Outcome State Fault Refusal :=
  whenWf (.sfpSignalChange port los modAbs) (sfpSignalChange port los modAbs s)

/-- I2C_GO (R256). -/
def execI2cGo (port : Nat) (val : Word) (s : State) : Host.Outcome State Fault Refusal :=
  whenWf (.i2cGo port val) (i2cGo port val s)

/-- I2C_DONE (R256). -/
def execI2cDone (port : Nat) (rdata : Byte) (nack : Bool) (s : State) : Host.Outcome State Fault Refusal :=
  whenWf (.i2cDone port rdata nack) (i2cDone port rdata nack s)

/-- NETWORK_FRAME_RECEIVE (R263). -/
def execNetworkFrameReceive (port : Nat) (cyc sub align : Nat) (frame : List Byte) (s : State) : Host.Outcome State Fault Refusal :=
  whenWf (.networkFrameReceive port cyc sub align frame) (networkFrameReceive port cyc sub align frame s)

/-- PACKET_TRANSMIT (R271). -/
def execPacketTransmit (ctx : Nat) (s : State) : Host.Outcome State Fault Refusal :=
  whenWf (.packetTransmit ctx) (packetTransmit ctx s)

/-- EGRESS_FRAME (R276). -/
def execEgressFrame (port : Nat) (cyc sub : Nat) (s : State) : Host.Outcome State Fault Refusal :=
  whenWf (.egressFrame port cyc sub) (egressFrame port cyc sub s)

/-- IGMP_REPORT (R277). -/
def execIgmpReport (ctx : Nat) (s : State) : Host.Outcome State Fault Refusal :=
  whenWf (.igmpReport ctx) (igmpReport ctx s)

end Sys2Proof.Machine
end

