-- ==== Sys2Proof/Machine/Pads.lean ====
section
/-! DEFINITION. General-purpose I/O (R433, R434), and the pins that follow a register (R239, R255, R420). -/

namespace Sys2Proof.Machine

/-- The synchronised level of each GPIO ball: the driven level of an output, the outside level of an input. -/
def State.gpioLevels (s : State) : Nat :=
  let dir := s.rd Reg.PAD_GPIO_DIR_dir
  let out := s.rd Reg.PAD_GPIO_OUT_out
  (List.range 16).foldl (fun a n =>
    a + b2n (if bitAt dir n then bitAt out n else bitAt s.pads.gpioIn n) * 2 ^ n) 0

/-- MCLK_OUTg drives MCLK where APT_CGg.mclk_oe is 1 (R239), and NTx_TX_DISABLE follows NTx_CFG.tx_disable (R255); in KEEP
both have their reset levels (R420). -/
def State.portPins (s : State) : State :=
  let keep := s.pstate == 6
  let level (n : Nat) (f : Nat → Fld) : Nat := (List.range n).foldl (fun a i => a + b2n (s.on (f i)) * 2 ^ i) 0
  { s with pads := { s.pads with
    mclkOut := if keep then 0 else level 4 Reg.APT_CG_mclk_oe
    txDisable := if keep then 3 else level 2 Reg.NT_CFG_tx_disable } }

/-- Edges that a pin's setting selects: 1 rising, 2 falling, 3 both. -/
def edgeSelected (sel : Nat) (rising : Bool) : Bool := if rising then sel % 2 == 1 else decide (2 ≤ sel)

/-- GPIO_EDGE (R433): the level on a ball changes; a selected edge sets its event bit. In KEEP a pin raises no
event (R420). -/
def gpioEdge (n : Nat) (level : Bool) (s : State) : State :=
  let before := bitAt s.gpioLevels n
  let v := if level then s.pads.gpioIn ||| 2 ^ n else s.pads.gpioIn - (s.pads.gpioIn &&& 2 ^ n)
  let s := { s with pads := { s.pads with gpioIn := v } }
  let now := bitAt s.gpioLevels n
  let s := s.wr Reg.PAD_GPIO_IN_in s.gpioLevels
  let sel := bitsOf (s.rd Reg.PAD_GPIO_EDGE_edge) (2 * n) 2
  s.setEventIf (before != now && edgeSelected sel now && s.pstate != 6) Reg.PAD_EVENT_ev n

/-- GPIO_EDGE (R433). -/
def execGpioEdge (n : Nat) (level : Bool) (s : State) : Host.Outcome State Fault Refusal :=
  whenWf (.gpioEdge n level) (gpioEdge n level s)

end Sys2Proof.Machine
end

