-- ==== Sys2Proof/Machine/Time.lean ====
section
/-! DEFINITION. The local clock's reads and sets, epoch steps, timed outputs and captures (R282 to R286, R294 to R297). -/

namespace Sys2Proof.Machine

/-! ### The local clock (R282 to R284) -/

/-- Nanoseconds in a clock value. -/
def clockNs (t : Nat) : Nat := t / 2 ^ 32

/-- TIME_LATCH_READ (R283): a read of TIM_NOW_NS latches seconds and fraction. -/
def timeLatchRead (cyc : Nat) (s : State) : State :=
  let t := s.clockAt cyc
  let sec := clockNs t / 10 ^ 9 % 2 ^ 48
  let ns := clockNs t % 10 ^ 9
  let s := s.wr64 Reg.TIM_NOW_SEC_LO_sec Reg.TIM_NOW_SEC_HI_sec sec
  let s := (s.wr Reg.TIM_NOW_FNS_fns (t % 2 ^ 32)).wr Reg.TIM_NOW_NS_ns ns
  { s with resp := .ok (BitVec.ofNat 64 ns) }

/-- The clock takes a value: measurements against the old one are dropped and no slot sees a step (R284). -/
def State.setClock (s : State) (t : Nat) : State :=
  let s := { s with time := { s.time with clock := t } }
  [0, 1].foldl (fun s n => s.setPtp n { s.ptp n with
    accepted := none, runS := 0, sync := none, haveSync := false, t3 := none, pd := none }) s.clearHistories

/-- TIME_SET (R284): loads TIM_SET_SEC and TIM_SET_NS, before processing start. -/
def timeSet (s : State) : State :=
  if s.run then s.setEvent Reg.TIM_EVENT_ev 7
  else s.setClock ((s.rd64 Reg.TIM_SET_SEC_LO_sec Reg.TIM_SET_SEC_HI_sec * 10 ^ 9 + s.rd Reg.TIM_SET_NS_ns) * 2 ^ 32)

/-- The instance whose offset the firmware takes (R284): its slot's rank is below 15 and it holds a valid offset; of two the
one whose slot has the lower rank, A on equal rank. -/
def State.autosetFrom (s : State) (n : Nat) : Bool :=
  let ok (k : Nat) : Bool := s.offValid k && decide (s.rank k < 15)
  ok n && (!ok (1 - n) || (if n = 0 then decide (s.rank 0 ≤ s.rank 1) else decide (s.rank 1 < s.rank 0)))

/-- CLOCK_AUTOSET (R284): once, before processing start, unless no_autoset. -/
def clockAutoset (n cyc : Nat) (s : State) : State :=
  if s.run || s.on Reg.TIM_CFG_no_autoset || s.time.autoset || !s.autosetFrom n then s
  else
    let ns := ((s.clockAt cyc / 2 ^ 16 : Nat) + (s.ptp n).off) / 65536 |>.toNat
    let s := (s.wr64 Reg.TIM_SET_SEC_LO_sec Reg.TIM_SET_SEC_HI_sec (ns / 10 ^ 9)).wr Reg.TIM_SET_NS_ns (ns % 10 ^ 9)
    { s with time := { s.time with autoset := true } }.setClock (ns * 2 ^ 32)

/-- Runner firmware of an engine that starts while the ring runs sets its clock from the first marker it gets, once, unless
no_autoset: to the marker's time, the send offset and the hop delay (R345, R365). -/
def State.clockFromMarker (s : State) (p : Nat) (f : CascFrame) : State :=
  let served := (List.range 9).any (fun k => bitAt (s.rd (Reg.SCH_SVC_affinity 2)) k && s.runnerRuns k)
  if s.isMaster || s.on Reg.TIM_CFG_no_autoset || s.casc.clockSet || !served then s
  else
    let t := f.time + s.sendOffset.toNat * 65536 + s.rd (Reg.EXL_HOP_ns p) * 2 ^ 32
    { s with casc := { s.casc with clockSet := true } }.setClock t

/-- CASC_FRAME_RECEIVE (R336, R342 to R346). -/
def cascFrameReceive (p : Nat) (f : CascFrame) (crcBad : List Nat) (s : State) : State :=
  s.takeFrame p f crcBad (fun s => s.clockFromMarker p f)

/-- The anchor K (R286). -/
def State.setAnchor (s : State) (k : Int) : State :=
  { s with time := { s.time with anchor := k } }.wr64 Reg.TIM_ANCHOR_LO_k Reg.TIM_ANCHOR_HI_k (BitVec.ofInt 64 k).toNat

/-! ### Timed outputs (R296) -/

/-- A timed output. -/
def State.tout (s : State) (n : Nat) : Tout := s.time.tout.get Tout.reset n

/-- Stores a timed output. -/
def State.setTout (s : State) (n : Nat) (x : Tout) : State := { s with time := { s.time with tout := s.time.tout.insert n x } }

/-- The trigger of number i. -/
def Tout.trigger (x : Tout) : Int := x.start + x.i * x.period

/-- The pin of an output takes a level, active or not, where oe is 1. -/
def State.drive (s : State) (n : Nat) (active : Bool) (t : Int) : State :=
  let s := s.setTout n { s.tout n with level := active }
  if s.on (Reg.TIM_TOUT_CFG_oe n) then s.emit (.pulse (.tout n) (active != s.on (Reg.TIM_TOUT_CFG_pol n)) t) else s

/-- An output fires at a time: its time event line, its event bit and its pin. -/
def State.fireOut (s : State) (n : Nat) (t : Int) : State :=
  let x := s.tout n
  let s := { s with fab := { s.fab with tev := s.fab.tev.put false n true } }.setEvent Reg.TIM_TEV_fired n
  match s.rd (Reg.TIM_TOUT_CFG_shape n) with
  | 0 => (s.drive n true t).drive n false (t + (x.width : Int) * (10 ^ 9 * 2 ^ 32) / s.clkT)
  | 1 => s.drive n (!x.level) t
  | _ => s.drive n true t

/-- A single output that has fired is no longer armed. -/
def State.disarm (s : State) (n : Nat) : State :=
  (s.setTout n { s.tout n with armed := false }).wr (Reg.TIM_TOUT_CFG_arm n) 0

/-- TOUT_FIRE (R296): the clock has reached the trigger; the output fires in the first cycle at or after it. -/
def toutFire (n cyc : Nat) (s : State) : State :=
  let x := s.tout n
  if !x.armed || decide ((s.clockAt cyc : Int) < x.trigger) then s
  else
    let s := (s.fireOut n (s.clockAt (s.cycleOf x.trigger))).wr (Reg.TIM_TOUT_STAT_late n) 0
    if x.period = 0 then s.disarm n else s.setTout n { s.tout n with i := x.i + 1 }

/-- An output whose trigger is already past fires once at once (R296). -/
def State.overtaken (s : State) (n : Nat) (now : Int) : State :=
  let x := s.tout n
  if !x.armed || decide (now ≤ x.trigger) then s
  else
    let s := s.fireOut n now
    if x.period = 0 then (s.disarm n).wr (Reg.TIM_TOUT_STAT_late n) 1
    else
      let i := ((now - x.start) / x.period).toNat + 1
      (s.setTout n { s.tout n with i := i }).bump (Reg.TIM_TOUT_STAT_skipped n) (i - x.i)

/-- TOUT_ARM (R296): a write of TIM_TOUTn_CFG with arm 1. A period of 0 stands for a single output. -/
def toutArm (n cyc : Nat) (val : Word) (s : State) : State :=
  if !val.getLsbD 0 then s
  else
    let s := s.writePlain true (Reg.TIM_TOUT_CFG_arm n).off val
    let per := s.rd (Reg.TIM_TOUT_PER_NS_ns n) * 2 ^ 32 + s.rd (Reg.TIM_TOUT_PER_FRAC_frac n)
    let w := s.rd (Reg.TIM_TOUT_WIDTH_cycles n)
    let periodic := s.on (Reg.TIM_TOUT_CFG_periodic n)
    let short := decide (s.rd (Reg.TIM_TOUT_PER_NS_ns n) < 10) ||
      (s.rd (Reg.TIM_TOUT_CFG_shape n) == 0 && decide (per * s.clkT ≤ w * (10 ^ 9 * 2 ^ 32)))
    if periodic && short then (s.wr (Reg.TIM_TOUT_STAT_refused n) 1).setEvent Reg.TIM_EVENT_ev 8
    else
      let start : Int := ((s.rd64 (Reg.TIM_TOUT_SEC_LO_sec n) (Reg.TIM_TOUT_SEC_HI_sec n) * 10 ^ 9 +
        s.rd (Reg.TIM_TOUT_NS_ns n)) * 2 ^ 32 : Nat)
      let s := s.setTout n ⟨true, start, if periodic then (per : Int) else 0, w, 0, (s.tout n).level⟩
      let s := (s.wr (Reg.TIM_TOUT_STAT_refused n) 0).wr (Reg.TIM_TOUT_CFG_arm n) 1
      s.overtaken n (s.clockAt cyc)

/-! ### Captures (R297) -/

/-- The word that TIM_TCAPn_NS reads. -/
def captureWord : List Capture → Nat
  | [] => 0
  | c :: _ => c.ns + 2 ^ 30 * b2n c.rising + 2 ^ 31

/-- TIM_TCAPn_NS shows the oldest capture, and TIM_TCAPn_SEC_HI the number left. -/
def State.showCapture (s : State) (n : Nat) : State :=
  let l := s.time.tcap.get [] n
  (s.setReg (Reg.TIM_TCAP_NS_ns n).off (BitVec.ofNat 32 (captureWord l))).wr (Reg.TIM_TCAP_SEC_HI_depth n) l.length

/-- TCAP_EDGE (R297): an edge of an input, `held` telling whether its level holds for 2 CLK_T cycles. Where the clock has
stepped back since the edge before, that edge is not near (log 43). -/
def tcapEdge (n cyc : Nat) (rising held : Bool) (s : State) : State :=
  let t := s.clockAt cyc
  let two := 2 * (s.rd Reg.TIM_INC_LO_frac + 2 ^ 32 * s.rd Reg.TIM_INC_HI_ns)
  let last := s.time.lastEdge.get 0 n
  let near := last != 0 && decide (last ≤ t + 1) && decide (t + 1 < last + two)
  let chosen := bitAt (s.rd (Reg.TIM_TCAP_CFG_edge n)) (if rising then 0 else 1)
  if s.on (Reg.TIM_TCAP_CFG_filt n) && !held then s
  else
    let s := { s with time := { s.time with lastEdge := s.time.lastEdge.put 0 n (t + 1) } }
    if near || !chosen then s
    else
      let l := s.time.tcap.get [] n
      if 4 ≤ l.length then s.setEvent Reg.TIM_TEV_fired (8 + n)
      else
        let c : Capture := ⟨clockNs t / 10 ^ 9, clockNs t % 10 ^ 9, rising⟩
        { s with time := { s.time with tcap := s.time.tcap.put [] n (l ++ [c]) } }.showCapture n

/-- TCAP_POP (R297): a read of TIM_TCAPn_NS. -/
def tcapPop (n : Nat) (s : State) : State :=
  let l := s.time.tcap.get [] n
  let s := { s with resp := .ok (BitVec.ofNat 64 (captureWord l)) }
  match l with
  | [] => s
  | c :: t =>
    let s := { s with time := { s.time with tcap := s.time.tcap.put [] n t } }
    (s.wr64 (Reg.TIM_TCAP_SEC_LO_sec n) (Reg.TIM_TCAP_SEC_HI_sec n) (c.sec % 2 ^ 48)).showCapture n

/-! ### A new epoch (R294, R295) -/

/-- A quotient rounded to the nearest integer, ties away from zero. -/
def roundAway (a : Int) (b : Nat) : Int :=
  if 0 ≤ a then (2 * a + b) / (2 * b) else -((2 * -a + b) / (2 * b))

/-- A rate change is in progress, until prog_done or prog_fail, or is to begin at a coming action lap (R294). -/
def State.rateBusy (s : State) : Bool :=
  s.syn.change.any (·.busy) || s.casc.acts.any (fun a => match a.cmd with
    | .rate _ _ => true
    | _ => false)

/-- An epoch step is pending, or is to begin at a coming action lap. -/
def State.epochBusy (s : State) : Bool :=
  s.on Reg.TIM_STATUS_epoch_pending || s.casc.acts.any (fun a => match a.cmd with
    | .acceptEpoch _ _ => true
    | _ => false)

/-- Every transmit context in service fades over 32 samples from the next lap (R294, R332). -/
def State.fadeTx (s : State) : State :=
  (s.net.ctx.map (·.1)).foldl (fun s c =>
    if 512 ≤ c ∧ (s.cst c = 1 ∨ s.cst c = 2) then s.setCtx c { s.ctx c with stopAt := s.lap + 2 } else s) s

/-- The lap a of an epoch step (R294). -/
def State.beginEpoch (s : State) (j r : Int) (mine : Bool) : State :=
  let s := { s with time := { s.time with epoch := some ⟨s.lap + 1 + s.fLap, j, r, mine⟩ } }
  (s.wr Reg.TIM_STATUS_epoch_pending 1).fadeTx

/-- ACCEPT_EPOCH (R294): in a ring it begins at the action lap on every engine (R346). -/
def acceptEpoch (n : Nat) (s : State) : State :=
  if !s.offValid n || s.epochBusy || s.rateBusy || (s.inRing && !s.isMaster) then s.setEvent Reg.TIM_EVENT_ev 6
  else
    let d := roundAway (s.ptp n).off 65536
    let j := roundAway (d * s.fs) (10 ^ 9)
    let r := (d * s.fs - j * 10 ^ 9) * 65536000 / s.fs
    if s.inRing then s.ringCommand (.acceptEpoch j r) else s.beginEpoch j r true

/-- A context at lap b (R294): a receive buffer is cleared. A transmit context has begun to search at the boundary. -/
def State.epochCtx (s : State) (c : Nat) : State :=
  let x := s.ctx c
  if s.cst c = 0 ∨ s.cst c = 5 then s
  else if c < 512 then s.setCtx c { x with here := [], buf := [], bits := [], force := x.newD.isSome }
  else s

/-- EPOCH_STEP (R294): at lap b. -/
def epochStep (s : State) : State :=
  match s.time.epoch with
  | none => s
  | some e =>
    if s.lap < e.lap then s
    else
      let d := e.j * (10 ^ 9 * 65536) / s.fs
      let s := (s.setAnchor (s.time.anchor + e.j))
      let s := { s with time := { s.time with clock := s.lapClock s.lap, epoch := none } }
      let s := (s.net.ctx.map (·.1)).foldl State.epochCtx s
      let s := (s.dpllEpoch d).ptpStepped d
      let s := if e.mine then s.addStep e.r else s
      let s := (List.range 8).foldl (fun s n => s.overtaken n s.time.clock) s
      (s.wr Reg.TIM_STATUS_epoch_pending 0).setEvent Reg.TIM_EVENT_ev 5

/-- CASC_FRAME_RECEIVE (R342). -/
def execCascFrameReceive (port : Nat) (frame : CascFrame) (crcBad : List Nat) (s : State) : Host.Outcome State Fault Refusal :=
  whenWf (.cascFrameReceive port frame crcBad) (cascFrameReceive port frame crcBad s)

/-- TIME_LATCH_READ (R283). -/
def execTimeLatchRead (cyc : Nat) (s : State) : Host.Outcome State Fault Refusal :=
  whenWf (.timeLatchRead cyc) (timeLatchRead cyc s)

/-- TIME_SET (R284). -/
def execTimeSet (s : State) : Host.Outcome State Fault Refusal :=
  whenWf .timeSet (timeSet s)

/-- CLOCK_AUTOSET (R284). -/
def execClockAutoset (inst : Nat) (cyc : Nat) (s : State) : Host.Outcome State Fault Refusal :=
  whenWf (.clockAutoset inst cyc) (clockAutoset inst cyc s)

/-- ACCEPT_EPOCH (R294). -/
def execAcceptEpoch (inst : Nat) (s : State) : Host.Outcome State Fault Refusal :=
  whenWf (.acceptEpoch inst) (acceptEpoch inst s)

/-- EPOCH_STEP (R294). -/
def execEpochStep (s : State) : Host.Outcome State Fault Refusal :=
  whenWf .epochStep (epochStep s)

/-- TOUT_ARM (R296). -/
def execToutArm (n : Nat) (cyc : Nat) (val : Word) (s : State) : Host.Outcome State Fault Refusal :=
  whenWf (.toutArm n cyc val) (toutArm n cyc val s)

/-- TOUT_FIRE (R296). -/
def execToutFire (n : Nat) (cyc : Nat) (s : State) : Host.Outcome State Fault Refusal :=
  whenWf (.toutFire n cyc) (toutFire n cyc s)

/-- TCAP_EDGE (R297). -/
def execTcapEdge (n : Nat) (cyc : Nat) (rising held : Bool) (s : State) : Host.Outcome State Fault Refusal :=
  whenWf (.tcapEdge n cyc rising held) (tcapEdge n cyc rising held s)

/-- TCAP_POP (R297). -/
def execTcapPop (n : Nat) (s : State) : Host.Outcome State Fault Refusal :=
  whenWf (.tcapPop n) (tcapPop n s)

end Sys2Proof.Machine
end

