-- ==== Sys2Proof/Machine/Rate.lean ====
section
/-! DEFINITION. Changes of the sample rate, losses of lock and of XO_IN, restarts of the root, and ring commands
(R327, R328, R332, R333, R346). -/

namespace Sys2Proof.Machine

/-- Stores the change in progress. -/
def State.setChange (s : State) (c : Option RateChange) : State := { s with syn := { s.syn with change := c } }

/-- A rate is in force. -/
def State.putRate (s : State) (fam mult : Nat) : State := { s with syn := { s.syn with fam := fam, mult := mult } }

/-- The local clock stands at its value of a number of cycles after it last took one. -/
def State.holdClock (s : State) (cyc : Nat) : State := { s with time := { s.time with clock := s.clockAt cyc } }

/-- The root clocks are gated: CLK_C and CLK_F move to XO_IN (R15, R332), and the time block counts XO_IN (R285). -/
def State.gateRoot (s : State) (cyc : Nat) : State :=
  let s := s.holdClock cyc
  let s := ({ s with syn := { s.syn with onRoot := false } }.wr Reg.SYN_STATUS_gated 1).stopFp
  s.synPin

/-! ### Beginning a change (R332) -/

/-- The muted transition begins: lap a. -/
def State.beginRate (s : State) (fam mult : Nat) : State :=
  let s := s.setChange (some ⟨.fading, s.lap, fam, mult, fam != s.syn.fam, true, true⟩)
  (s.wr Reg.SYN_STATUS_prog 1).stopPorts.fadeTx

/-- A change before processing start: at once (R332). -/
def State.rateAtOnce (s : State) (fam mult cyc : Nat) : State :=
  if fam = s.syn.fam then (s.putRate fam mult).holdStreams.setEvent Reg.SYN_EVENT_ev 4
  else
    let s := (s.gateRoot cyc).setChange (some ⟨.gated, 0, fam, mult, true, false, true⟩)
    ((s.putRate fam mult).loadInc).programBoth

/-- A command is refused (R332). -/
def State.rateRefused (s : State) (fam mult : Nat) : Bool :=
  s.rdS Reg.SYN_RAMP_NOW_y != 0 || s.syn.ramp.isSome || s.syn.change.isSome || s.rateBusy || s.epochBusy ||
    (fam == s.syn.fam && mult == s.syn.mult) || (s.inRing && !s.isMaster)

/-- RATE_APPLY (R332): SYN_RATE_CMD.cmd 1. -/
def rateApply (cyc : Nat) (s : State) : State :=
  let fam := s.rd Reg.SYN_RATE_fam
  let mult := s.rd Reg.SYN_RATE_mult
  if s.rateRefused fam mult then (s.wr Reg.SYN_RATE_CMD_reason 3).setEvent Reg.SYN_EVENT_ev 9
  else
    let s := s.wr Reg.SYN_RATE_CMD_reason 0
    if !s.run then s.rateAtOnce fam mult cyc
    else if s.inRing then s.ringCommand (.rate fam mult)
    else s.beginRate fam mult

/-- RATE_GATE (R332): at the boundary of lap a + F + 1, F of the old rate. -/
def rateGate (cyc : Nat) (s : State) : State :=
  match s.syn.change with
  | some c =>
    if c.step = .fading ∧ c.lap + s.fLap + 1 ≤ s.lap then
      let s := (s.gateRoot cyc).setChange (some { c with step := .gated })
      let s := (s.putRate c.fam c.mult).loadInc
      if c.family then s.programBoth else s
    else s
  | none => s

/-! ### Restart (R286, R328, R332) -/

/-- The synthesizer that takes the root at a restart: the active one where it is settled. -/
def State.readySynth (s : State) : Option Bool :=
  if (s.synth s.activeSynth).settled then some s.activeSynth
  else if (s.synth (!s.activeSynth)).settled then some (!s.activeSynth)
  else none

/-- The smallest K that puts the boundary of lap k at least 2 laps after the local clock (R286). -/
def State.anchorFor (s : State) (k : Nat) : Int :=
  let unit : Int := 10 ^ 9 * 2 ^ 32
  ((s.time.clock : Int) * s.fs + unit - 1) / unit + (2 * s.nLap : Nat) - (k * s.nLap : Nat)

/-- The pacer anchors lap k and the clock stands on its boundary (R286); a member of a ring takes its master's K (R345). -/
def State.anchorAt (s : State) (k : Nat) : State :=
  let own := s.anchorFor k
  let kk := if s.inRing && !s.isMaster then
      (match s.casc.ringAnchor with
        | some a => a.1
        | none => own)
    else own
  let s := s.setAnchor kk
  { s with time := { s.time with clock := s.lapClock k } }

/-- A tile that is not gated holds its slot cold (R171). -/
def State.coldTile (s : State) (slot : Nat) : State :=
  let s := { s with vault := { s.vault with slotReload := s.vault.slotReload.insert slot true } }
  match s.slotTile slot with
  | none => s
  | some t => if s.tileActive t then s.setTstate t 2 else s

/-- Every slot is cold and every placed object restarts (R171, R408); nothing of the laps before remains on the way. -/
def State.coldAll (s : State) : State :=
  let s := (s.tile.placed.map (·.1)).foldl State.coldObj s
  let s := (List.range 32).foldl State.coldTile s
  { s with
    audio := { s.audio with
      outv := [], hist := [], insIn := [], insOut := [], rackOut := [], rackLine := [], rackTap := [], xin := []
      busOut := [], part := [], partLap := [], ePart := [], ePartLap := [], exchLap := 0 }
    port := { s.port with bitHist := [], outNext := [] } }

/-- A stream context restarts (R262, R332); one that was stopping has faded out. -/
def State.restartCtx (s : State) (c : Nat) : State :=
  let x := s.ctx c
  if s.cst c = 0 ∨ s.cst c = 5 then s
  else if s.cst c = 6 then s.dropCtx c
  else
    let next := ((s.lap : Int) + 1) * s.nLap
    let m0 := (next + s.cP c - 1) / s.cP c * s.cP c
    let x := { x with
      k := 0, here := [], buf := [], bits := [], mRead := s.nextRead, w := s.nextRead, m0 := m0
      blocks := s.rd Reg.APT_GCFG_start_laps, gates := [], outNext := [], stopAt := 0 }
    ((s.setCtx c x).cw c Reg.STM_STATUS_k 0).setCst c 1

/-- What processing does at a restart: the tiles, the ports and the streams (R332). -/
def State.restartAudio (s : State) : State :=
  let s := (s.anchorAt s.lap).coldAll.reacquirePorts
  let s := (s.net.ctx.map (·.1)).foldl State.restartCtx s
  s.dpllRestart

/-- RATE_RESTART (R332): the root is ready. -/
def rateRestart (cyc : Nat) (s : State) : State :=
  match s.syn.change, s.readySynth with
  | some c, some b =>
    if c.step = .gated then
      let s := ((s.holdClock cyc).toRoot b).synPin
      let s := (s.setChange none).wr Reg.SYN_STATUS_prog 0
      let s := if c.run then s.restartAudio.checkInvalid else s.dpllRestart
      s.showSpare.holdStreams.setEvent Reg.SYN_EVENT_ev 4
    else s
  | _, _ => s

/-- PROGRAM_TIMEOUT (R332): programming has taken 20 ms; the keeper tries again. -/
def programTimeout (s : State) : State :=
  match s.syn.change with
  | some c => if c.step = .gated ∧ s.readySynth.isNone then (s.progFail 2).programBoth else s
  | none => s

/-! ### Loss of lock and of XO_IN (R325, R327, R328) -/

/-- A port whose clocks stop without a fade is lost (R328). -/
def State.cutPort (s : State) (p : Nat) : State :=
  if 1 ≤ s.pst p ∧ s.pst p ≤ 5 then
    let s := s.losePort 6 p
    s.setAport p { s.aport p with chans := [] }
  else s

/-- Every root clock is gated and the keeper programs the synthesizers as in a rate change from its gate step on (R328). -/
def State.rootGate (s : State) (cyc : Nat) : State :=
  let c : RateChange := s.syn.change.getD ⟨.gated, s.lap, s.syn.fam, s.syn.mult, true, s.run, false⟩
  let s := (s.gateRoot cyc).setChange (some { c with step := .gated, family := true })
  let s := (List.range 32).foldl State.cutPort s
  ((s.putRate c.fam c.mult).loadInc).programBoth

/-- A synthesizer is out of lock, with its event; the loss of a settled spare leaves none (R390). -/
def State.dropLock (s : State) (b : Bool) : State :=
  if s.on (lockBit b) then
    let spare := b != s.activeSynth && (s.synth b).settled
    let s := (s.wr (lockBit b) 0).setSynth b { s.synth b with settled := false }
    let s := (s.setEvent Reg.SYN_EVENT_ev (if b then 2 else 1)).showSpare
    if spare then s.atticLow else s
  else s

/-- The settled spare takes the root in the running lap, whose outputs are replaced by zero (R327). -/
def State.takeSpare (s : State) (failed : Bool) : State :=
  let s := (s.setSynth failed ⟨false, false, true⟩).wr Reg.SYN_STATUS_active (b2n (!failed))
  let zero (s : State) (p : Nat) : State := ((s.countsOf (s.lap + 1)).flatMap (fun m =>
    (List.range (s.portChans p)).map (fun c => (m, c)))).foldl (fun s e => s.fifoPut true p e.1 e.2 0) s
  let s := if s.run then { s with syn := { s.syn with zeroLap := s.lap + 1 } } else s
  let s := { s with port := { s.port with outNext := s.port.outNext.map (fun e => (e.1, e.2.map (fun _ => (0 : A48)))) } }
  let s := if s.run && s.audio.exchLap == s.lap + 1 then
      ((List.range 32).filter (fun p => s.outUsed p && s.pst p != 0)).foldl zero s
    else s
  ((s.synPin.showSpare.setEvent Reg.SYN_EVENT_ev 0).fault 0x0100 (b2n failed) 0).atticLow

/-- SYNTH_UNLOCK (R325, R327, R328). -/
def synthUnlock (b : Bool) (cyc : Nat) (s : State) : State :=
  if !s.on (lockBit b) then s
  else
    let s := s.dropLock b
    if b != s.activeSynth || !s.syn.onRoot then s.synPin
    else if s.on Reg.SYN_CFG_takeover_en && (s.synth (!b)).settled then s.takeSpare b
    else s.rootGate cyc

/-- XO_IN_LOSS (R328). -/
def xoInLoss (cyc : Nat) (s : State) : State :=
  let s := { s with syn := { s.syn with xo := false } }
  let s := ((s.dropLock false).dropLock true).synPin
  if s.syn.onRoot then s.rootGate cyc else s

/-- XO_IN_RETURN (R328): the keeper programs the synthesizers where the root waits for one. -/
def xoInReturn (s : State) : State :=
  if s.syn.xo then s
  else
    let s := { s with syn := { s.syn with xo := true } }
    if s.syn.change.isSome || s.rd Reg.COR_BOOT_state == 2 then s.programBoth else s

/-! ### Ring commands (R346) -/

/-- What a ring command does at its action lap. -/
def State.ringAct (s : State) (c : RingCmd) : State :=
  match c with
  | .acceptEpoch j r => s.beginEpoch j r s.isMaster
  | .rate fam mult => s.beginRate fam mult
  | .measure => [0, 1].foldl (fun s p =>
      if (s.cport p).trained then s.setCport p { s.cport p with measuring := true } else s) s

/-- RING_COMMAND_ACTION (R346): the commands whose action lap has come, in the order they were taken. -/
def ringCommandAction (s : State) : State :=
  let now (a : RingAct) : Bool := decide (a.lap ≤ s.lap)
  let due := s.casc.acts.filter now
  let s := { s with casc := { s.casc with acts := s.casc.acts.filter (fun a => !now a) } }
  due.foldl (fun s a => s.ringAct a.cmd) s

/-- RATE_APPLY (R332). -/
def execRateApply (cyc : Nat) (s : State) : Host.Outcome State Fault Refusal :=
  whenWf (.rateApply cyc) (rateApply cyc s)

/-- RATE_GATE (R332). -/
def execRateGate (cyc : Nat) (s : State) : Host.Outcome State Fault Refusal :=
  whenWf (.rateGate cyc) (rateGate cyc s)

/-- RATE_RESTART (R332). -/
def execRateRestart (cyc : Nat) (s : State) : Host.Outcome State Fault Refusal :=
  whenWf (.rateRestart cyc) (rateRestart cyc s)

/-- PROGRAM_TIMEOUT (R332). -/
def execProgramTimeout (s : State) : Host.Outcome State Fault Refusal :=
  whenWf .programTimeout (programTimeout s)

/-- SYNTH_UNLOCK (R325). -/
def execSynthUnlock (b : Bool) (cyc : Nat) (s : State) : Host.Outcome State Fault Refusal :=
  whenWf (.synthUnlock b cyc) (synthUnlock b cyc s)

/-- XO_IN_LOSS (R328). -/
def execXoInLoss (cyc : Nat) (s : State) : Host.Outcome State Fault Refusal :=
  whenWf (.xoInLoss cyc) (xoInLoss cyc s)

/-- XO_IN_RETURN (R328). -/
def execXoInReturn (s : State) : Host.Outcome State Fault Refusal :=
  whenWf .xoInReturn (xoInReturn s)

/-- RING_COMMAND_ACTION (R346). -/
def execRingCommandAction (s : State) : Host.Outcome State Fault Refusal :=
  whenWf .ringCommandAction (ringCommandAction s)

end Sys2Proof.Machine
end

