-- ==== Sys2Proof/Machine/Power.lean ====
section
/-! DEFINITION. Reset, start-up and power states (R404 to R415, R438). -/

namespace Sys2Proof.Machine

/-! ### Resets (R405) -/

/-- The main engine in reset: every register and memory as POR_N leaves it. The meter, the fuses, the levels on the input
pins and what waits outside stay. -/
def State.mainReset (s : State) : State :=
  { State.reset with
    pending := s.pending
    free := s.free
    outs := s.outs
    meter := s.meter
    core := { CoreSt.reset with fuses := s.core.fuses }
    syn := { SynthSt.reset with xo := s.syn.xo }
    power := { PowerSt.reset with main := s.power.main, perstLow := s.power.perstLow }
    pads := { PadSt.reset with mtrBusy := s.pads.mtrBusy, mtrSealed := s.pads.mtrSealed, gpioIn := s.pads.gpioIn } }

/-- A fuse burn that loses its supply can leave its fuse burnt or not (R403): of the fuses of the counter between its value and
the target, any number. -/
def State.cutBurn (s : State) : State :=
  match s.core.burn with
  | [] => s
  | b :: _ =>
    let r := s.drawBits 32
    let f := s.core.fuses
    let f := match b with
      | .sv t => { f with sv := f.sv + r.1.toNat % (t - f.sv + 1) }
      | .repair => { f with repairs := f.repairs + r.1.toNat % 2 }
    { r.2 with core := { s.core with fuses := f } }

/-- POR_N_ASSERT (R405): the whole main engine is reset. -/
def porNAssert (s : State) : State := s.cutBurn.mainReset

/-- The levels of the PCIe link after training (R177). -/
def State.linkTrain (s : State) (speed width : Nat) : State :=
  (s.wr Reg.HST_STATUS_speed speed).wr Reg.HST_STATUS_width width

/-- POR_N_RELEASE (R406, R407): the start-up order begins; the rails are present. -/
def porNRelease (src : BootSrc) (speed width : Nat) (s : State) : State :=
  if !s.power.porLow then s
  else
    let s := { s with power := { s.power with porLow := false, main := true } }
    let s := if s.power.perstLow then s else s.linkTrain speed width
    (s.mapFailed.mirrorResync.wr Reg.PAD_GPIO_IN_in s.pads.gpioIn).boot src

/-- PERST_N_ASSERT (R405): as a Function Level Reset, and the link is down. -/
def perstNAssert (s : State) : State :=
  let s := (s.hostReset true).wr Reg.GLB_RESET_CAUSE_perst 1
  { s with power := { s.power with perstLow := true } }.linkTrain 0 0

/-- PERST_N_RELEASE (R406): the link trains, where POR_N is high. -/
def perstNRelease (speed width : Nat) (s : State) : State :=
  if !s.power.perstLow then s
  else
    let s := { s with power := { s.power with perstLow := false } }
    if s.power.porLow then s else s.linkTrain speed width

/-- MAIN_POWER_REMOVE (R402, R410): the engine is off; the meter runs on. -/
def mainPowerRemove (s : State) : State :=
  let s := s.cutBurn.mainReset
  { s with power := { s.power with main := false } }

/-- The chip reset itself (R405): as POR_N, but for the PCIe side, the reset causes and the levels of the GPIO pins (R433).
The start-up order runs from step 1. -/
def State.chipReset (s : State) (src : BootSrc) : State :=
  let h := s.hostReset false
  let t := s.mainReset
  let kept : List Fld := [Reg.GLB_RESET_CAUSE_por, Reg.GLB_RESET_CAUSE_perst, Reg.GLB_RESET_CAUSE_flr,
    Reg.HST_STATUS_speed, Reg.HST_STATUS_width, Reg.HST_STATUS_bme, Reg.HST_STATUS_mse,
    Reg.PAD_GPIO_DIR_dir, Reg.PAD_GPIO_OUT_out]
  let t := kept.foldl (fun (t : State) f => t.wr f (h.rd f)) t
  let t := { t with host := { h.host with snapArea := [] }, power := { t.power with porLow := false } }
  let t := ((t.wr Reg.GLB_RESET_CAUSE_chip 1).wr Reg.PAD_GPIO_IN_in s.gpioLevels).mapFailed.mirrorResync
  t.boot src

/-- CHIP_RESET (R405): held behind a fuse burn. -/
def chipResetCmd (src : BootSrc) (s : State) : State :=
  if s.power.porLow then s
  else if s.core.burn.isEmpty then s.chipReset src
  else { s with core := { s.core with heldReset := some src } }

/-- KEEPER_FUSE_BURN_DONE (R356, R392, R405): the oldest burn is complete; a chip reset held behind the burns takes effect
after the last. -/
def keeperFuseBurnDone (s : State) : State :=
  match s.core.burn with
  | [] => s
  | b :: rest =>
    let f := s.core.fuses
    let s := { s with core := { s.core with burn := rest } }
    let s := match b with
      | .sv t =>
        let sv := max f.sv t
        ({ s with core := { s.core with fuses := { f with sv := sv } } }.wr Reg.COR_SV_fuse sv).setEvent Reg.COR_EVENT_ev 4
      | .repair => { s with core := { s.core with fuses := { f with repairs := f.repairs + 1 } } }.wr Reg.HLT_REPAIR_used (f.repairs + 1)
    match s.core.heldReset with
    | none => s
    | some src => if rest.isEmpty then s.chipReset src else s

/-! ### Processing start (R59, R408, R438) -/

/-- A power command is refused with a reason (R410). -/
def State.refusePower (s : State) (reason : Nat) : State :=
  (s.wr Reg.GLB_PWR_STATUS_reason reason).setEvent Reg.GLB_EVENT_ev 2

/-- What refuses every power command but a chip reset: a restricted keeper, a transition, a rate change or a ramp (R410,
R415); 0 nothing. -/
def State.powerBar (s : State) : Nat :=
  if !s.keeperOk then 7
  else if s.power.trans.isSome then 2
  else if s.rd Reg.SYN_STATUS_prog ≠ 0 ∨ s.syn.ramp.isSome = true then 3
  else 0

/-- The start condition (R408). -/
def State.startCondition (s : State) : Bool :=
  s.pstate == 1 && (s.syn.a.settled || s.syn.b.settled) && (s.dst == 2 || decide (2 ≤ s.rd Reg.DPL_CFG_mode))

/-- The vault store's shelves (R148). -/
def storeShelves : Nat := 2112

/-- The store is reserved as the lowest-addressed free run (R148, R408); none where it does not fit. -/
def State.reserveStore (s : State) : Option State :=
  let mirror := s.on Reg.VLT_CFG_store_mirror
  match s.engineAlloc 5 0 storeShelves mirror with
  | none => none
  | some t =>
    let first := match t.allocHeld 5 0 with
      | none => 0
      | some a => a.first
    let t := (t.wr Reg.VLT_STORE_base_shelf first).wr Reg.VLT_STORE_mirrored (b2n mirror)
    some (t.wr Reg.VLT_STORE_shelves (if mirror then 2 * storeShelves else storeShelves))

/-- A heat's tiles after the keeper's self-test (R59): the highest-numbered tile that passed is the spare where all nine passed
or, with eight, none; slots go in ascending order to the other tiles; a slot left without a tile is isolated. -/
def State.mapHeat (s : State) (failed : List Nat) (h : Nat) : State :=
  let good := (heatTiles h).filter (fun t => !failed.contains t)
  let spare := if good.length = 9 then good.getLast? else none
  let work := good.take 8
  let s := (heatTiles h).foldl (fun s t => ((s.setTile t Tile.reset).wr (Reg.TIL_TILE_no_slot t) 1).setTstate t
    (if failed.contains t then 6 else 3)) s
  let s := (work.zipIdx).foldl (fun s e =>
    (((s.wr (Reg.TIL_TILE_slot e.1) (8 * h + e.2)).wr (Reg.TIL_TILE_no_slot e.1) 0).setTstate e.1 2)) s
  let left := (List.range 8).filter (fun k => decide (work.length ≤ k))
  let s := left.foldl (fun s k =>
    { s with tile := { s.tile with isolated := s.tile.isolated.put false (8 * h + k) true } }.setEvent Reg.TIL_EVENT_ev 0) s
  let s := (s.setHeat h Heat.reset).wr (Reg.TIL_HEAT_spare_tile h) (spare.getD 63)
  let s := (s.wr (Reg.TIL_HEAT_checked_tile h) 63).wr (Reg.TIL_HEAT_chk_state h) (if spare.isSome then 0 else 5)
  if spare.isSome then s else s.atticLow

/-- Every page at its default, generation 0, no commit armed, every object in group 0, and every route, fade and state of the
signal path as the defaults give it (R149, R150); an armed layout stays armed. The snapshot
streams begin anew, so their copies read zero (R183). -/
def State.freshPages (s : State) : State :=
  let s := { s with
    vault := { VaultSt.reset with orphans := s.vault.orphans }
    host := { s.host with snapArea := [] }
    audio := { AudioSt.reset with layout := s.audio.layout, eStrips := s.audio.eStrips }
    port := { s.port with gain := [] } }
  (s.wr64 Reg.VLT_GEN_LO_gen Reg.VLT_GEN_HI_gen 0).wr Reg.VLT_STATUS_store_ok 1

/-- The armed placement, or the one in force, begins with every object cold (R408, R438). -/
def State.placeAtStart (s : State) : State :=
  let table := match s.tile.pend with
    | some p => p.table
    | none => s.tile.placed
  let armed := s.tile.pend.isSome
  let s := { s with tile := { s.tile with placed := [], isolated := [], ramp := [], cold := [] } }
  let s := takePlacement table s
  if armed then (s.wr Reg.TIL_PLACE_STATUS_state 0).setEvent Reg.TIL_EVENT_ev 6 else s

/-- Steps 1, 2 and 4 of R408 with a store that fits: `failed` are the tiles that fail the keeper's self-test. -/
def State.startAudio (s : State) (failed : List Nat) : State :=
  let s := s.freshPages.placeAtStart
  let s := ([0, 1, 2, 3].foldl (fun s h => s.mapHeat failed h) s).countSpares
  let s := { s.coldAll with power := { s.power with gated := false, stopped := [], recZeroFrom := none } }
  s.layoutAtStart.vaultStatus.writeOrphans.setEvent Reg.GLB_EVENT_ev 0

/-- The lap at which the pacer begins: 0, or in a ring the master's start lap (R345, R408). -/
def State.firstLap (s : State) : Nat :=
  if s.inRing && !s.isMaster then
    (match s.casc.ringAnchor with
    | some a => a.2
    | none => 0)
  else 0

/-- Every tile reads the state bank that the lap's parity names (R50). -/
def State.setParity (s : State) : State :=
  { s with tile := { s.tile with tiles := s.tile.tiles.map (fun e => (e.1, { e.2 with sread := s.lap % 2 })) } }

/-- Processing start (R408). Where processing has started before, lap index and anchor go on. -/
def State.start (s : State) (cyc : Nat) (failed : List Nat) : State :=
  match s.reserveStore with
  | none => s.refusePower 6
  | some t =>
    let t := t.startAudio failed
    let t := if s.run then t
      else
        let t := { t with
          lap := t.firstLap, sched := { t.sched with winLap := t.firstLap, winCycle := t.sched.cycle } }
        ((t.holdClock cyc).anchorAt t.lap).stopHeldClocks.openStreams
    (t.setParity.wr Reg.TIM_STATUS_run 1).wr Reg.GLB_PWR_STATUS_state 2

/-- START_PROCESSING (R408): GLB_PWR.cmd 1. -/
def startProcessing (cyc : Nat) (failed : List Nat) (s : State) : State :=
  if s.powerBar ≠ 0 then s.refusePower s.powerBar
  else if !s.startCondition then s.refusePower 5
  else s.start cyc failed

/-- AUTO_START (R408): the start condition holds. -/
def autoStart (cyc : Nat) (failed : List Nat) (s : State) : State :=
  if s.on Reg.GLB_CFG_auto_start && s.startCondition && s.rd Reg.SYN_STATUS_prog == 0 && s.syn.ramp.isNone then
    s.start cyc failed
  else s

/-! ### QUIET (R411, R412) -/

/-- Stores the transition. -/
def State.setTrans (s : State) (t : Option Trans) (st : Nat) : State :=
  { s with power := { s.power with trans := t } }.wr Reg.GLB_PWR_STATUS_state st

/-- Lap a of an entry to QUIET: ports and transmit contexts fade from the next lap, and the record is zero (R411). -/
def State.beginQuiet (s : State) : State :=
  let s := s.stopPorts.fadeTx
  { s with power := { s.power with recZeroFrom := some (s.lap + 1), recZeroTo := none } }

/-- ENTER_QUIET (R410, R411): GLB_PWR.cmd 2. -/
def enterQuiet (s : State) : State :=
  if s.powerBar ≠ 0 ∧ s.powerBar ≠ 3 then s.refusePower s.powerBar
  else if s.pstate ≠ 2 then s.refusePower 1
  else if s.powerBar ≠ 0 then s.refusePower s.powerBar
  else s.beginQuiet.setTrans (some (.toQuiet s.lap)) 3

/-- System movers with an address register on space 1 (R411). -/
def State.tileMovers (s : State) : List Nat :=
  (List.range 16).filter (fun m => s.systemMover m && (s.mstate m == 1 || s.mstate m == 2) &&
    (List.range 8).any (fun a => s.rd (Reg.MOV_ARCFG_space (arOf m a)) == 1))

/-- A tile is powered down: state 7, and its registers, generators and banks hold nothing (R27, R411). Its generation stays,
and a fault that waits for a takeover. -/
def State.gateTile (s : State) (t : Nat) : State :=
  let x := s.tileAt t
  if s.tstate t = 6 then s
  else (s.setTile t { Tile.reset with
    sread := s.lap % 2, tgen := x.tgen, halted := x.halted, haltLap := x.haltLap }).setTstate t 7

/-- The gating boundary (R411). -/
def State.gateTiles (s : State) : State :=
  let stop := s.tileMovers
  let s := stop.foldl State.haltMover s
  let s := [0, 1, 2, 3].foldl State.chkIdle s
  let s := (List.range 36).foldl State.gateTile s
  { s with power := { s.power with gated := true, stopped := stop } }

/-! ### KEEP (R413, R414) -/

/-- Registers that lose their values in KEEP, by BAR0 offset: NTA, NTB, STM, APT, EXL, XBR, CEL and MOV (R414), and SCH, whose
block is off (R27); those of HST are reset with the host interface. -/
def keepLost (off : Nat) : Bool :=
  (decide (0x4000 ≤ off) && decide (off < 0x18000) && !(decide (0xC000 ≤ off) && decide (off < 0xD000))) ||
    (decide (0x1B000 ≤ off) && decide (off < 0x1C000))

/-- What loses power in KEEP is as POR_N leaves it (R27, R413): runners and scheduler, movers, cellar and crossbar, network and
PTP, audio ports, cascade, tiles and the vault with its store. -/
def State.powerDown (s : State) : State :=
  let s := s.driveThru false
  let s := (s.hostReset false)
  let s := (List.range 9).foldl (fun s k => if s.runnerState k = 3 then s else s.setRunnerState k 0) s
  let s := [0, 1].foldl (fun s n => (s.dropMaster n 0).wr (Reg.TIM_PTP_STATE_foreign n) 0) s
  let s := { s with
    regs := s.regs.drop keepLost
    tile := { s.tile with tiles := [], heats := [], ramp := [], cold := [], isolated := [] }
    audio := { AudioSt.reset with layout := s.audio.layout }
    vault := VaultSt.reset
    fab := { FabricSt.reset with keeperRam := s.fab.keeperRam, keeperPatch := s.fab.keeperPatch }
    port := PortSt.reset
    net := NetSt.reset
    casc := CascSt.reset
    sched := SchedSt.reset
    core := { s.core with runners := [] }
    health := { s.health with subst := none, substQueue := [], failedBanks := [], testing := [], retired := [], bankCe := [], bankUe := [] }
    time := { s.time with ptp := [] } }
  let s := (s.wr Reg.HLT_ATTIC_runner 0).wr Reg.HLT_ATTIC_banks 4
  let s := (s.wr Reg.HLT_ATTIC_lane_e 0).wr Reg.HLT_ATTIC_lane_w 0
  let s := (s.wr Reg.HLT_STATUS_subst 0).wr Reg.HLT_STATUS_subst_bank 127
  (s.wr Reg.VLT_STATUS_store_ok 0).vaultStatus

/-- QUIET_GATE (R411, R413): the boundary of lap a + F + 1, or the next boundary for KEEP from QUIET. -/
def quietGate (s : State) : State :=
  match s.power.trans with
  | some (.toQuiet a) =>
    if a + s.fLap + 1 ≤ s.lap then (s.gateTiles.setTrans none 4).setEvent Reg.GLB_EVENT_ev 1 else s
  | some (.toKeep a quiet) =>
    if a + (if quiet then 0 else s.fLap) + 1 ≤ s.lap then
      let s := if quiet then s else s.gateTiles
      (s.powerDown.setTrans none 6).portPins.setEvent Reg.GLB_EVENT_ev 1
    else s
  | _ => s

/-- ENTER_KEEP (R410, R413): GLB_PWR.cmd 4. -/
def enterKeep (s : State) : State :=
  if s.powerBar ≠ 0 ∧ s.powerBar ≠ 3 then s.refusePower s.powerBar
  else if s.pstate ≠ 2 ∧ s.pstate ≠ 4 then s.refusePower 1
  else if s.powerBar ≠ 0 then s.refusePower s.powerBar
  else if (List.range 64).any (fun r => s.ringOn r) then s.refusePower 4
  else if s.pstate = 4 then s.setTrans (some (.toKeep s.lap true)) 3
  else s.beginQuiet.setTrans (some (.toKeep s.lap false)) 3

/-- RETURN_TO_RUN (R410, R412, R414): GLB_PWR.cmd 3. -/
def returnToRun (s : State) : State :=
  if s.powerBar ≠ 0 ∧ s.powerBar ≠ 3 then s.refusePower s.powerBar
  else if s.pstate ≠ 4 ∧ s.pstate ≠ 6 then s.refusePower 1
  else if s.powerBar ≠ 0 then s.refusePower s.powerBar
  else if s.pstate = 4 then s.setTrans (some (.fromQuiet s.lap)) 5
  else s.setTrans (some .fromKeep) 7

/-- A tile that QUIET gated is powered: cold with its slot, or its heat's spare (R412). -/
def State.ungateTile (s : State) (t : Nat) : State :=
  if s.tstate t ≠ 7 then s
  else match s.tileSlot t with
    | none => s.setTstate t 3
    | some _ => s.setTstate t 2

/-- TILE_UNGATE (R412): the boundary of lap b + 1. -/
def tileUngate (s : State) : State :=
  match s.power.trans with
  | some (.fromQuiet b) =>
    if s.power.gated && decide (b + 1 ≤ s.lap) then
      let movers := s.power.stopped.filter (fun m => decide (m < 16))
      let s := (List.range 36).foldl State.ungateTile s
      let s := movers.foldl (fun s m => s.startMover m false) s
      let s := (s.tile.placed.map (·.1)).foldl State.coldObj s
      let s := (List.range 32).foldl State.coldTile s
      { s with power := { s.power with gated := false, stopped := [] } }
    else s
  | _ => s

/-- A transmit context that QUIET faded opens again (R412). -/
def State.openTx (s : State) (c : Nat) : State :=
  if 512 ≤ c ∧ (s.cst c = 1 ∨ s.cst c = 2) then s.setCtx c { s.ctx c with stopAt := 0 } else s

/-- RUN_RESUME (R412): the boundary of lap b + 5. -/
def runResume (s : State) : State :=
  match s.power.trans with
  | some (.fromQuiet b) =>
    if !s.power.gated && decide (b + 5 ≤ s.lap) then
      let s := s.setTrans none 2
      let s := { s with power := { s.power with recZeroTo := some (b + 5) } }
      let s := (List.range 32).foldl (fun s p => portDataEnable p s) s.resumePorts
      ((s.net.ctx.map (·.1)).foldl State.openTx s).setEvent Reg.GLB_EVENT_ev 1
    else s
  | _ => s

/-- KEEP_RESUME (R414): the image has been read and, at the next lap boundary, the engine acts as at processing start; an image
that fails leads to recovery. -/
def keepResume (img : ImageSrc) (failed : List Nat) (s : State) : State :=
  match s.power.trans with
  | some .fromKeep =>
    let r := s.tryImage img s.core.slot
    if r.2 then
      let s := (r.1.setTrans none 2).portPins.mapFailed.releaseRunners
      let s := [0, 1].foldl State.ptpRole s
      (s.start 0 failed).setEvent Reg.GLB_EVENT_ev 1
    else (r.1.setTrans none 0).portPins.recovery
  | _ => s

/-- POWER_CMD_RESERVED (R410): refused with reason 1; a restricted keeper or a transition refuses it first. -/
def powerCmdReserved (s : State) : State :=
  s.refusePower (if s.powerBar = 7 ∨ s.powerBar = 2 then s.powerBar else 1)

/-- POR_N_ASSERT (R405). -/
def execPorNAssert (s : State) : Host.Outcome State Fault Refusal :=
  whenWf .porNAssert (porNAssert s)

/-- POR_N_RELEASE (R407). -/
def execPorNRelease (src : BootSrc) (speed width : Nat) (s : State) : Host.Outcome State Fault Refusal :=
  whenWf (.porNRelease src speed width) (porNRelease src speed width s)

/-- PERST_N_ASSERT (R405). -/
def execPerstNAssert (s : State) : Host.Outcome State Fault Refusal :=
  whenWf .perstNAssert (perstNAssert s)

/-- PERST_N_RELEASE (R406). -/
def execPerstNRelease (speed width : Nat) (s : State) : Host.Outcome State Fault Refusal :=
  whenWf (.perstNRelease speed width) (perstNRelease speed width s)

/-- MAIN_POWER_REMOVE (R410). -/
def execMainPowerRemove (s : State) : Host.Outcome State Fault Refusal :=
  whenWf .mainPowerRemove (mainPowerRemove s)

/-- CHIP_RESET (R405). -/
def execChipReset (src : BootSrc) (s : State) : Host.Outcome State Fault Refusal :=
  whenWf (.chipReset src) (chipResetCmd src s)

/-- KEEPER_FUSE_BURN_DONE (R405). -/
def execKeeperFuseBurnDone (s : State) : Host.Outcome State Fault Refusal :=
  whenWf .keeperFuseBurnDone (keeperFuseBurnDone s)

/-- START_PROCESSING (R408). -/
def execStartProcessing (cyc : Nat) (failed : List Nat) (s : State) : Host.Outcome State Fault Refusal :=
  whenWf (.startProcessing cyc failed) (startProcessing cyc failed s)

/-- AUTO_START (R408). -/
def execAutoStart (cyc : Nat) (failed : List Nat) (s : State) : Host.Outcome State Fault Refusal :=
  whenWf (.autoStart cyc failed) (autoStart cyc failed s)

/-- ENTER_QUIET (R411). -/
def execEnterQuiet (s : State) : Host.Outcome State Fault Refusal :=
  whenWf .enterQuiet (enterQuiet s)

/-- QUIET_GATE (R411). -/
def execQuietGate (s : State) : Host.Outcome State Fault Refusal :=
  whenWf .quietGate (quietGate s)

/-- ENTER_KEEP (R413). -/
def execEnterKeep (s : State) : Host.Outcome State Fault Refusal :=
  whenWf .enterKeep (enterKeep s)

/-- RETURN_TO_RUN (R412). -/
def execReturnToRun (s : State) : Host.Outcome State Fault Refusal :=
  whenWf .returnToRun (returnToRun s)

/-- TILE_UNGATE (R412). -/
def execTileUngate (s : State) : Host.Outcome State Fault Refusal :=
  whenWf .tileUngate (tileUngate s)

/-- RUN_RESUME (R412). -/
def execRunResume (s : State) : Host.Outcome State Fault Refusal :=
  whenWf .runResume (runResume s)

/-- KEEP_RESUME (R414). -/
def execKeepResume (img : ImageSrc) (failed : List Nat) (s : State) : Host.Outcome State Fault Refusal :=
  whenWf (.keepResume img failed) (keepResume img failed s)

/-- POWER_CMD_RESERVED (R410). -/
def execPowerCmdReserved (cmd : Nat) (s : State) : Host.Outcome State Fault Refusal :=
  whenWf (.powerCmdReserved cmd) (powerCmdReserved s)

end Sys2Proof.Machine
end

