-- ==== Sys2Proof/Machine/Registers.lean ====
section
/-! DEFINITION. Host accesses to BAR0, BAR4 and configuration space: the rules of the register map (R6 to R11), pairs,
the MSI-X table (R180), windows (R182, R183), event enables (R195) and configuration requests (R406). -/

namespace Sys2Proof.Machine

/-! ### Which offsets hold registers (R180, R413, R435) -/

/-- The MSI-X table and the pending bit array (R180). -/
def inMsix (off : Nat) : Bool := decide (0xD000 ≤ off) && decide (off < 0xD408)

/-- The program memory window (R220). -/
def inPmem (off : Nat) : Bool := decide (0x14000 ≤ off) && decide (off < 0x18000)

/-- The blocks BAR0 serves in KEEP: GLB, SYN, DPL, TIM and COR (R413). -/
def keepServes (off : Nat) : Bool := decide (off < 0x4000) || (decide (0x1C000 ≤ off) && decide (off < 0x1D000))

/-- A register, or one of the two windows within BAR0, is at an offset. -/
def held (off : Nat) : Bool := (regAt off).isSome || inMsix off || inPmem off

/-- BAR0 decodes an offset (R184, R413). -/
def State.decodes (s : State) (off : Nat) : Bool := held off && (s.pstate != 6 || keepServes off)

/-! ### 64-bit pairs (R8) -/

/-- Register pairs: the low register's offset, how many pairs and how far apart, and whether software writes them. The
pairs of TIM_NOW and TIM_TCAP are latched by the read of their ns register and are read like single registers. -/
def loPairs : List (Nat × Nat × Nat × Bool) := [
  (0x1018, 1, 4, false), (0x1020, 1, 4, false),
  (0x3020, 1, 4, false), (0x302C, 1, 4, true), (0x3038, 1, 4, false), (0x3124, 2, 0x80, false), (0x3208, 8, 0x20, true),
  (0x4010, 2, 0x1000, true), (0x402C, 2, 0x1000, true), (0x606C, 1, 4, true),
  (0xC400, 64, 0x20, true),
  (0x18008, 1, 4, false), (0x18034, 1, 4, false), (0x18044, 1, 4, false), (0x1804C, 1, 4, false),
  (0x19018, 1, 4, true), (0x1902C, 1, 4, false), (0x1A008, 1, 4, true),
  (0x1B028, 1, 4, false), (0x1D024, 1, 4, false), (0x1D02C, 1, 4, true), (0x1E008, 1, 4, false)]

/-- An offset is the low register of a pair of a run. -/
def pairHas (off : Nat) (e : Nat × Nat × Nat × Bool) : Bool :=
  decide (e.1 ≤ off) && (off - e.1) % e.2.2.1 == 0 && decide ((off - e.1) / e.2.2.1 < e.2.1)

/-- A _LO register; with `w`, of a writable pair. -/
def isLo (w : Bool) (off : Nat) : Bool := loPairs.any (fun e => pairHas off e && (!w || e.2.2.2))

/-- A _HI register; with `w`, of a writable pair. -/
def isHi (w : Bool) (off : Nat) : Bool := decide (4 ≤ off) && isLo w (off - 4)

/-! ### What a register reads -/

/-- The word of a 64-bit value that a pair's register shows. -/
def half (hi : Bool) (v : Nat) : Word := BitVec.ofNat 32 (if hi then v / 2 ^ 32 else v)

/-- The registers of a context that STM_SEL selects (R281). -/
def isCtxReg (off : Nat) : Bool := off == 0x6018 || (decide (0x6040 ≤ off) && decide (off < 0x60C4))

/-- GLB_INT_SUM (R195, R416): the blocks that hold a set and enabled event bit. -/
def State.intSum (s : State) : Nat :=
  (List.range 21).foldl (fun a b =>
    a + b2n (evRegs.any (fun e => e.block == b && (s.reg e.ev &&& s.reg e.en) != 0)) * 2 ^ b) 0

/-- GRF_AB_STATE of the strip that GRF_AB_IDX names. -/
def State.abState (s : State) : Nat :=
  let i := s.rd Reg.GRF_AB_IDX_strip
  if 512 ≤ i ∧ s.nLap = 8 then 2 * 4 + 2 * 16
  else b2n (s.ab i).selB + 2 * b2n (fadeRuns (s.inPt i).fade) + 4 * s.healthCode i false + 16 * s.healthCode i true +
    64 * max (s.padOf i false) (s.padOf i true)

/-- VLT_ARM_INFO of an arm slot. -/
def armInfo : Option Arm → Nat
  | none => 0
  | some a => 1 + 2 * (a.issuer % 8) + 16 * b2n a.strict + 32 * b2n a.late + 64 * (a.profile % 16)

/-- The armed commit of the slot that VLT_ARM_SEL selects. -/
def State.selArm (s : State) : Option Arm := s.vault.arms.find? (fun a => a.slot == s.rd Reg.VLT_ARM_SEL_slot)

/-- The group that VLT_GROUP_DATA reads: 0 for an object that does not exist (R150). -/
def State.groupShown (s : State) : Nat :=
  let cls := s.rd Reg.VLT_GROUP_ADDR_class
  let sub := s.rd Reg.VLT_GROUP_ADDR_sub
  let ob := pid cls (s.rd Reg.VLT_GROUP_ADDR_index) sub
  if objectExists ob && (cls == 5 || sub == 0) then s.vault.groupOf ob else 0

/-- The entry of a port's multicast table that NTx_MCAST_SEL selects. -/
def State.mcastSel (s : State) (p : Nat) : Nat := (s.nport p).mcast.get 0 (s.rd (Reg.NT_MCAST_SEL_entry p))

/-- The statistics latched for the priority of SCH_STAT_SEL. -/
def State.statShown (s : State) : PrioStat := s.sched.latched.get PrioStat.zero (s.rd Reg.SCH_STAT_SEL_prio)

/-- The key of HLT_ERR_SEL. -/
def State.errSel (s : State) : Nat := s.rd Reg.HLT_ERR_SEL_domain * 128 + s.rd Reg.HLT_ERR_SEL_index

/-- What a read of a register answers: the stored word, or what the unit that the register shows holds. -/
def State.shown (s : State) (off : Nat) : Word :=
  if inPmem off then half (off % 8 == 4) (s.fab.pmem.get 0 ((off - 0x14000) / 8)).toNat
  else if isCtxReg off then s.net.ctxRegs.get (resetVal off) (s.selCtx * 0x100 + (off - 0x6000))
  else if 0x19200 ≤ off ∧ off < 0x19280 then BitVec.ofNat 32 (s.slotCost ((off - 0x19200) / 4))
  else match off with
    | 0x1C => BitVec.ofNat 32 s.intSum
    | 0x402C => half false (s.mcastSel 0)
    | 0x4030 => half true (s.mcastSel 0)
    | 0x502C => half false (s.mcastSel 1)
    | 0x5030 => half true (s.mcastSel 1)
    | 0x1802C => BitVec.ofNat 32 s.groupShown
    | 0x18034 => half false (s.vault.gGen.get 0 (s.rd Reg.VLT_GGEN_SEL_group))
    | 0x18038 => half true (s.vault.gGen.get 0 (s.rd Reg.VLT_GGEN_SEL_group))
    | 0x18040 => BitVec.ofNat 32 (armInfo s.selArm)
    | 0x18044 => half false (match s.selArm with | none => 0 | some a => a.mask.toNat)
    | 0x18048 => half true (match s.selArm with | none => 0 | some a => a.mask.toNat)
    | 0x1804C => half false (match s.selArm with | none => 0 | some a => a.lap)
    | 0x18050 => half true (match s.selArm with | none => 0 | some a => a.lap)
    | 0x1902C => half false (s.tileAt (s.rd Reg.TIL_TGEN_SEL_tile)).tgen
    | 0x19030 => half true (s.tileAt (s.rd Reg.TIL_TGEN_SEL_tile)).tgen
    | 0x1A028 => BitVec.ofNat 32 s.abState
    | 0x1B014 => BitVec.ofNat 32 ((s.queue (s.rd Reg.SCH_STAT_SEL_prio)).length + 65536 * (s.statShown.depth % 8192))
    | 0x1B018 => BitVec.ofNat 32 (min s.statShown.waitMax (2 ^ 32 - 1))
    | 0x1B01C => BitVec.ofNat 32 (min (s.statShown.waitSum / max s.statShown.waits 1) (2 ^ 32 - 1))
    | 0x1D044 => BitVec.ofNat 32 (min (s.health.ce.get 0 s.errSel) (2 ^ 32 - 1))
    | 0x1D048 => BitVec.ofNat 32 (min (s.health.ue.get 0 s.errSel) (2 ^ 32 - 1))
    | 0x1F008 => BitVec.ofNat 32 s.gpioLevels
    | _ => s.reg off

/-- Registers whose read is a row of its own: TIM_NOW_NS, TIM_TCAPn_NS, TIL_PLACE_DATA and the two CS_DATA. -/
def ownRead (off : Nat) : Bool :=
  [0x3010, 0x19014, 0x60C4, 0x8010].contains off ||
  (decide (0x3304 ≤ off) && decide (off < 0x3384) && off % 16 == 4)

/-- PAIR_LO_READ (R6, R8), and the reads of the registers that belong to no pair: a _LO register's read latches the
high word of its pair, which a _HI register's read returns. -/
def pairLoRead (off : Nat) (s : State) : State :=
  if !s.hostReaches || inMsix off || ownRead off then s
  else if !s.decodes off then s.decodeMiss 0 off false
  else if isLo false off then
    { s with resp := .ok ((s.shown off).setWidth 64), hiLatch := s.hiLatch.insert (off + 4) (s.shown (off + 4)) }
  else if isHi false off then { s with resp := .ok ((s.hiLatch.get 0 off).setWidth 64) }
  else { s with resp := .ok ((s.shown off).setWidth 64) }

/-- UNSUPPORTED_ACCESS (R6, R180): a narrower, wider or unaligned access; the MSI-X table and the pending bit array also
take aligned 64-bit accesses. -/
def unsupportedAccess (off size : Nat) (_write : Bool) (s : State) : State :=
  let fine := (size == 4 && off % 4 == 0) || (size == 8 && off % 8 == 0 && inMsix off)
  if !s.hostReaches || fine then s else { s with resp := .unsupported }

/-! ### Writes (R9, R11) -/

/-- The mover whose registers hold an offset (R220). -/
def moverOf (off : Nat) : Option Nat :=
  if 0x10100 ≤ off ∧ off < 0x10500 then some ((off - 0x10100) / 0x40)
  else if 0x10800 ≤ off ∧ off < 0x11800 then some ((off - 0x10800) / 0x100)
  else none

/-- The RWL fields at an offset take a sender's write: the keeper's always; any other's while they are not locked, for a
mover's registers while it is no locked system mover (R9, R206, R352). -/
def State.takesLocked (s : State) (who : Agent) (off : Nat) : Bool :=
  match moverOf off with
  | some m => s.moverOpen who m
  | none => who == .keeper || !s.on Reg.COR_LOCK_locked

/-- A register ignores writes now: a ring's while it is enabled (R185, R204), an instance's TIM_PTPx_INTV while it has a
role (R298), HLT_LIFE_BASE once processing has started (R398), an enabled context's but for STM_DRX and STM_CS_ADDR
(R261, R267, R268). -/
def State.ignores (s : State) (off : Nat) : Bool :=
  if 0xC400 ≤ off ∧ off < 0xCC00 then
    let r := (off - 0xC400) / 32
    let k := (off - 0xC400) % 32
    (k == 0 || k == 4 || k == 8 || k == 24) && s.on (Reg.HST_RCTRL_en r)
  else if off = 0x3104 ∨ off = 0x3184 then s.rd (Reg.TIM_PTP_CFG_role ((off - 0x3104) / 0x80)) != 0
  else if off = 0x1D02C ∨ off = 0x1D030 then s.run
  else isCtxReg off && s.cst s.selCtx != 0 && off != 0x6068 && off != 0x60C0

/-- A write to a register of the selected context that takes it (R261, R267, R268). -/
def State.writeCtx (s : State) (off : Nat) (val : Word) : State :=
  match regAt off with
    | none => s
    | some (d, _) =>
      let key := s.selCtx * 0x100 + (off - 0x6000)
      let cur := s.net.ctxRegs.get (resetVal off) key
      let new := BitVec.ofNat 32 (writeFields (fun f => !f.own) true d.fields cur.toNat val.toNat)
      { s with net := { s.net with ctxRegs := s.net.ctxRegs.insert key new } }

/-- A write to the selected entry of a port's multicast table: the low 32 bits, or the high ones with `valid`. -/
def State.writeMcast (s : State) (p : Nat) (hi : Bool) (val : Word) : State :=
  let e := s.rd (Reg.NT_MCAST_SEL_entry p)
  let old := s.mcastSel p
  let new := if hi then putBits old 32 17 val.toNat else putBits old 0 32 val.toNat
  s.setNport p { s.nport p with mcast := (s.nport p).mcast.put 0 e new }

/-- Levels that change when software drives a ball: selected edges are events (R433). -/
def State.driveGpio (s : State) (before : Nat) : State :=
  let now := s.gpioLevels
  let sel := s.rd Reg.PAD_GPIO_EDGE_edge
  (List.range 16).foldl (fun s n =>
    s.setEventIf (bitAt before n != bitAt now n && edgeSelected (bitsOf sel (2 * n) 2) (bitAt now n) && s.pstate != 6)
      Reg.PAD_EVENT_ev n) (s.wr Reg.PAD_GPIO_IN_in now)

/-- A network port's mode was written: its latency constants follow, and a port that is off has no link (R255, R289). -/
def State.portMode (s : State) (p : Nat) : State :=
  let s := s.showLat p
  if s.rd (Reg.NT_CFG_mode p) = 0 ∧ s.on (Reg.NT_STATUS_link p) then
    (s.wr (Reg.NT_STATUS_link p) 0).setEvent (Reg.NT_EVENT_ev p) 0
  else s

/-- What the engine does when a register has been written; `old` is the state before the write. -/
def State.wrote (s old : State) (off : Nat) : State :=
  if off = 0x3100 then s.ptpRole 0
  else if off = 0x3180 then s.ptpRole 1
  else if off = 0x4000 then (s.portMode 0).portPins
  else if off = 0x5000 then (s.portMode 1).portPins
  else if 0x8020 ≤ off ∧ off < 0x8030 then s.portPins
  else if 0x1B080 ≤ off ∧ off < 0x1B0C0 then s.dispatch
  else if off = 0x1D030 ∨ off = 0x1D02C then s.showLife
  else if off = 0x1F000 ∨ off = 0x1F004 then s.driveGpio old.gpioLevels
  else if 0x2300 ≤ off ∧ off < 0x2380 ∧ off % 0x20 = 0 then s.fpEnable ((off - 0x2300) / 0x20)
  else if 0x3200 ≤ off ∧ off < 0x3300 ∧ off % 0x20 = 0 then s.disarm ((off - 0x3200) / 0x20)
  else if 0xC414 ≤ off ∧ off < 0xCC14 ∧ (off - 0xC414) % 32 = 0 then
    let r := (off - 0xC414) / 32
    if s.on (Reg.HST_RMOD_irq_en r) && !old.on (Reg.HST_RMOD_irq_en r) then
      s.setRing r { s.ring r with unsig := 0, since := none }
    else s
  else s

/-- The write of TIM_PTPx_CFG: fields other than role are ignored while the instance has a role (R298). -/
def State.writePtpCfg (s : State) (off : Nat) (val : Word) : State :=
  let busy := s.rd (Reg.TIM_PTP_CFG_role ((off - 0x3100) / 0x80)) != 0
  s.writeReg (fun f => !f.own && (!busy || f.lo == 0)) true off val

/-- The command bit of a register whose write with that bit set is a row of its own: TIM_TOUTn_CFG.arm, NTx_I2C.go. -/
def commandBit (off : Nat) : Option Nat :=
  if 0x3200 ≤ off ∧ off < 0x3300 ∧ off % 0x20 = 0 then some 0
  else if off = 0x4020 ∨ off = 0x5020 then some 24
  else none

/-- The value of a register takes effect. -/
def State.writeValue (s : State) (who : Agent) (off : Nat) (val : Word) : State :=
  if s.ignores off then s
  else if isCtxReg off then s.writeCtx off val
  else match off with
    | 0x402C => s.writeMcast 0 false val
    | 0x4030 => s.writeMcast 0 true val
    | 0x502C => s.writeMcast 1 false val
    | 0x5030 => s.writeMcast 1 true val
    | 0x3100 => (s.writePtpCfg off val).wrote s off
    | 0x3180 => (s.writePtpCfg off val).wrote s off
    | _ => (s.writePlain (s.takesLocked who off) off val).wrote s off

/-- A runner has no path to write TIL, VLT or XBR (R228). -/
def runnerBarred (off : Nat) : Bool :=
  (decide (0x18000 ≤ off) && decide (off < 0x1A000)) || (decide (0xE000 ≤ off) && decide (off < 0xF000))

/-- A sender's write reaches BAR0's registers, and the register it names decodes; otherwise what the miss or the missing
path does (R184, R228, R233). `none` where the write reaches its register. -/
def State.turnedAway (s : State) (who : Agent) (off : Nat) : Option State :=
  match who with
  | .host =>
    if !s.hostReaches then some s
    else if s.decodes off then none
    else some (s.decodeMiss 0 off true)
  | .runner k =>
    if !s.runnerRuns k then some s
    else if runnerBarred off then some ((s.xbrError 2 (1 + k) 8 off true).busError (1 + k) off)
    else if s.decodes off then none
    else
      let t := s.xbrError 1 (1 + k) 8 off true
      some (if s.decodePolicy (1 + k) then t else t.busError (1 + k) off)
  | .keeper =>
    if !s.power.main || s.power.porLow then some s
    else if s.decodes off then none
    else
      let t := s.xbrError 1 0 8 off true
      some (if s.decodePolicy 0 then t else t.busError 0 off)

/-- A host's write completes. -/
def State.answerWrite (s : State) (who : Agent) : State := if who = .host then { s with resp := .ok 0 } else s

/-- PROGRAM_MEMORY_WRITE (R220): one word of an instruction, the low word first; ignored below pmem_lim. A
runner has no path to write it: BUS_ERR (R228, R233). -/
def programMemoryWrite (who : Agent) (off : Nat) (val : Word) (s : State) : State :=
  match who with
  | .runner k => if s.runnerRuns k then (s.xbrError 2 (1 + k) 11 off true).busError (1 + k) off else s
  | _ =>
    match s.turnedAway who (0x14000 + off) with
    | some t => t
    | none =>
      let i := off / 8
      if s.pmemOpen who i then
        let old := (s.fab.pmem.get 0 i).toNat
        { s with fab := { s.fab with
          pmem := s.fab.pmem.put 0 i (BitVec.ofNat 64 (putBits old (if off % 8 = 0 then 0 else 32) 32 val.toNat)) } }.answerWrite who
      else s.answerWrite who

/-- The write of an event enable register by a sender that reaches it (R195): each event bit that reads 1 and whose enable
bit is written 1 is raised. -/
def State.enableWrite (s : State) (who : Agent) (e : EvReg) (off : Nat) (val : Word) : State :=
  let set := s.reg e.ev
  let s := (s.writeOwn off val).answerWrite who
  (List.range 32).foldl (fun s b =>
    if set.getLsbD b && val.getLsbD b && (s.reg off).getLsbD b then s.raise (e.code b) else s) s

/-- REGISTER_WRITE (R9, R11): the fields of a register that have no row of their own, and a runner's or the keeper's write
of an event enable register. A write of the low register of a pair is held (R8), unless the register ignores it; one of the
high register is PAIR_HI_WRITE. -/
def registerWrite (who : Agent) (off : Nat) (val : Word) (s : State) : State :=
  match s.turnedAway who off with
  | some t => t
  | none =>
    if inMsix off || inPmem off || isHi true off then s
    else if (commandBit off).any (fun b => val.getLsbD b) then s
    else if isLo true off then
      if s.ignores off then s.answerWrite who
      else { s with loHold := s.loHold.insert (off + 4) val }.answerWrite who
    else match evRegOfEn off with
      | some e => if who = .host then s.answerWrite who else s.enableWrite who e off val
      | none => (s.writeValue who off val).answerWrite who

/-- PAIR_HI_WRITE (R8): the held low value and the high value take effect together. With no low value held since the last
write of the high register, the low half stays as it is (DESIGN CHOICE, log 27). A write that the register ignores leaves
the held value (R9). -/
def pairHiWrite (who : Agent) (off : Nat) (val : Word) (s : State) : State :=
  if !isHi true off then s
  else match s.turnedAway who off with
    | some t => t
    | none =>
      if s.ignores off then s.answerWrite who
      else
        let s := if s.loHold.has off then s.writeValue who (off - 4) (s.loHold.get 0 off) else s
        ({ s with loHold := s.loHold.erase off }.writeValue who off val).answerWrite who

/-- EVENT_ENABLE_WRITE (R195), by the host. -/
def eventEnableWrite (off : Nat) (val : Word) (s : State) : State :=
  match evRegOfEn off with
  | none => s
  | some e =>
    match s.turnedAway .host off with
    | some t => t
    | none => s.enableWrite .host e off val

/-! ### The MSI-X table (R180) -/

/-- The word of the MSI-X table or the pending bit array at an offset within it. -/
def State.msixWord (s : State) (off : Nat) : Word :=
  if off < 0x400 then
    let e := s.host.msix.get MsixEntry.reset (off / 16)
    match off % 16 / 4 with
    | 0 => e.addrLo
    | 1 => e.addrHi
    | 2 => e.data
    | _ => e.ctl
  else BitVec.ofNat 32 ((List.range 32).foldl (fun a i =>
    a + b2n (s.host.pba.get false (32 * ((off - 0x400) / 4) + i)) * 2 ^ i) 0)

/-- Writes one word of the table; the pending bits are read only. An entry that is no longer masked sends its pending
message. -/
def State.msixPut (s : State) (off : Nat) (v : Word) : State :=
  if 0x400 ≤ off then s
  else
    let e := s.host.msix.get MsixEntry.reset (off / 16)
    let e := match off % 16 / 4 with
      | 0 => { e with addrLo := v }
      | 1 => { e with addrHi := v }
      | 2 => { e with data := v }
      | _ => { e with ctl := v &&& 1#32 }
    { s with host := { s.host with msix := s.host.msix.insert (off / 16) e } }.sendPending

/-- MSIX_TABLE_ACCESS (R180): an aligned 32-bit access, or a 64-bit one as two of them in ascending order. -/
def msixTableAccess (off size : Nat) (write : Bool) (val : BitVec 64) (s : State) : State :=
  if !s.hostReaches then s
  else if s.pstate = 6 then s.decodeMiss 0 (0xD000 + off) write
  else if write then
    let t := s.msixPut off (val.setWidth 32)
    let t := if size = 8 then t.msixPut (off + 4) ((val >>> 32).setWidth 32) else t
    { t with resp := .ok 0 }
  else
    let hi := if size = 8 then (s.msixWord (off + 4)).toNat else 0
    { s with resp := .ok (BitVec.ofNat 64 ((s.msixWord off).toNat + 2 ^ 32 * hi)) }

/-! ### Windows (R182, R183, R384) -/

/-- Bytes of a region: cellar, snapshot area, mirror; the reserved region holds none (R182). -/
def regionSize : Nat → Nat
  | 0 => 0x6000000
  | 1 => 0x80000
  | 2 => 0x800000
  | _ => 0

/-- The size and base of a window, the base with the bits below the size cleared. -/
def State.winSize (s : State) (w : Nat) : Nat := 2 ^ (16 + s.rd (Reg.HST_WIN_CTL_size w))
def State.winBase (s : State) (w : Nat) : Nat :=
  let b := s.rd (Reg.HST_WIN_BASE_base w) * 65536
  b - b % s.winSize w

/-- The lowest-numbered enabled window that covers a BAR4 offset. -/
def State.windowAt (s : State) (o : Nat) : Option Nat :=
  (List.range 8).find? (fun w => s.on (Reg.HST_WIN_CTL_en w) && decide (s.winBase w ≤ o) &&
    decide (o < s.winBase w + s.winSize w))

/-- A byte of the sealed-meter mirror's region (R384). -/
def State.mirrorByte (s : State) (a : Nat) : Byte :=
  let m := s.meter
  if a < 0x400000 then (m.mirror.get [] (a / 128)).getD (a % 128) 0
  else if a < 0x400040 then m.mirrorStatus.getD (a - 0x400000) 0
  else if a < 0x400080 then m.mirrorKey.getD (a - 0x400040) 0
  else m.mirrorCfg.getD (a - 0x400080) 0

/-- What a read of a region answers, from a region offset up. -/
def State.regionRead (s : State) (region a n : Nat) : List Byte :=
  match region with
  | 0 => s.cellarSeen a n
  | 1 => getBytes s.host.snapArea a n
  | _ => (List.range n).map (fun i => s.mirrorByte (a + i))

/-- BAR4_ACCESS (R182, R184, R229): a write reaches host-writable primary shelves through a window with wr only; a read
of a bank that is not in the pool is a permission error. `ecc` are the errors of the cellar words read, and `waits` how many
of the access's pieces waited for their bank (R227, R231). -/
def bar4Access (off size : Nat) (write : Bool) (data : List Byte) (ecc : List (Nat × CellEcc)) (waits : Nat) (s : State) : State :=
  if !s.hostReaches then s
  else
    match s.windowAt off with
    | none => s.decodeMiss 2 off write
    | some w =>
      let region := s.rd (Reg.HST_WIN_CTL_region w)
      let a := s.rd (Reg.HST_WIN_TGT_tgt w) * 4096 + (off - s.winBase w)
      let last := a + size - 1
      let may := region == 0 && s.on (Reg.HST_WIN_CTL_wr w) && s.cellarOk 26 a true && s.cellarOk 26 last true
      if s.pstate = 6 ∨ regionSize region ≤ last ∨ s.windowAt (off + size - 1) ≠ some w ∨ (write && !may) then
        s.decodeMiss 2 off write
      else if write then { (s.pieceWaits 26 waits).cellarPut a data with resp := .ok 0 }
      else if region = 0 ∧ !(s.cellarOk 26 a false && s.cellarOk 26 last false) then
        { s.xbrError 2 26 0 a false with resp := .unsupported }
      else if region = 0 then
        let r := ((s.pieceWaits 26 waits).afterSeen a size).readEcc 26 a ecc (s.regionRead 0 a size)
        { r.1 with resp := if r.2.2 then .marked r.2.1 else .bytes r.2.1 }
      else { s with resp := .bytes (s.regionRead region a size) }

/-! ### Configuration requests (R177, R179, R406) -/

/-- The fields of configuration space that R177 states, in the encodings of the PCI Express Base Specification (PRESUMED, log
entry 61). -/
def cfgField : CfgField → Nat
  | .classCode => 0x040100
  | .maxPayloadSupported => 2
  | .completionTimeoutRanges => 0
  | .completionTimeoutDisable => 0
  | .aspmSupport => 2
  | .extendedTag => 1
  | .tenBitTag => 0
  | .functionLevelReset => 1
  | .msixTableSize => 63
  | .interruptPin => 0

/-- Whether the function has a capability (R177). -/
def cfgHas : CfgCap → Bool
  | .powerManagement => true
  | .pciExpress => true
  | .msix => true
  | .advancedErrorReporting => true
  | .msi => false
  | .sriov => false
  | .ats => false
  | .pasid => false
  | .l1PmSubstates => false

/-- The size of the BAR that a BAR register belongs to (R180). -/
def barSize (n : Nat) : Nat :=
  if n < 2 then 2 ^ 20 else if n < 4 then 2 ^ 16 else 2 ^ 28

/-- A BAR register (R180): an even one holds a 64-bit BAR's low address bits above its size, with the type, and with the
prefetchable bit of BAR4; an odd one the high address bits. -/
def State.barReg (s : State) (n : Nat) : Word :=
  let v := s.host.bar.get 0 n
  if n % 2 = 1 then v
  else BitVec.ofNat 32 (v.toNat / barSize n * barSize n + 4 + (if n = 4 then 8 else 0))

/-- CONFIG_REQUEST (R406): retry status until a header's IDs are presented; then the IDs, the controls the engine acts
on, the properties of R177 and the BAR registers of R180, or an open value for what the PCI Express specification alone
defines. -/
def configRequest (req : CfgReq) (s : State) : State :=
  if !s.hostReaches || s.rd Reg.HST_STATUS_speed == 0 then s
  else match s.host.ids with
    | none => { s with resp := .retry }
    | some (vendor, subVendor, subId) =>
      match req with
      | .readIds =>
        let v := BitVec.ofNat 64 (vendor + 0x9648 * 2 ^ 16 + subVendor * 2 ^ 32 + subId * 2 ^ 48)
        { s with resp := .ok v }
      | .msixControl en mask =>
        { s with host := { s.host with msixEn := en, msixMask := mask }, resp := .ok 0 }.sendPending
      | .memorySpace on => { s.wr Reg.HST_STATUS_mse (b2n on) with resp := .ok 0 }
      | .field f => { s with resp := .ok (BitVec.ofNat 64 (cfgField f)) }
      | .capability c => { s with resp := .ok (BitVec.ofNat 64 (b2n (cfgHas c))) }
      | .barRead n => { s with resp := .ok ((s.barReg n).setWidth 64) }
      | .barWrite n v => { s with host := { s.host with bar := s.host.bar.insert n v }, resp := .ok 0 }
      | .other =>
        let (v, s) := s.drawBits 64
        { s with resp := .ok v }

/-- REGISTER_WRITE (R9). -/
def execRegisterWrite (who : Agent) (off : Nat) (val : Word) (s : State) : Host.Outcome State Fault Refusal :=
  whenWf (.registerWrite who off val) (registerWrite who off val s)

/-- UNSUPPORTED_ACCESS (R6). -/
def execUnsupportedAccess (off size : Nat) (write : Bool) (s : State) : Host.Outcome State Fault Refusal :=
  whenWf (.unsupportedAccess off size write) (unsupportedAccess off size write s)

/-- PAIR_LO_READ (R8). -/
def execPairLoRead (off : Nat) (s : State) : Host.Outcome State Fault Refusal :=
  whenWf (.pairLoRead off) (pairLoRead off s)

/-- PAIR_HI_WRITE (R8). -/
def execPairHiWrite (who : Agent) (off : Nat) (val : Word) (s : State) : Host.Outcome State Fault Refusal :=
  whenWf (.pairHiWrite who off val) (pairHiWrite who off val s)

/-- PROGRAM_MEMORY_WRITE (R220). -/
def execProgramMemoryWrite (who : Agent) (off : Nat) (val : Word) (s : State) : Host.Outcome State Fault Refusal :=
  whenWf (.programMemoryWrite who off val) (programMemoryWrite who off val s)

/-- MSIX_TABLE_ACCESS (R180). -/
def execMsixTableAccess (off size : Nat) (write : Bool) (val : BitVec 64) (s : State) : Host.Outcome State Fault Refusal :=
  whenWf (.msixTableAccess off size write val) (msixTableAccess off size write val s)

/-- BAR4_ACCESS (R182). -/
def execBar4Access (off size : Nat) (write : Bool) (data : List Byte) (ecc : List (Nat × CellEcc)) (waits : Nat) (s : State) : Host.Outcome State Fault Refusal :=
  whenWf (.bar4Access off size write data ecc waits) (bar4Access off size write data ecc waits s)

/-- CONFIG_REQUEST (R406). -/
def execConfigRequest (req : CfgReq) (s : State) : Host.Outcome State Fault Refusal :=
  whenWf (.configRequest req) (configRequest req s)

/-- EVENT_ENABLE_WRITE (R195). -/
def execEventEnableWrite (off : Nat) (val : Word) (s : State) : Host.Outcome State Fault Refusal :=
  whenWf (.eventEnableWrite off val) (eventEnableWrite off val s)

end Sys2Proof.Machine
end

