-- ==== Sys2Proof/Machine/Pieces.lean ====
section
/-! DEFINITION. The crossbar's paths and pieces (R228 to R233): what a piece of a master's burst does at its target. -/

namespace Sys2Proof.Machine

/-! ### Paths (R228) -/

/-- A master's path to a target: whether it may read and whether it may write there; none where no path exists. What R206,
R222, R226 and R229 say beyond that of single shelves and registers is checked at the target. -/
def pathOf (master target : Nat) : Option (Bool × Bool) :=
  let rw : Option (Bool × Bool) := some (true, true)
  let r : Option (Bool × Bool) := some (true, false)
  let w : Option (Bool × Bool) := some (false, true)
  if master = 0 then (if [0, 6, 7, 8, 10, 11].contains target then rw else if [1, 9].contains target then r else none)
  else if master ≤ 9 then (if [0, 5, 6, 8].contains target then rw else if [1, 9, 11].contains target then r else none)
  else if master ≤ 25 then (if [0, 2, 4, 5].contains target then rw else none)
  else if master = 26 then (if target = 0 then rw else if [1, 9].contains target then r else none)
  else if master = 27 then (if [0, 5].contains target then rw else none)
  else if master = 28 then (if target = 0 then rw else if target = 2 then r else if [1, 3].contains target then w else none)
  else if master ≤ 30 ∨ master = 32 then (if target = 0 ∨ (target = 5 ∧ master ≤ 30) then w else none)
  else if master = 31 then (if [0, 5].contains target then r else none)
  else if master = 33 then (if target = 0 then r else none)
  else if master = 34 then (if [0, 2].contains target then rw else none)
  else if target = 0 then rw else none

/-- The bytes of the runners' RAM (R23): the shared 4 MiB, then the private 256 KiB of U0 to U8 (the order is a DESIGN CHOICE,
log 62). -/
def runnerShared : Nat := 0x400000
/-- The bytes of a core's private RAM (R23). -/
def privateRam : Nat := 0x40000

/-- The bytes of a target's address range; none where the spec gives no range (R183, R208, R220, R384, R435). -/
def targetSize (target : Nat) : Option Nat :=
  match target with
  | 0 => some 0x6000000
  | 1 => some 0x80000
  | 2 => some 0x400000
  | 4 => some 0x42000
  | 5 => some 0x200000
  | 6 => some (runnerShared + 9 * privateRam)
  | 7 => some privateRam
  | 8 => some 0x20000
  | 9 => some 0x800000
  | 11 => some 0x4000
  | _ => none

/-- What the target itself permits of an access its path allows: the cellar's rules, a runner's own private RAM, the registers
a runner may not write, and system movers alone beyond the cellar (R206, R228, R229). -/
def State.targetOk (s : State) (master target addr n : Nat) (write : Bool) : Bool :=
  if target = 0 then s.cellarOk master addr write && s.cellarOk master (addr + n - 1) write
  else if 10 ≤ master ∧ master ≤ 25 then s.systemMover (master - 10)
  else if target = 6 ∧ 1 ≤ master ∧ master ≤ 9 then
    let own := runnerShared + (master - 1) * privateRam
    decide (addr + n ≤ runnerShared) || (decide (own ≤ addr) && decide (addr + n ≤ own + privateRam))
  else if target = 8 ∧ 1 ≤ master ∧ master ≤ 9 then !(write && runnerBarred addr)
  else true

/-! ### What stands at a target -/

/-- A byte of a slot's X bank: a word occupies 8 bytes of address (R208). -/
def State.xByte (s : State) (addr : Nat) : Byte :=
  match s.xTile addr with
  | none => 0
  | some t => if addr % 8 < 6 then ((s.tileAt t).bank.get 0 (xKey addr)).extractLsb' (8 * (addr % 8)) 8 else 0

/-- Writes a byte of an X-bank word of a tile. -/
def State.xTilePut (s : State) (addr : Nat) (b : Byte) (t : Nat) : State :=
  let x := s.tileAt t
  let v := BitVec.ofNat 48 (putBits (x.bank.get 0 (xKey addr)).toNat (8 * (addr % 8)) 8 b.toNat)
  s.setTile t { x with bank := x.bank.put 0 (xKey addr) v }

/-- Writes a byte of a slot's X bank, in its tile and in the checker's copy (R61, R208). -/
def State.xPut (s : State) (addr : Nat) (b : Byte) : State :=
  match s.xTile addr with
  | none => s
  | some t =>
    if addr % 8 < 6 then (s.shadowOf t).foldl (fun s u => s.xTilePut addr b u) (s.xTilePut addr b t) else s

/-- Writes a byte of the audio port FIFOs. -/
def State.portBytePut (s : State) (addr : Nat) (b : Byte) : State :=
  let old := s.port.fifo.get 0 (addr / 4)
  { s with port := { s.port with fifo := s.port.fifo.put 0 (addr / 4) (BitVec.ofNat 32 (putBits old.toNat (8 * (addr % 4)) 8 b.toNat)) } }

/-- The bytes that a read of a target gives. Of the tile P banks and of the fuse controller the spec gives no layout: what
they hold is open. -/
def State.targetRead (s : State) (target addr n : Nat) : List Byte :=
  match target with
  | 0 => s.cellarSeen addr n
  | 1 => getBytes s.host.snapArea addr n
  | 2 => (List.range n).map (fun i => s.xByte (addr + i))
  | 4 => (List.range n).map (fun i => (s.port.fifo.get 0 ((addr + i) / 4)).extractLsb' (8 * ((addr + i) % 4)) 8)
  | 5 => getBytes s.fab.netBuf addr n
  | 6 => getBytes s.fab.runnerRam addr n
  | 7 => getBytes s.fab.keeperRam addr n
  | 8 => leBytes n (if isHi false addr then s.hiLatch.get 0 addr else s.shown addr).toNat
  | 9 => (List.range n).map (fun i => s.mirrorByte (addr + i))
  | 11 => (List.range n).map (fun i => (s.fab.pmem.get 0 ((addr + i) / 8)).extractLsb' (8 * ((addr + i) % 8)) 8)
  | _ => (List.range n).map (fun i => (Config.freeBits (8 * n) s.free).extractLsb' (8 * i) 8)

/-- The state after that read: a free value was drawn, or the high word of a register pair is latched (R8). -/
def State.afterRead (s : State) (target addr n : Nat) : State :=
  match target with
  | 0 => s.afterSeen addr n
  | 8 => if isLo false addr then { s with hiLatch := s.hiLatch.insert (addr + 4) (s.shown (addr + 4)) } else s
  | 3 => { s with free := s.free + 1 }
  | 10 => { s with free := s.free + 1 }
  | _ => s

/-- The agent that a master is, at the registers. -/
def agentOf (master : Nat) : Agent := if master = 0 then .keeper else .runner (master - 1)

/-- What a write does at a target. The words that stand in a tile's P banks are those of the vault's pages, whatever writes
them (log 56), and the fuse controller's burns are rows of their own. -/
def State.targetWrite (s : State) (master target addr : Nat) (data : List Byte) : State :=
  match target with
  | 0 => s.cellarPut addr data
  | 1 => { s with host := { s.host with snapArea := putBytes s.host.snapArea addr data } }
  | 2 => (data.zipIdx).foldl (fun s e => s.xPut (addr + e.2) e.1) s
  | 4 => (data.zipIdx).foldl (fun s e => s.portBytePut (addr + e.2) e.1) s
  | 5 => { s with fab := { s.fab with netBuf := putBytes s.fab.netBuf addr data } }
  | 6 => { s with fab := { s.fab with runnerRam := putBytes s.fab.runnerRam addr data } }
  | 7 => { s with fab := { s.fab with keeperRam := putBytes s.fab.keeperRam addr data } }
  | 8 => if isHi true addr then pairHiWrite (agentOf master) addr (BitVec.ofNat 32 (ofLe data)) s
      else registerWrite (agentOf master) addr (BitVec.ofNat 32 (ofLe data)) s
  | 11 => { s with fab := { s.fab with pmem := (data.zipIdx).foldl (fun (t : Tbl (BitVec 64)) e =>
      let i := (addr + e.2) / 8
      t.put 0 i (BitVec.ofNat 64 (putBits (t.get 0 i).toNat (8 * ((addr + e.2) % 8)) 8 e.1.toNat))) s.fab.pmem } }
  | _ => s

/-! ### Pieces (R230 to R233) -/

/-- The bytes of a piece that are written: all, or those of the beats before its master was reset (R232). -/
def cutPiece (addr : Nat) (data : List Byte) : Option Nat → List Byte
  | none => data
  | some n => data.take (16 * n - addr % 16)

/-- A piece that may be made: a write, or a read with what the decoders report of its words (R226, R227). A piece whose master
was reset within it is completed on the master's behalf: later beats of a write change nothing, and read data is
discarded (R232). -/
def State.pieceServed (s : State) (master target addr : Nat) (write : Bool) (data : List Byte) (ecc : List (Nat × CellEcc))
    (cut : Option Nat) : State :=
  let t :=
    if write then
      let t := s.targetWrite master target addr (cutPiece addr data cut)
      if cut.isSome || target = 8 then t else { t with resp := .ok 0 }
    else
      let r := (s.afterRead target addr data.length).readEcc master addr (if target = 0 then ecc else [])
        (s.targetRead target addr data.length)
      if cut.isSome then r.1 else { r.1 with resp := if r.2.2 then .marked r.2.1 else .bytes r.2.1 }
  if cut.isSome then (t.bump Reg.XBR_RESET_BURSTS_count 1).setEvent Reg.XBR_EVENT_ev 3 else t

/-- The BAR4 offset at which the lowest enabled window on the cellar shows a cellar byte. -/
def State.windowOffset (s : State) (addr : Nat) : Option Nat :=
  ((List.range 8).find? (fun w => s.on (Reg.HST_WIN_CTL_en w) && s.rd (Reg.HST_WIN_CTL_region w) == 0 &&
    decide (s.rd (Reg.HST_WIN_TGT_tgt w) * 4096 ≤ addr) &&
    decide (addr < s.rd (Reg.HST_WIN_TGT_tgt w) * 4096 + s.winSize w))).map
    (fun w => s.winBase w + (addr - s.rd (Reg.HST_WIN_TGT_tgt w) * 4096))

/-- The target that a decode miss shows in XBR_ERR_INFO (R235): 63 for none, but 8 where a path leads to the registers and none
stands at the offset (DEDUCED, log 38). -/
def missCode (master target : Nat) : Nat := if target = 8 && (pathOf master 8).isSome then 8 else 63

/-- A piece that may not be made, or that finds no target (R208, R226, R233): a host window's is a decode miss of BAR4, but for
a read that R229 does not permit; a user mover's write that a shelf does not permit is its ACCESS; any other is an error of the
crossbar, which the policy answers as a miss. -/
def State.pieceRefused (s : State) (master target addr n : Nat) (write miss : Bool) : State :=
  if master = 26 ∧ target = 0 ∧ (write ∨ miss) then
    match s.windowOffset addr with
    | none => s
    | some off => s.decodeMiss 2 off write
  else if miss then
    let t := s.xbrError 1 master (missCode master target) addr write
    if s.decodePolicy master then { t with resp := if write then .ok 0 else .bytes (List.replicate n 0) } else t.busError master addr
  else if target = 0 && 10 ≤ master && decide (master ≤ 25) && s.mstate (master - 10) == 1 &&
      s.cellarFault (master - 10) addr n write == some faultAccess then
    s.moverFault (master - 10) faultAccess
  else (s.xbrError 2 master target addr write).busError master addr

/-- CELLAR_PIECE (R230 to R233): a bank, or another target, serves one piece of a master's burst; `waited` says that it waited
for its bank. No path, or an address past the target, is a decode miss; an access that R228 or R229 does not permit is a
permission error. -/
def cellarPiece (master target addr : Nat) (write : Bool) (data : List Byte) (waited : Bool) (ecc : List (Nat × CellEcc))
    (cut : Option Nat) (s : State) : State :=
  let s := if target = 0 then s.pieceWaits master (b2n waited) else s
  match pathOf master target with
  | none => s.pieceRefused master target addr data.length write true
  | some p =>
    if (targetSize target).any (fun n => decide (n ≤ addr)) || (target = 8 && !s.decodes addr) then
      s.pieceRefused master target addr data.length write true
    else if (if write then p.2 else p.1) && s.targetOk master target addr data.length write then
      s.pieceServed master target addr write data ecc cut
    else s.pieceRefused master target addr data.length write false

/-- CELLAR_PIECE (R230). -/
def execCellarPiece (master target addr : Nat) (write : Bool) (data : List Byte) (waited : Bool)
    (ecc : List (Nat × CellEcc)) (cut : Option Nat) (s : State) : Host.Outcome State Fault Refusal :=
  whenWf (.cellarPiece master target addr write data waited ecc cut)
    (cellarPiece master target addr write data waited ecc cut s)

end Sys2Proof.Machine
end

