-- ==== Sys2Proof/Machine/Services.lean ====
section
/-! DEFINITION. Service calls (R194, R367). -/

namespace Sys2Proof.Machine

/-- A runner runs, so that the services are served (R351). -/
def State.served (s : State) : Bool := (List.range 9).any (fun k => s.runnerRuns k)

/-- The service a call names: word 4 [15:0]. -/
def Desc.service (d : Desc) : Nat := d.word 4 % 65536

/-- The bytes of a call's response buffer: word 5. -/
def Desc.respLen (d : Desc) : Nat := d.word 5

/-- Word 4 at completion: the service, and the service result in its upper half. -/
def resultWord (d : Desc) (result : Nat) : List (Nat × Word) := [(4, BitVec.ofNat 32 (d.service + 65536 * result))]

/-- A call completes REJECTED with a result. -/
def State.rejectCall (s : State) (r : Nat) (d : Desc) (result : Nat) : State :=
  s.complete r d.id 0x43 0 0 (resultWord d result)

/-- A call completes with a result and a response; one that its buffer cannot hold completes TRUNCATED. -/
def State.answerCall (s : State) (r : Nat) (d : Desc) (result : Nat) (resp : List Byte) : State :=
  let out := resp.take d.respLen
  let s := if out.isEmpty then s else s.emit (.hostWrite (d.word64 6) out)
  s.complete r d.id (if d.respLen < resp.length then 0x41 else 0x40) 0 out.length (resultWord d result)

/-- The length of a service's request is the table's; none for an unknown service. -/
def requestOk (service len : Nat) : Option Bool :=
  match service with
  | 0x0001 => some (len == 0)
  | 0x0010 => some (len == 4)
  | 0x0020 => some (len == 4)
  | 0x0030 => some (len == 8)
  | 0x00F0 => some (decide (len ≤ 4096))
  | _ => none

/-- SVC_CALL (R194, R367): `req` is what host memory holds of the request. An unknown service, or a request of another
length than the table's, completes REJECTED with result 1; any other awaits its service. -/
def svcCall (r : Nat) (req : List Byte) (s : State) : State :=
  if !s.ringRuns r || !s.on Reg.HST_STATUS_bme || !s.served then s
  else
    match s.oldest r 0x14 .taken with
    | none => s
    | some d =>
      if req.length ≠ chainBytes d.segs then s
      else
        match requestOk d.service req.length with
        | some true => s.setDesc r { d with stage := .active, data := req }
        | _ => s.rejectCall r d 1

/-- The oldest call of a service that awaits it. -/
def State.callOf (s : State) (r service : Nat) : Option Desc :=
  (s.ring r).descs.find? (fun d => d.stage == .active && d.type == 0x14 && d.service == service)

/-- Serves the oldest call of a service while a runner runs and the engine may write to the host (R179). -/
def State.serve (s : State) (r service : Nat) (f : Desc → State) : State :=
  if s.served && s.on Reg.HST_STATUS_bme then
    (match s.callOf r service with
    | none => s
    | some d => f d)
  else s

/-- A little-endian 32-bit word of a request. -/
def reqWord (d : Desc) (off : Nat) : Nat := ofLe ((d.data.drop off).take 4)

/-- GET_IDENT (R367). -/
def getIdent (r : Nat) (s : State) : State :=
  s.serve r 0x0001 (fun d =>
    let hash := match s.core.image with
      | none => 0
      | some i => i.hash
    s.answerCall r d 0 (leBytes 4 (s.rd Reg.COR_FW_VER_ver) ++ leBytes 4 (s.rd Reg.COR_SV_image) ++
      leBytes 4 (s.rd Reg.COR_SV_fuse) ++ leBytes 4 s.core.slot ++ beBytes 48 hash))

/-- A signed number in n bytes. -/
def leInt (n : Nat) (v : Int) : List Byte := leBytes n (v % 2 ^ (8 * n)).toNat

/-- The data set of the master an instance follows, or its own while it is master or passive; its steps are those between
it and the grandmaster. -/
def State.parentOf (s : State) (n : Nat) : Option Foreign :=
  let x := s.ptp n
  match x.foreign.find? (fun f => some f.ident == x.master) with
  | some f => some { f with steps := f.steps + 1 }
  | none => if s.ptpState n = 5 ∨ s.ptpState n = 6 then some (s.ownData n) else none

/-- The response of PTP_STATE. -/
def State.ptpStateBytes (s : State) (n : Nat) : List Byte :=
  let p := s.parentOf n
  let of (f : Foreign → Nat) : Nat := match p with
    | none => 0
    | some x => f x
  leBytes 4 (s.ptpState n) ++ leBytes 8 (s.rd64 (Reg.TIM_PTP_GM_LO_id n) (Reg.TIM_PTP_GM_HI_id n)) ++
    leBytes 1 (of (·.prio1)) ++ leBytes 1 (of (·.clkClass)) ++ leBytes 1 (of (·.accuracy)) ++ leBytes 1 (of (·.prio2)) ++
    leBytes 2 (of (·.steps)) ++ leBytes 2 0 ++ leInt 8 ((s.ptp n).mpd / 65536) ++ leInt 8 ((s.ptp n).off / 65536) ++
    leInt 1 (s.rdS (Reg.TIM_PTP_INTV_log_ann n)) ++ leInt 1 (s.rdS (Reg.TIM_PTP_INTV_log_sync n)) ++
    leInt 1 (s.rdS (Reg.TIM_PTP_INTV_log_dreq n)) ++ List.replicate 25 0

/-- PTP_STATE (R367): an instance that does not exist is a bad request. -/
def ptpStateCall (r : Nat) (s : State) : State :=
  s.serve r 0x0010 (fun d =>
    if reqWord d 0 < 2 then s.answerCall r d 0 (s.ptpStateBytes (reqWord d 0)) else s.rejectCall r d 1)

/-- A port's multicast memberships with their source filters: those of its enabled contexts that reports have told (R277). -/
def State.memberships (s : State) (p : Nat) : List (Nat × Nat) :=
  (((s.groupCtx p).map (fun c => (s.cDst c p, s.cSrc c p))).filter (fun e =>
    (s.nport p).groups.contains e.1)).eraseDups.take 1024

/-- MCAST_LIST (R367): a port that does not exist is a bad request. -/
def mcastList (r : Nat) (s : State) : State :=
  s.serve r 0x0020 (fun d =>
    let p := reqWord d 0
    if p < 2 then
      let l := s.memberships p
      s.answerCall r d 0 (leBytes 4 l.length ++ l.flatMap (fun e => leBytes 4 e.1 ++ leBytes 4 e.2))
    else s.rejectCall r d 1)

/-- The 256 transfers of NTx_I2C that read a module, and what they leave in its registers (R256). -/
def State.sfpTransfers (s : State) (p dev : Nat) (data : Option (List Byte)) : State :=
  let n := if data.isSome then 256 else 1
  let s := (List.range n).foldl (fun s k => s.emit (.i2c p dev true k 0)) s
  let s := ((s.wr (Reg.NT_I2C_dev p) dev).wr (Reg.NT_I2C_reg p) (n - 1)).wr (Reg.NT_I2C_read p) 1
  let s := (s.wr (Reg.NT_I2C_STAT_nack p) (b2n data.isNone)).wr (Reg.NT_I2C_STAT_rdata p)
    (match data with
    | none => 0
    | some l => (l.getD 255 0).toNat)
  (s.setEvent (Reg.NT_EVENT_ev p) 2).setEventIf data.isNone (Reg.NT_EVENT_ev p) 3

/-- SFP_READ (R367): `data` is what the module answers, none where it does not acknowledge. -/
def sfpRead (r : Nat) (data : Option (List Byte)) (s : State) : State :=
  s.serve r 0x0030 (fun d =>
    let p := reqWord d 0
    let page := reqWord d 4
    if 2 ≤ p ∨ 2 ≤ page then s.rejectCall r d 1
    else if s.on (Reg.NT_STATUS_mod_abs p) || s.on (Reg.NT_I2C_STAT_busy p) then s.answerCall r d 2 []
    else
      let s := s.sfpTransfers p (0x50 + page) data
      match data with
      | none => s.answerCall r d 2 []
      | some l => s.answerCall r d 0 l)

/-- ECHO (R367). -/
def echo (r : Nat) (s : State) : State := s.serve r 0x00F0 (fun d => s.answerCall r d 0 d.data)

/-- SVC_CALL (R367). -/
def execSvcCall (ring : Nat) (req : List Byte) (s : State) : Host.Outcome State Fault Refusal :=
  whenWf (.svcCall ring req) (svcCall ring req s)

/-- GET_IDENT (R367). -/
def execGetIdent (ring : Nat) (s : State) : Host.Outcome State Fault Refusal :=
  whenWf (.getIdent ring) (getIdent ring s)

/-- PTP_STATE (R367). -/
def execPtpState (ring : Nat) (s : State) : Host.Outcome State Fault Refusal :=
  whenWf (.ptpState ring) (ptpStateCall ring s)

/-- MCAST_LIST (R367). -/
def execMcastList (ring : Nat) (s : State) : Host.Outcome State Fault Refusal :=
  whenWf (.mcastList ring) (mcastList ring s)

/-- SFP_READ (R367). -/
def execSfpRead (ring : Nat) (data : Option (List Byte)) (s : State) : Host.Outcome State Fault Refusal :=
  whenWf (.sfpRead ring data) (sfpRead ring data s)

/-- ECHO (R367). -/
def execEcho (ring : Nat) (s : State) : Host.Outcome State Fault Refusal :=
  whenWf (.echo ring) (echo ring s)

end Sys2Proof.Machine
end

