-- ==== Sys2Proof/Machine/Tile.lean ====
section
/-! DEFINITION. What a tile's processor does (chapters 02 and 03): accumulator operations, register arithmetic
and accesses through address generators. A tile halted by a fault runs nothing (R63). -/

namespace Sys2Proof.Machine

/-! ### Data registers, accumulators, generators -/

/-- A data register. -/
def Tile.dreg (t : Tile) (d : Nat) : A48 := t.d.get 0 d

/-- Writes a data register. -/
def Tile.setD (t : Tile) (d : Nat) (v : A48) : Tile := { t with d := t.d.put 0 d v }

/-- An accumulator. -/
def Tile.accAt (t : Tile) (a : Nat) : Acc := t.acc.get Acc.zero a

/-- Writes an accumulator. -/
def Tile.setAcc (t : Tile) (a : Nat) (v : Acc) : Tile := { t with acc := t.acc.put Acc.zero a v }

/-- A generator. -/
def Tile.agAt (t : Tile) (g : Nat) : Ag := t.ag.get Ag.idle g

/-- Writes a generator. -/
def Tile.setAg (t : Tile) (g : Nat) (v : Ag) : Tile := { t with ag := t.ag.put Ag.idle g v }

/-- Applies a function to a tile whose processor runs. -/
def State.onTile (s : State) (t : Nat) (f : Tile → Tile) : State :=
  if s.tileRuns t then s.setTile t (f (s.tileAt t)) else s

/-- The slot whose pages a tile's P banks hold: its own or, in the spare, that of the tile it checks (R48, R60). -/
def State.pageSlot (s : State) (t : Nat) : Option Nat :=
  if s.spare (t / 9) == some t then s.tileSlot (s.rd (Reg.TIL_HEAT_checked_tile (t / 9))) else s.tileSlot t

/-- Word w of a tile's live P bank. Each word there is a parameter word of an object of the slot, and the object's own page
bit selects the bank (R147); which parameter stands at which word is open. -/
def State.pageWord (s : State) (t w : Nat) : A48 :=
  match s.pageSlot t with
  | none => 0
  | some slot => s.vault.live (Config.pageParam (s.objsOn slot) w)

/-- A word of a tile's banks by its key; `pg` reads the live P words. -/
def Tile.word (pg : Nat → A48) (t : Tile) (k : Nat) : A48 := if k < 16384 then pg k else t.bank.get 0 k

/-- Reads the word a generator points at and advances the generator; none through a reserved bank select
code, which reads 0 (R53). -/
def Tile.agRead (pg : Nat → A48) (t : Tile) (g : Nat) : Option A48 × Tile :=
  let a := t.agAt g
  ((t.wordKey a.addr).map (fun k => t.word pg k), t.setAg g a.advance)

/-- Writes the word a generator points at and advances the generator. Only the processor's banks take the
write: the S write bank, W and X (R48); a write through another code is dropped. -/
def Tile.agWrite (t : Tile) (g : Nat) (v : A48) : Tile :=
  let a := t.agAt g
  let t' := t.setAg g a.advance
  match t.wordKey a.addr with
  | none => t'
  | some k =>
    if a.addr / 16384 % 8 < 2 then t'
    else { t' with
      bank := t'.bank.put 0 k v
      xw := if k / 16384 = 5 then t'.xw ++ [k] else t'.xw }

/-- A generator's bank select code is reserved (R53). -/
def Tile.agBad (t : Tile) (g : Nat) : Bool := (t.wordKey (t.agAt g).addr).isNone

/-- Reads an operand: its value in its format, its alignment shift, and the tile after the access. -/
def Tile.src (pg : Nat → A48) (t : Tile) : Src → Int × Nat × Tile
  | .reg f d => (fmtVal f (t.dreg d), alignShift f, t)
  | .mem f g => (fmtVal f ((t.agRead pg g).1.getD 0), alignShift f, (t.agRead pg g).2)
  | .x64 v => (v.toInt, 44, t)

/-- The tile after an operand is read. -/
def Tile.past (t : Tile) : Src → Tile
  | .mem _ g => t.setAg g (t.agAt g).advance
  | _ => t

/-- Whether an operand goes through a reserved bank select code. -/
def Tile.srcBad (t : Tile) : Src → Bool
  | .mem _ g => t.agBad g
  | _ => false

/-- An operand aligned into the accumulator (R31), and the tile after the access. -/
def Tile.aligned (pg : Nat → A48) (t : Tile) (x : Src) : Int × Tile :=
  let r := t.src pg x
  (r.1 * 2 ^ r.2.1, r.2.2)

/-- The format of an operand that a product can take. -/
def srcFmt : Src → Fmt
  | .reg f _ => f
  | .mem f _ => f
  | .x64 _ => .a48

/-- An aligned product (R31): the first operand is read first. -/
def Tile.product (pg : Nat → A48) (t : Tile) (p : Prod) : Int × Tile :=
  let x := t.src pg p.x
  let y := x.2.2.src pg p.y
  (alignProd (srcFmt p.x) x.1 (srcFmt p.y) y.1, y.2.2)

/-- Sets TIL_EVENT.ag_fault where an access used a reserved code (R53). -/
def State.agFaultIf (s : State) (c : Bool) : State := s.setEventIf c Reg.TIL_EVENT_ev 8

/-- The reserved accesses of a product. -/
def Tile.prodBad (t : Tile) (p : Prod) : Bool := t.srcBad p.x || (t.past p.x).srcBad p.y

/-! ### Accumulator operations (R33 to R36) -/

/-- clr. -/
def clr (t a : Nat) (s : State) : State := s.onTile t (fun x => x.setAcc a Acc.zero)

/-- ld. -/
def ld (t a : Nat) (x : Src) (s : State) : State :=
  let pg := s.pageWord t
  (s.onTile t (fun k => (k.aligned pg x).2.setAcc a (Acc.load (k.aligned pg x).1))).agFaultIf
    (s.tileRuns t && (s.tileAt t).srcBad x)

/-- Adds an aligned number to an accumulator of a tile, or subtracts it. -/
def Tile.accum (t : Tile) (a : Nat) (neg : Bool) (e : Int) : Tile :=
  t.setAcc a ((t.accAt a).plus (if neg then -e else e))

/-- add and sub. -/
def accAddSub (neg : Bool) (t a : Nat) (x : Src) (s : State) : State :=
  let pg := s.pageWord t
  (s.onTile t (fun k => (k.aligned pg x).2.accum a neg (k.aligned pg x).1)).agFaultIf
    (s.tileRuns t && (s.tileAt t).srcBad x)

/-- A signed product into an accumulator of a tile. -/
def Tile.macc (pg : Nat → A48) (t : Tile) (a : Nat) (neg : Bool) (p : Prod) : Tile :=
  (t.product pg p).2.accum a neg (t.product pg p).1

/-- Signed products in order, each into its accumulator, with whether an access used a reserved code. -/
def Tile.maccs (pg : Nat → A48) (t : Tile) : List (Nat × Bool × Prod) → Tile × Bool
  | [] => (t, false)
  | (a, neg, p) :: r =>
    let u := (t.macc pg a neg p).maccs pg r
    (u.1, t.prodBad p || u.2)

/-- mac, msu, mac4 and mac_par: products in order (R34). -/
def maccList (t : Nat) (l : List (Nat × Bool × Prod)) (s : State) : State :=
  let pg := s.pageWord t
  (s.onTile t (fun k => (k.maccs pg l).1)).agFaultIf (s.tileRuns t && ((s.tileAt t).maccs pg l).2)

/-- cmac: the four operands are read once each, in the order xr, xi, yr, yi; then the four additions of R35. -/
def cmacTile (pg : Nat → A48) (pair : Nat) (xr xi yr yi : Src) (t : Tile) : Tile :=
  let a := t.src pg xr
  let b := a.2.2.src pg xi
  let c := b.2.2.src pg yr
  let d := c.2.2.src pg yi
  let t := d.2.2
  let t := t.accum (2 * pair) false (alignProd (srcFmt xr) a.1 (srcFmt yr) c.1)
  let t := t.accum (2 * pair) true (alignProd (srcFmt xi) b.1 (srcFmt yi) d.1)
  let t := t.accum (2 * pair + 1) false (alignProd (srcFmt xr) a.1 (srcFmt yi) d.1)
  t.accum (2 * pair + 1) false (alignProd (srcFmt xi) b.1 (srcFmt yr) c.1)

/-- Puts a stored result in a data register or in memory. -/
def Tile.put (t : Tile) (dst : Dst) (v : A48) : Tile :=
  match dst with
  | .reg d => t.setD d v
  | .mem g => t.agWrite g v

/-- Whether a store goes through a reserved bank select code. -/
def Tile.dstBad (t : Tile) : Dst → Bool
  | .mem g => t.agBad g
  | .reg _ => false

/-- A store of an accumulator into a destination: the result held in 48 bits. -/
def storeTo (t a : Nat) (dst : Dst) (f : Acc → A48 × Acc) (s : State) : State :=
  (s.onTile t (fun k => ((k.setAcc a (f (k.accAt a)).2).put dst (f (k.accAt a)).1))).agFaultIf
    (s.tileRuns t && (s.tileAt t).dstBad dst)

/-- CLR (R33). -/
def execClr (tile a : Nat) (s : State) : Host.Outcome State Fault Refusal := whenWf (.clr tile a) (clr tile a s)

/-- LD (R33). -/
def execLd (tile a : Nat) (x : Src) (s : State) : Host.Outcome State Fault Refusal :=
  whenWf (.ld tile a x) (ld tile a x s)

/-- ACC_ADD (R32, R33). -/
def execAccAdd (tile a : Nat) (x : Src) (s : State) : Host.Outcome State Fault Refusal :=
  whenWf (.accAdd tile a x) (accAddSub false tile a x s)

/-- ACC_SUB (R32, R33). -/
def execAccSub (tile a : Nat) (x : Src) (s : State) : Host.Outcome State Fault Refusal :=
  whenWf (.accSub tile a x) (accAddSub true tile a x s)

/-- MAC (R33). -/
def execMac (tile a : Nat) (p : Prod) (s : State) : Host.Outcome State Fault Refusal :=
  whenWf (.mac tile a p) (maccList tile [(a, false, p)] s)

/-- MSU (R33). -/
def execMsu (tile a : Nat) (p : Prod) (s : State) : Host.Outcome State Fault Refusal :=
  whenWf (.msu tile a p) (maccList tile [(a, true, p)] s)

/-- MAC4 (R34): four additions in index order. -/
def execMac4 (tile a : Nat) (p0 p1 p2 p3 : Term) (s : State) : Host.Outcome State Fault Refusal :=
  whenWf (.mac4 tile a p0 p1 p2 p3)
    (maccList tile [(a, p0.neg, p0.p), (a, p1.neg, p1.p), (a, p2.neg, p2.p), (a, p3.neg, p3.p)] s)

/-- MAC_PAR (R34): one addition into each of four distinct accumulators. -/
def execMacPar (tile a0 : Nat) (p0 : Term) (a1 : Nat) (p1 : Term) (a2 : Nat) (p2 : Term) (a3 : Nat)
    (p3 : Term) (s : State) : Host.Outcome State Fault Refusal :=
  whenWf (.macPar tile a0 p0 a1 p1 a2 p2 a3 p3)
    (maccList tile [(a0, p0.neg, p0.p), (a1, p1.neg, p1.p), (a2, p2.neg, p2.p), (a3, p3.neg, p3.p)] s)

/-- CMAC (R35). -/
def execCmac (tile pair : Nat) (xr xi yr yi : Src) (s : State) : Host.Outcome State Fault Refusal :=
  let k := s.tileAt tile
  let bad := k.srcBad xr || (k.past xr).srcBad xi || ((k.past xr).past xi).srcBad yr ||
    (((k.past xr).past xi).past yr).srcBad yi
  whenWf (.cmac tile pair xr xi yr yi)
    ((s.onTile tile (cmacTile (s.pageWord tile) pair xr xi yr yi)).agFaultIf (s.tileRuns tile && bad))

/-- ST_A48 (R38, R39). -/
def execStA48 (tile a : Nat) (dst : Dst) (wrap : Bool) (s : State) : Host.Outcome State Fault Refusal :=
  whenWf (.stA48 tile a dst wrap) (storeTo tile a dst (fun x => x.storeA48 (!wrap)) s)

/-- ST_X64 (R38, R39, R126): stores the partial of a bus and sample. R39 gives no place for a single command's partial: it is
held by bus and sample in Tile.part, outside the 48-bit X bank and apart from the partials that the spine sums, and goes at the
lap's end (DESIGN CHOICE, log entry 65). -/
def execStX64 (tile a bus j : Nat) (s : State) : Host.Outcome State Fault Refusal :=
  whenWf (.stX64 tile a bus j)
    (s.onTile tile (fun k => { k with part := k.part.put 0 (bus * 8 + j) (k.accAt a).storeX64 }))

/-- ST_D32 (R38, R39): the result held sign-extended to 48 bits. -/
def execStD32 (tile a : Nat) (dst : Dst) (wrap : Bool) (s : State) : Host.Outcome State Fault Refusal :=
  whenWf (.stD32 tile a dst wrap)
    (storeTo tile a dst (fun x => ((x.storeD32 (!wrap)).1.signExtend 48, (x.storeD32 (!wrap)).2)) s)

/-! ### Register arithmetic (R40 to R42) -/

/-- An operation of one data register into another. -/
def regOp1 (t : Nat) (f : Fmt) (d x : Nat) (op : Fmt → Int → A48) (s : State) : State :=
  s.onTile t (fun k => k.setD d (op f (fmtVal f (k.dreg x))))

/-- An operation of two data registers into a third. -/
def regOp2 (t : Nat) (f : Fmt) (d x y : Nat) (op : Fmt → Int → Int → A48) (s : State) : State :=
  s.onTile t (fun k => k.setD d (op f (fmtVal f (k.dreg x)) (fmtVal f (k.dreg y))))

/-- A comparison of two data registers, whose outcome the tile holds. -/
def regCmp (t : Nat) (f : Fmt) (x y : Nat) (op : Int → Int → Bool) (s : State) : State :=
  s.onTile t (fun k => { k with cmp := op (fmtVal f (k.dreg x)) (fmtVal f (k.dreg y)) })

/-- REG_ADD (R40). -/
def execRegAdd (tile : Nat) (f : Fmt) (d x y : Nat) (s : State) : Host.Outcome State Fault Refusal :=
  whenWf (.regAdd tile f d x y) (regOp2 tile f d x y regAddV s)

/-- REG_SUB (R40). -/
def execRegSub (tile : Nat) (f : Fmt) (d x y : Nat) (s : State) : Host.Outcome State Fault Refusal :=
  whenWf (.regSub tile f d x y) (regOp2 tile f d x y regSubV s)

/-- NEG (R40). -/
def execNeg (tile : Nat) (f : Fmt) (d x : Nat) (s : State) : Host.Outcome State Fault Refusal :=
  whenWf (.neg tile f d x) (regOp1 tile f d x regNegV s)

/-- ABS (R40). -/
def execAbs (tile : Nat) (f : Fmt) (d x : Nat) (s : State) : Host.Outcome State Fault Refusal :=
  whenWf (.abs tile f d x) (regOp1 tile f d x regAbsV s)

/-- MIN (R40). -/
def execMin (tile : Nat) (f : Fmt) (d x y : Nat) (s : State) : Host.Outcome State Fault Refusal :=
  whenWf (.min tile f d x y) (regOp2 tile f d x y regMinV s)

/-- MAX (R40). -/
def execMax (tile : Nat) (f : Fmt) (d x y : Nat) (s : State) : Host.Outcome State Fault Refusal :=
  whenWf (.max tile f d x y) (regOp2 tile f d x y regMaxV s)

/-- LT (R40): −∞ lies below every finite value. -/
def execLt (tile : Nat) (f : Fmt) (x y : Nat) (s : State) : Host.Outcome State Fault Refusal :=
  whenWf (.lt tile f x y) (regCmp tile f x y (fun a b => decide (a < b)) s)

/-- LE (R40). -/
def execLe (tile : Nat) (f : Fmt) (x y : Nat) (s : State) : Host.Outcome State Fault Refusal :=
  whenWf (.le tile f x y) (regCmp tile f x y (fun a b => decide (a ≤ b)) s)

/-- EQ (R40). -/
def execEq (tile : Nat) (f : Fmt) (x y : Nat) (s : State) : Host.Outcome State Fault Refusal :=
  whenWf (.eq tile f x y) (regCmp tile f x y (fun a b => decide (a = b)) s)

/-- SHL (R40): shifts of 1 to 47. -/
def execShl (tile : Nat) (f : Fmt) (d x n : Nat) (s : State) : Host.Outcome State Fault Refusal :=
  whenWf (.shl tile f d x n) (regOp1 tile f d x (fun f v => regShlV f v n) s)

/-- SHR (R40): shifts of 1 to 47, with convergent rounding. -/
def execShr (tile : Nat) (f : Fmt) (d x n : Nat) (s : State) : Host.Outcome State Fault Refusal :=
  whenWf (.shr tile f d x n) (regOp1 tile f d x (fun f v => regShrV f v n) s)

/-- DB2LIN (R41). -/
def execDb2lin (tile d x : Nat) (s : State) : Host.Outcome State Fault Refusal :=
  whenWf (.db2lin tile d x) (s.onTile tile (fun k => k.setD d (db2linV ((k.dreg x).setWidth 32))))

/-- LIN2DB (R42). -/
def execLin2db (tile d x : Nat) (s : State) : Host.Outcome State Fault Refusal :=
  whenWf (.lin2db tile d x) (s.onTile tile (fun k => k.setD d ((lin2dbV (k.dreg x)).signExtend 48)))

/-! ### Address generators (R53, R54, R66, R172) -/

/-- Sets a generator up: it starts at pointer 0 with nothing pending. -/
def Ag.start (u : AgSetup) : Ag := ⟨u.base, u.len, 0, u.step, u.mode, none⟩

/-- A read through a generator into data register d: corrected words are written back in a free cycle and
counted; an uncorrectable word of the S read bank restarts the object that owns it, and one of the live page
makes it wait for a reload (R66, R172). -/
def agReadEcc (t g d : Nat) (ecc : Ecc) (obj : Option Nat) (s : State) : State :=
  let k := s.tileAt t
  let key := k.wordKey (k.agAt g).addr
  let pg := s.pageWord t
  let v := (k.agRead pg g).1.getD 0
  let s' := s.setTile t ((k.agRead pg g).2.setD d v)
  match key, ecc with
  | none, _ => s'.agFaultIf true
  | some _, .ok => s'
  | some w, .corrected =>
    (s'.setTile t { s'.tileAt t with wb := k.wb ++ [⟨w / 16384, w % 16384, v⟩] }).countCe 0 t
  | some w, .uncorrectable =>
    let s' := s'.countUe 0 t
    if w / 16384 ≠ 0 ∧ w / 16384 ≠ 2 + k.sread then s'
    else
      let s' := s'.setEvent Reg.TIL_EVENT_ev 3
      match obj with
      | none => s'
      | some o => if w / 16384 = 0 then s'.losePage o else s'.restartState o

/-- A generator access (R53): optional set-up, then a read into d or a write of d. -/
def agAccess (t g : Nat) (setup : Option AgSetup) (write : Bool) (d : Nat) (ecc : Ecc) (obj : Option Nat)
    (s : State) : State :=
  if !s.tileRuns t then s
  else
    let s := match setup with
      | none => s
      | some u => s.setTile t ((s.tileAt t).setAg g (Ag.start u))
    if write then
      let k := s.tileAt t
      (s.setTile t (k.agWrite g (k.dreg d))).agFaultIf (k.agBad g)
    else agReadEcc t g d ecc obj s

/-- A length written to a generator (R54). -/
def agLength (t g n : Nat) (s : State) : State :=
  let k := s.tileAt t
  let a := k.agAt g
  if !s.tileRuns t then s
  else if a.mode = .linear then s.setTile t (k.setAg g { a with len := n })
  else if a.lenOk n then s.setTile t (k.setAg g { a with pending := some n })
  else s.agFaultIf true

/-- AG_ACCESS (R53, R66, R172). -/
def execAgAccess (tile g : Nat) (setup : Option AgSetup) (write : Bool) (d : Nat) (ecc : Ecc)
    (obj : Option Nat) (s : State) : Host.Outcome State Fault Refusal :=
  whenWf (.agAccess tile g setup write d ecc obj) (agAccess tile g setup write d ecc obj s)

/-- AG_LENGTH_WRITE (R54). -/
def execAgLengthWrite (tile g len : Nat) (s : State) : Host.Outcome State Fault Refusal :=
  whenWf (.agLengthWrite tile g len) (agLength tile g len s)

/-- ECC_WRITE_BACK (R66): the oldest corrected word goes back to its bank; a word of a page is then what the page holds. -/
def execEccWriteBack (tile : Nat) (s : State) : Host.Outcome State Fault Refusal :=
  let k := s.tileAt tile
  whenWf (.eccWriteBack tile)
    (match k.wb with
    | [] => s
    | w :: r => s.setTile tile { k with
        bank := if w.bank = 0 then k.bank else k.bank.put 0 (w.bank * 16384 + w.word) w.value
        wb := r })

end Sys2Proof.Machine
end

