-- ==== Sys2Proof/Machine/Dispatch.lean ====
section
/-! DEFINITION. The meaning of a command: one arm for each constructor. -/

namespace Sys2Proof.Machine

/-- What a command does to everything but the queue. -/
def exec (i : Instr) (s : State) : Host.Outcome State Fault Refusal :=
  match i with
  | .registerWrite who off val => Sys2Proof.Machine.execRegisterWrite who off val s
  | .unsupportedAccess off size write => Sys2Proof.Machine.execUnsupportedAccess off size write s
  | .pairLoRead off => Sys2Proof.Machine.execPairLoRead off s
  | .pairHiWrite who off val => Sys2Proof.Machine.execPairHiWrite who off val s
  | .msixTableAccess off size write val => Sys2Proof.Machine.execMsixTableAccess off size write val s
  | .bar4Access off size write data ecc waits => Sys2Proof.Machine.execBar4Access off size write data ecc waits s
  | .configRequest req => Sys2Proof.Machine.execConfigRequest req s
  | .eventEnableWrite off val => Sys2Proof.Machine.execEventEnableWrite off val s
  | .lapBoundary => Sys2Proof.Machine.execLapBoundary s
  | .exchangeWindow ecc => Sys2Proof.Machine.execExchangeWindow ecc s
  | .placedProcessing tile => Sys2Proof.Machine.execPlacedProcessing tile s
  | .checkerCompare heat differs => Sys2Proof.Machine.execCheckerCompare heat differs s
  | .tileOverrun tile => Sys2Proof.Machine.execTileOverrun tile s
  | .clr tile a => Sys2Proof.Machine.execClr tile a s
  | .ld tile a x => Sys2Proof.Machine.execLd tile a x s
  | .accAdd tile a x => Sys2Proof.Machine.execAccAdd tile a x s
  | .accSub tile a x => Sys2Proof.Machine.execAccSub tile a x s
  | .mac tile a p => Sys2Proof.Machine.execMac tile a p s
  | .msu tile a p => Sys2Proof.Machine.execMsu tile a p s
  | .mac4 tile a p0 p1 p2 p3 => Sys2Proof.Machine.execMac4 tile a p0 p1 p2 p3 s
  | .macPar tile a0 p0 a1 p1 a2 p2 a3 p3 => Sys2Proof.Machine.execMacPar tile a0 p0 a1 p1 a2 p2 a3 p3 s
  | .cmac tile pair xr xi yr yi => Sys2Proof.Machine.execCmac tile pair xr xi yr yi s
  | .stA48 tile a dst wrap => Sys2Proof.Machine.execStA48 tile a dst wrap s
  | .stX64 tile a bus j => Sys2Proof.Machine.execStX64 tile a bus j s
  | .stD32 tile a dst wrap => Sys2Proof.Machine.execStD32 tile a dst wrap s
  | .regAdd tile f d x y => Sys2Proof.Machine.execRegAdd tile f d x y s
  | .regSub tile f d x y => Sys2Proof.Machine.execRegSub tile f d x y s
  | .neg tile f d x => Sys2Proof.Machine.execNeg tile f d x s
  | .abs tile f d x => Sys2Proof.Machine.execAbs tile f d x s
  | .min tile f d x y => Sys2Proof.Machine.execMin tile f d x y s
  | .max tile f d x y => Sys2Proof.Machine.execMax tile f d x y s
  | .lt tile f x y => Sys2Proof.Machine.execLt tile f x y s
  | .le tile f x y => Sys2Proof.Machine.execLe tile f x y s
  | .eq tile f x y => Sys2Proof.Machine.execEq tile f x y s
  | .shl tile f d x n => Sys2Proof.Machine.execShl tile f d x n s
  | .shr tile f d x n => Sys2Proof.Machine.execShr tile f d x n s
  | .db2lin tile d x => Sys2Proof.Machine.execDb2lin tile d x s
  | .lin2db tile d x => Sys2Proof.Machine.execLin2db tile d x s
  | .agAccess tile g su write d ecc obj => Sys2Proof.Machine.execAgAccess tile g su write d ecc obj s
  | .agLengthWrite tile g len => Sys2Proof.Machine.execAgLengthWrite tile g len s
  | .checkerAttach heat => Sys2Proof.Machine.execCheckerAttach heat s
  | .checkerCopyComplete heat => Sys2Proof.Machine.execCheckerCopyComplete heat s
  | .checkerWindowEnd heat => Sys2Proof.Machine.execCheckerWindowEnd heat s
  | .residueError tile => Sys2Proof.Machine.execResidueError tile s
  | .keeperTakeoverCommand heat tile => Sys2Proof.Machine.execKeeperTakeoverCommand heat tile s
  | .spareTakeover tile badObjs allBad => Sys2Proof.Machine.execSpareTakeover tile badObjs allBad s
  | .eccWriteBack tile => Sys2Proof.Machine.execEccWriteBack tile s
  | .warmUpRampEnd obj => Sys2Proof.Machine.execWarmUpRampEnd obj s
  | .placeDataAccess write val => Sys2Proof.Machine.execPlaceDataAccess write val s
  | .placeApplyAtLap => Sys2Proof.Machine.execPlaceApplyAtLap s
  | .placeApplyEarliest => Sys2Proof.Machine.execPlaceApplyEarliest s
  | .placeAbandon => Sys2Proof.Machine.execPlaceAbandon s
  | .migrationCopy obj => Sys2Proof.Machine.execMigrationCopy obj s
  | .placementTakeEffect => Sys2Proof.Machine.execPlacementTakeEffect s
  | .layoutApplyAtLap => Sys2Proof.Machine.execLayoutApplyAtLap s
  | .layoutApplyEarliest => Sys2Proof.Machine.execLayoutApplyEarliest s
  | .layoutAbandon => Sys2Proof.Machine.execLayoutAbandon s
  | .layoutFadeOutStart => Sys2Proof.Machine.execLayoutFadeOutStart s
  | .layoutTakeEffect => Sys2Proof.Machine.execLayoutTakeEffect s
  | .layoutFadeInStart => Sys2Proof.Machine.execLayoutFadeInStart s
  | .layoutDone => Sys2Proof.Machine.execLayoutDone s
  | .routeFadeEnd point => Sys2Proof.Machine.execRouteFadeEnd point s
  | .delayFadeEnd tap => Sys2Proof.Machine.execDelayFadeEnd tap s
  | .polarityFadeEnd obj => Sys2Proof.Machine.execPolarityFadeEnd obj s
  | .sectionFadeEnd obj sec => Sys2Proof.Machine.execSectionFadeEnd obj sec s
  | .gateHoldExpire obj level => Sys2Proof.Machine.execGateHoldExpire obj level s
  | .muteTimeout obj sample => Sys2Proof.Machine.execMuteTimeout obj sample s
  | .paramWrite ring items => Sys2Proof.Machine.execParamWrite ring items s
  | .paramRead ring items bad => Sys2Proof.Machine.execParamRead ring items bad s
  | .commitApply ring => Sys2Proof.Machine.execCommitApply ring s
  | .commitDiscard ring => Sys2Proof.Machine.execCommitDiscard ring s
  | .commitAbandon ring => Sys2Proof.Machine.execCommitAbandon ring s
  | .snapCfg ring => Sys2Proof.Machine.execSnapCfg ring s
  | .waitingDescriptorRelease ring => Sys2Proof.Machine.execWaitingDescriptorRelease ring s
  | .groupChange val => Sys2Proof.Machine.execGroupChange val s
  | .batonDistribute => Sys2Proof.Machine.execBatonDistribute s
  | .entryLap => Sys2Proof.Machine.execEntryLap s
  | .pageExchange p => Sys2Proof.Machine.execPageExchange p s
  | .loftRefreshComplete obj bad => Sys2Proof.Machine.execLoftRefreshComplete obj bad s
  | .lockRelease => Sys2Proof.Machine.execLockRelease s
  | .engineJoin => Sys2Proof.Machine.execEngineJoin s
  | .slotReload slot bad => Sys2Proof.Machine.execSlotReload slot bad s
  | .reloadComplete slot => Sys2Proof.Machine.execReloadComplete slot s
  | .snapshotWrite stream => Sys2Proof.Machine.execSnapshotWrite stream s
  | .doorbellWrite off size write val => Sys2Proof.Machine.execDoorbellWrite off size write val s
  | .descriptorTake ring entries => Sys2Proof.Machine.execDescriptorTake ring entries s
  | .ringEnable ring => Sys2Proof.Machine.execRingEnable ring s
  | .ringDisable ring => Sys2Proof.Machine.execRingDisable ring s
  | .ringDrained ring => Sys2Proof.Machine.execRingDrained ring s
  | .hostReadTimeout ring of => Sys2Proof.Machine.execHostReadTimeout ring of s
  | .hostReadError ring of => Sys2Proof.Machine.execHostReadError ring of s
  | .busMasterEnable on => Sys2Proof.Machine.execBusMasterEnable on s
  | .moderationTimer ring => Sys2Proof.Machine.execModerationTimer ring s
  | .functionLevelReset => Sys2Proof.Machine.execFunctionLevelReset s
  | .flrDone => Sys2Proof.Machine.execFlrDone s
  | .snapshotBuffer ring => Sys2Proof.Machine.execSnapshotBuffer ring s
  | .audioPlay ring data => Sys2Proof.Machine.execAudioPlay ring data s
  | .audioRec ring => Sys2Proof.Machine.execAudioRec ring s
  | .frameTx ring data => Sys2Proof.Machine.execFrameTx ring data s
  | .frameRxBuf ring => Sys2Proof.Machine.execFrameRxBuf ring s
  | .eventBuffer ring => Sys2Proof.Machine.execEventBuffer ring s
  | .healthBuffer ring => Sys2Proof.Machine.execHealthBuffer ring s
  | .svcCall ring req => Sys2Proof.Machine.execSvcCall ring req s
  | .getIdent ring => Sys2Proof.Machine.execGetIdent ring s
  | .ptpState ring => Sys2Proof.Machine.execPtpState ring s
  | .mcastList ring => Sys2Proof.Machine.execMcastList ring s
  | .sfpRead ring data => Sys2Proof.Machine.execSfpRead ring data s
  | .echo ring => Sys2Proof.Machine.execEcho ring s
  | .halt m fetch => Sys2Proof.Machine.execHalt m fetch s
  | .move m fetch ecc => Sys2Proof.Machine.execMove m fetch ecc s
  | .loop m fetch => Sys2Proof.Machine.execLoop m fetch s
  | .wait m fetch => Sys2Proof.Machine.execWait m fetch s
  | .signal m fetch => Sys2Proof.Machine.execSignal m fetch s
  | .jump m fetch => Sys2Proof.Machine.execJump m fetch s
  | .waitSatisfied m => Sys2Proof.Machine.execWaitSatisfied m s
  | .waitTimeout m => Sys2Proof.Machine.execWaitTimeout m s
  | .pacedBurst m ecc withdrawn => Sys2Proof.Machine.execPacedBurst m ecc withdrawn s
  | .moverStart who m val => Sys2Proof.Machine.execMoverStart who m val s
  | .moverStop who m val => Sys2Proof.Machine.execMoverStop who m val s
  | .moverStartAtLap m => Sys2Proof.Machine.execMoverStartAtLap m s
  | .systemMoverRestart m => Sys2Proof.Machine.execSystemMoverRestart m s
  | .inboxWrite who m val => Sys2Proof.Machine.execInboxWrite who m val s
  | .programMemoryWrite who off val => Sys2Proof.Machine.execProgramMemoryWrite who off val s
  | .moverLenWrite who m r val => Sys2Proof.Machine.execMoverLenWrite who m r val s
  | .allocate who mirror hostWr firstFit => Sys2Proof.Machine.execAllocate who mirror hostWr firstFit s
  | .free who => Sys2Proof.Machine.execFree who s
  | .resize who firstFit => Sys2Proof.Machine.execResize who firstFit s
  | .query => Sys2Proof.Machine.execQuery s
  | .allocComplete => Sys2Proof.Machine.execAllocComplete s
  | .relocationSwitch kind index => Sys2Proof.Machine.execRelocationSwitch kind index s
  | .bankOwnerWrite bank val => Sys2Proof.Machine.execBankOwnerWrite bank val s
  | .bankHandover bank => Sys2Proof.Machine.execBankHandover bank s
  | .cellarPiece master target addr write data waited ecc cut => Sys2Proof.Machine.execCellarPiece master target addr write data waited ecc cut s
  | .crossbarTimeout master target addr write => Sys2Proof.Machine.execCrossbarTimeout master target addr write s
  | .portStart p => Sys2Proof.Machine.execPortStart p s
  | .portStop p => Sys2Proof.Machine.execPortStop p s
  | .portStopClocks p => Sys2Proof.Machine.execPortStopClocks p s
  | .portAcquire p => Sys2Proof.Machine.execPortAcquire p s
  | .csLoad p => Sys2Proof.Machine.execCsLoad p s
  | .tdmFrameIn p time edge bits => Sys2Proof.Machine.execTdmFrameIn p time edge bits s
  | .tdmFrameOut p time => Sys2Proof.Machine.execTdmFrameOut p time s
  | .aes3SubframeIn r ch time frac sub => Sys2Proof.Machine.execAes3SubframeIn r ch time frac sub s
  | .aes3FrameOut r time => Sys2Proof.Machine.execAes3FrameOut r time s
  | .portClockStop p => Sys2Proof.Machine.execPortClockStop p s
  | .portClockReturn p => Sys2Proof.Machine.execPortClockReturn p s
  | .portDataEnable p => Sys2Proof.Machine.execPortDataEnable p s
  | .unmuteTimeout p ch sample => Sys2Proof.Machine.execUnmuteTimeout p ch sample s
  | .stopFadeEnd p => Sys2Proof.Machine.execStopFadeEnd p s
  | .csDataAccess stm write val => Sys2Proof.Machine.execCsDataAccess stm write val s
  | .linkChange port up => Sys2Proof.Machine.execLinkChange port up s
  | .sfpSignalChange port los modAbs => Sys2Proof.Machine.execSfpSignalChange port los modAbs s
  | .i2cGo port val => Sys2Proof.Machine.execI2cGo port val s
  | .i2cDone port rdata nack => Sys2Proof.Machine.execI2cDone port rdata nack s
  | .networkFrameReceive port cyc sub align frame => Sys2Proof.Machine.execNetworkFrameReceive port cyc sub align frame s
  | .streamLost ctx => Sys2Proof.Machine.execStreamLost ctx s
  | .pathDown ctx path => Sys2Proof.Machine.execPathDown ctx path s
  | .streamEnable => Sys2Proof.Machine.execStreamEnable s
  | .streamDisable => Sys2Proof.Machine.execStreamDisable s
  | .streamApplyDrxLen => Sys2Proof.Machine.execStreamApplyDrxLen s
  | .drxTakeEffect ctx => Sys2Proof.Machine.execDrxTakeEffect ctx s
  | .lenTakeEffect ctx => Sys2Proof.Machine.execLenTakeEffect ctx s
  | .streamCsLoad => Sys2Proof.Machine.execStreamCsLoad s
  | .packetTransmit ctx => Sys2Proof.Machine.execPacketTransmit ctx s
  | .egressFrame port cyc sub => Sys2Proof.Machine.execEgressFrame port cyc sub s
  | .igmpReport ctx => Sys2Proof.Machine.execIgmpReport ctx s
  | .timeLatchRead cyc => Sys2Proof.Machine.execTimeLatchRead cyc s
  | .timeSet => Sys2Proof.Machine.execTimeSet s
  | .clockAutoset inst cyc => Sys2Proof.Machine.execClockAutoset inst cyc s
  | .acceptEpoch inst => Sys2Proof.Machine.execAcceptEpoch inst s
  | .epochStep => Sys2Proof.Machine.execEpochStep s
  | .announceTimeout inst announces => Sys2Proof.Machine.execAnnounceTimeout inst announces s
  | .ptpSyncTransmit inst => Sys2Proof.Machine.execPtpSyncTransmit inst s
  | .toutArm n cyc val => Sys2Proof.Machine.execToutArm n cyc val s
  | .toutFire n cyc => Sys2Proof.Machine.execToutFire n cyc s
  | .tcapEdge n cyc rising held => Sys2Proof.Machine.execTcapEdge n cyc rising held s
  | .tcapPop n => Sys2Proof.Machine.execTcapPop n s
  | .dpllTick cyc => Sys2Proof.Machine.execDpllTick cyc s
  | .refSample slot cyc sub falling => Sys2Proof.Machine.execRefSample slot cyc sub falling s
  | .refQualify slot => Sys2Proof.Machine.execRefQualify slot s
  | .holdoverHistory => Sys2Proof.Machine.execHoldoverHistory s
  | .dpllLock => Sys2Proof.Machine.execDpllLock s
  | .dpllUnlock => Sys2Proof.Machine.execDpllUnlock s
  | .phaseStepWrite val => Sys2Proof.Machine.execPhaseStepWrite val s
  | .refConfigWrite off val => Sys2Proof.Machine.execRefConfigWrite off val s
  | .fpAlign n cyc => Sys2Proof.Machine.execFpAlign n cyc s
  | .fpPulse n cyc => Sys2Proof.Machine.execFpPulse n cyc s
  | .synthLock b => Sys2Proof.Machine.execSynthLock b s
  | .synthSettled b => Sys2Proof.Machine.execSynthSettled b s
  | .synthUnlock b cyc => Sys2Proof.Machine.execSynthUnlock b cyc s
  | .xoInLoss cyc => Sys2Proof.Machine.execXoInLoss cyc s
  | .ratioUpdate => Sys2Proof.Machine.execRatioUpdate s
  | .rampStart => Sys2Proof.Machine.execRampStart s
  | .rampAbort => Sys2Proof.Machine.execRampAbort s
  | .rampReturn => Sys2Proof.Machine.execRampReturn s
  | .rampDone => Sys2Proof.Machine.execRampDone s
  | .syncInEdge => Sys2Proof.Machine.execSyncInEdge s
  | .dividerReset => Sys2Proof.Machine.execDividerReset s
  | .rateApply cyc => Sys2Proof.Machine.execRateApply cyc s
  | .rateGate cyc => Sys2Proof.Machine.execRateGate cyc s
  | .rateRestart cyc => Sys2Proof.Machine.execRateRestart cyc s
  | .programTimeout => Sys2Proof.Machine.execProgramTimeout s
  | .cascadeEnable => Sys2Proof.Machine.execCascadeEnable s
  | .selfTestDone pass => Sys2Proof.Machine.execSelfTestDone pass s
  | .cascadeInsert => Sys2Proof.Machine.execCascadeInsert s
  | .cascadeWithdraw => Sys2Proof.Machine.execCascadeWithdraw s
  | .cascadeMeasure => Sys2Proof.Machine.execCascadeMeasure s
  | .cascadeDisable => Sys2Proof.Machine.execCascadeDisable s
  | .bypassSwitch => Sys2Proof.Machine.execBypassSwitch s
  | .linkTrained port nbr map => Sys2Proof.Machine.execLinkTrained port nbr map s
  | .hopMeasureDone port echoes => Sys2Proof.Machine.execHopMeasureDone port echoes s
  | .laneLockLoss port lane => Sys2Proof.Machine.execLaneLockLoss port lane s
  | .cascFrameSend => Sys2Proof.Machine.execCascFrameSend s
  | .cascFrameReceive port frame crcBad => Sys2Proof.Machine.execCascFrameReceive port frame crcBad s
  | .cascFrameLate port => Sys2Proof.Machine.execCascFrameLate port s
  | .ringCommandAction => Sys2Proof.Machine.execRingCommandAction s
  | .masterTimeout => Sys2Proof.Machine.execMasterTimeout s
  | .svAdvance vddFuse => Sys2Proof.Machine.execSvAdvance vddFuse s
  | .bootFromCellar img cal => Sys2Proof.Machine.execBootFromCellar img cal s
  | .runnerCheckIn k ms => Sys2Proof.Machine.execRunnerCheckIn k ms s
  | .runnerWatchdogExpire k ms => Sys2Proof.Machine.execRunnerWatchdogExpire k ms s
  | .runnerFault k ms => Sys2Proof.Machine.execRunnerFault k ms s
  | .runnerRetestDone k pass => Sys2Proof.Machine.execRunnerRetestDone k pass s
  | .keeperBusError addr => Sys2Proof.Machine.execKeeperBusError addr s
  | .setup cyc k t cls => Sys2Proof.Machine.execSetup cyc k t cls s
  | .release cyc k t => Sys2Proof.Machine.execRelease cyc k t s
  | .ready cyc k t => Sys2Proof.Machine.execReady cyc k t s
  | .delay cyc k t d => Sys2Proof.Machine.execDelay cyc k t d s
  | .cancel cyc k t => Sys2Proof.Machine.execCancel cyc k t s
  | .take cyc k => Sys2Proof.Machine.execTake cyc k s
  | .done cyc k t => Sys2Proof.Machine.execDone cyc k t s
  | .grab cyc k l => Sys2Proof.Machine.execGrab cyc k l s
  | .drop cyc k l => Sys2Proof.Machine.execDrop cyc k l s
  | .delayDue cyc => Sys2Proof.Machine.execDelayDue cyc s
  | .statsWindowEnd cyc => Sys2Proof.Machine.execStatsWindowEnd cyc s
  | .slmPowerOn => Sys2Proof.Machine.execSlmPowerOn s
  | .slmReset => Sys2Proof.Machine.execSlmReset s
  | .slmResetRelease => Sys2Proof.Machine.execSlmResetRelease s
  | .meterSample w0 w1 => Sys2Proof.Machine.execMeterSample w0 w1 s
  | .meterPeriodEnd => Sys2Proof.Machine.execMeterPeriodEnd s
  | .readStatus n => Sys2Proof.Machine.execReadStatus n s
  | .readLog off n coll => Sys2Proof.Machine.execReadLog off n coll s
  | .readKey n => Sys2Proof.Machine.execReadKey n s
  | .readCfg n => Sys2Proof.Machine.execReadCfg n s
  | .setTime sec => Sys2Proof.Machine.execSetTime sec s
  | .stageCfg data => Sys2Proof.Machine.execStageCfg data s
  | .commitCfg arg => Sys2Proof.Machine.execCommitCfg arg s
  | .sealCmd arg => Sys2Proof.Machine.execSealCmd arg s
  | .unsealCmd arg => Sys2Proof.Machine.execUnsealCmd arg s
  | .fuseBurnDone => Sys2Proof.Machine.execFuseBurnDone s
  | .retireTile tile => Sys2Proof.Machine.execRetireTile tile s
  | .substituteBank bank cmd => Sys2Proof.Machine.execSubstituteBank bank cmd s
  | .bankSubstSwitch => Sys2Proof.Machine.execBankSubstSwitch s
  | .fieldRepair corrected spareLeft vddFuse => Sys2Proof.Machine.execFieldRepair corrected spareLeft vddFuse s
  | .scrubPassEnd => Sys2Proof.Machine.execScrubPassEnd s
  | .scrubLate => Sys2Proof.Machine.execScrubLate s
  | .temperatureSample temps => Sys2Proof.Machine.execTemperatureSample temps s
  | .marginLow monitor slack => Sys2Proof.Machine.execMarginLow monitor slack s
  | .keeperWatchdogExpire ms => Sys2Proof.Machine.execKeeperWatchdogExpire ms s
  | .lifeUsedUpdate temp => Sys2Proof.Machine.execLifeUsedUpdate temp s
  | .healthRecord => Sys2Proof.Machine.execHealthRecord s
  | .porNAssert => Sys2Proof.Machine.execPorNAssert s
  | .porNRelease src speed width => Sys2Proof.Machine.execPorNRelease src speed width s
  | .perstNAssert => Sys2Proof.Machine.execPerstNAssert s
  | .perstNRelease speed width => Sys2Proof.Machine.execPerstNRelease speed width s
  | .startProcessing cyc failed => Sys2Proof.Machine.execStartProcessing cyc failed s
  | .autoStart cyc failed => Sys2Proof.Machine.execAutoStart cyc failed s
  | .enterQuiet => Sys2Proof.Machine.execEnterQuiet s
  | .quietGate => Sys2Proof.Machine.execQuietGate s
  | .returnToRun => Sys2Proof.Machine.execReturnToRun s
  | .tileUngate => Sys2Proof.Machine.execTileUngate s
  | .runResume => Sys2Proof.Machine.execRunResume s
  | .enterKeep => Sys2Proof.Machine.execEnterKeep s
  | .keepResume img failed => Sys2Proof.Machine.execKeepResume img failed s
  | .chipReset src => Sys2Proof.Machine.execChipReset src s
  | .powerCmdReserved cmd => Sys2Proof.Machine.execPowerCmdReserved cmd s
  | .mainPowerRemove => Sys2Proof.Machine.execMainPowerRemove s
  | .gpioEdge n level => Sys2Proof.Machine.execGpioEdge n level s
  | .keeperCheckIn ms => Sys2Proof.Machine.execKeeperCheckIn ms s
  | .xoInReturn => Sys2Proof.Machine.execXoInReturn s
  | .slmPowerRemove => Sys2Proof.Machine.execSlmPowerRemove s
  | .ptpDelayReqTransmit inst => Sys2Proof.Machine.execPtpDelayReqTransmit inst s
  | .ptpAnnounceTransmit inst => Sys2Proof.Machine.execPtpAnnounceTransmit inst s
  | .bankTestDone bank pass => Sys2Proof.Machine.execBankTestDone bank pass s
  | .tileRetestDone tile pass => Sys2Proof.Machine.execTileRetestDone tile pass s
  | .keeperFuseBurnDone => Sys2Proof.Machine.execKeeperFuseBurnDone s

end Sys2Proof.Machine
end

