-- ==== Sys2Proof/Safety.lean ====
section
/-! DEFINITION. The terms the statements use: a safe step, and what a command leaves as it was. -/

namespace Sys2Proof

/-- The engine goes on: its next step answers a next state. -/
def Safe (s : Machine.State) : Prop := ∃ t, Machine.step s = .next t

namespace Machine

/-! ### Frames -/

/-- Every register reads as before but those at the offsets named. -/
def SameRegs (but : List Nat) (s t : State) : Prop := ∀ off, off ∉ but → t.reg off = s.reg off

/-- Nothing changes but the host interface (descriptors, messages) and what has left the engine. -/
def HostOut (s t : State) : Prop := t = { s with host := t.host, outs := t.outs }

/-- Nothing changes but the registers named, which events set, HST_EVENT and HST_EVT_DROP, which a lost record
sets, the host interface and what has left the engine (R195). -/
def Noticed (evs : List Nat) (s t : State) : Prop :=
  t = { s with regs := t.regs, host := t.host, outs := t.outs } ∧
  SameRegs (evs ++ [Reg.HST_EVENT_ev.off, Reg.HST_EVT_DROP_count.off]) s t

/-! ### Tiles -/

/-- Tile n is now k and nothing else changes, but for TIL_EVENT.ag_fault and what announces it where an access went
through a reserved bank select code (R53). -/
def TileBecomes (n : Nat) (k : Tile) (bad : Bool) (s t : State) : Prop :=
  if bad then Noticed [Reg.TIL_EVENT_ev.off] (s.setTile n k) t ∧ (t.reg Reg.TIL_EVENT_ev.off).getLsbD 8 = true
  else t = s.setTile n k

/-- Nothing of the tile changes but accumulator a. -/
def AccOnly (a : Nat) (k m : Tile) : Prop := m = { k with acc := m.acc } ∧ ∀ b, b ≠ a → m.accAt b = k.accAt b

/-- Nothing of the tile changes but data register d. -/
def DregOnly (d : Nat) (k m : Tile) : Prop := m = { k with d := m.d } ∧ ∀ b, b ≠ d → m.dreg b = k.dreg b

/-- One addition into an accumulator: exact modulo 2^112, the flags by R36. -/
def Adds (e : Int) (a b : Acc) : Prop :=
  b.v = BitVec.ofInt 112 (a.v.toInt + e) ∧ b.ovf = a.ovf ∧
  (-(2 ^ 111) ≤ a.v.toInt + e ∧ a.v.toInt + e < 2 ^ 111 → b.ovg = a.ovg ∧ b.ovd = a.ovd) ∧
  (2 ^ 111 ≤ a.v.toInt + e → b.ovg = true ∧ b.ovd = (a.ovg && a.ovd)) ∧
  (a.v.toInt + e < -(2 ^ 111) → b.ovg = true ∧ b.ovd = (!a.ovg || a.ovd))

/-- q is v divided by 2^k, rounded half to even (R38). -/
def Rounds (k : Nat) (v q : Int) : Prop :=
  -(2 ^ k) ≤ 2 * (v - q * 2 ^ k) ∧ 2 * (v - q * 2 ^ k) ≤ 2 ^ k ∧
  (2 * (v - q * 2 ^ k) = 2 ^ k ∨ 2 * (v - q * 2 ^ k) = -(2 ^ k) → q % 2 = 0)

/-- A store of an accumulator (R38): r is the result and b the accumulator after it. -/
def StoresAs (k w : Nat) (lo hi : Int) (sat : Bool) (a : Acc) (r : BitVec w) (b : Acc) : Prop :=
  ∃ q, Rounds k a.v.toInt q ∧
  (sat = true → b = a ∧
    (a.ovg = true → r = BitVec.ofInt w (if a.ovd then lo else hi)) ∧
    (a.ovg = false → r = BitVec.ofInt w (if q > hi then hi else if q < lo then lo else q))) ∧
  (sat = false → r = BitVec.ofInt w q ∧ b = { a with ovf := a.ovf || a.ovg || decide (q < lo) || decide (q > hi) })

/-- Signed products in program order, each added into its accumulator (R33, R34): the tile after them, and whether an
access went through a reserved bank select code. `pg` reads the live P words. -/
def TermsRun (pg : Nat → A48) : List (Nat × Bool × Prod) → Tile → Bool → Tile → Prop
  | [], k, bad, m => bad = false ∧ m = k
  | (a, neg, p) :: r, k, bad, m => ∃ j bad', AccOnly a (k.product pg p).2 j ∧
      Adds (if neg then -(k.product pg p).1 else (k.product pg p).1) ((k.product pg p).2.accAt a) (j.accAt a) ∧
      TermsRun pg r j bad' m ∧ bad = (k.prodBad p || bad')

/-! ### The signal path -/

/-- A strip's state is now x and no other strip's state changes, nor anything else. -/
def StripBecomes (o : Nat) (x : Strip) (s t : State) : Prop :=
  t = { s with audio := { s.audio with strips := t.audio.strips, stripsW := t.audio.stripsW } } ∧
  t.stripNow o = x ∧ ∀ j, j ≠ o → t.stripNow j = s.stripNow j

/-- A route point's fade has ended: the point stays at its new value, or the change that was held starts its own fade
(R90). -/
def FadeEnded (p q : RoutePt) : Prop :=
  (p.held = none → q.fade = none ∧ q.cur = p.cur ∧ q.old = p.cur ∧ q.held = none) ∧
  ∀ h, p.held = some h → h.val ≠ p.cur → 0 < h.len →
    q.fade = some ⟨h.len, 0, h.power⟩ ∧ q.cur = h.val ∧ q.old = p.cur ∧ q.held = none

/-! ### Descriptors -/

/-- The descriptor at the head of a ring completes (R188): its type-specific words and then words 0 and 1 of each of its
segments are written to the ring's entries in host memory, own 0; it leaves the ring with what completed behind it; no
other ring changes, and nothing but the host interface and what has left the engine. -/
def HeadCompletes (r : Nat) (d : Desc) (rest : List Desc) (code xfer detail : Nat) (wb : List (Nat × Word))
    (s t : State) : Prop :=
  HostOut s t ∧
  (s.outs ++ wb.map (fun e => Out.hostWrite (s.entryAddr r d.index + 4 * e.1) (leBytes 4 e.2.toNat)) ++
    d.segs.zipIdx.map (fun e => Out.hostWrite (s.entryAddr r (d.index + e.2))
      (doneWords (e.1.headD 0) code xfer (min detail 0xFFFF)))) <+: t.outs ∧
  (t.ring r).descs <:+ rest.map (fun x => if x.id = d.id then
    { x with stage := .done, code := code, xfer := xfer, detail := min detail 0xFFFF, wb := wb } else x) ∧
  ∀ q, q ≠ r → t.ring q = s.ring q

/-- Ring r's oldest descriptor is d, of a type and just taken, and the engine may write to host memory. -/
def AtHead (r type : Nat) (d : Desc) (rest : List Desc) (s : State) : Prop :=
  (s.ring r).descs = d :: rest ∧ d.type = type ∧ d.stage = .taken ∧ s.on Reg.HST_STATUS_bme = true

/-- A ring halts with a reason (R199): its state is 2 and HST_EVENT.ring_halt is set; nothing else changes but what
announces it. -/
def Halted (r reason : Nat) (s t : State) : Prop :=
  t.rd (Reg.HST_RSTAT_state r) = 2 ∧ t.rd (Reg.HST_RSTAT_reason r) = reason ∧
  (t.reg Reg.HST_EVENT_ev.off).getLsbD 0 = true ∧ Noticed [(Reg.HST_RSTAT_state r).off] s t

/-! ### Movers -/

/-- Mover m runs an instruction of an opcode within its activation's budget (R209, R212). -/
def Runs (m op : Nat) (s : State) : Prop :=
  s.mstate m = 1 ∧ (s.mover m).run = none ∧ bitsOf (s.instrAt m) 58 6 = op ∧
  (s.mover m).used < s.rd (Reg.MOV_BUDGET_budget m)

/-- Nothing changes but mover m and the registers named. -/
def MoverOnly (m : Nat) (regs : List Nat) (s t : State) : Prop :=
  t = { s with regs := t.regs, fab := { s.fab with movers := t.fab.movers } } ∧ SameRegs regs s t ∧
  ∀ j, j ≠ m → t.mover j = s.mover j

/-- Elements 0 to n - 1 of a MOVE lead from state us 0 to us n, one after the other and without a fault (R213). -/
def ElementsMove (m : Nat) (f : MoveI) (overlap : Bool) (ecc : List (Nat × CellEcc)) (n : Nat) (us : Nat → State) : Prop :=
  ∀ k, k < n → (us k).moveElem m f overlap (eccAt ecc k) = (us (k + 1), none)

/-- A MOVE is complete: its remainder is flushed where it says so, and the mover goes on behind it (R210, R214). -/
def MoveEnds (m : Nat) (f : MoveI) (overlap : Bool) (u t : State) : Prop :=
  ∃ w, u.flushHold m f overlap = (w, none) ∧ t.mover m = { w.mover m with run := none } ∧
  t.rd (Reg.MOV_STAT_pc m) = (w.rd (Reg.MOV_STAT_pc m) + 1) % 2048 ∧ MoverOnly m [(Reg.MOV_STAT_pc m).off] w t

/-! ### Cellar and crossbar -/

/-- A command of CEL_ALLOC_CMD is refused with a reason and changes nothing (R224). -/
def AllocRefused (reason : Nat) (s t : State) : Prop :=
  t.rd Reg.CEL_ALLOC_STATUS_reason = reason ∧ (reason ≠ 7 → t.rd Reg.CEL_ALLOC_STATUS_state = 2) ∧
  (t.reg Reg.CEL_EVENT_ev.off).getLsbD 1 = true ∧
  Noticed [Reg.CEL_ALLOC_STATUS_state.off, Reg.CEL_EVENT_ev.off] s t

/-- The engine shows an allocation in CEL_ALLOC_INFO and CEL_ALLOC_TWIN (R224). -/
def AllocShown (a : Alloc) (t : State) : Prop :=
  t.rd Reg.CEL_ALLOC_INFO_first = a.first ∧ t.rd Reg.CEL_ALLOC_INFO_count = a.count ∧
  t.rd Reg.CEL_ALLOC_INFO_mirror = b2n a.twin.isSome ∧ t.rd Reg.CEL_ALLOC_INFO_host_wr = b2n a.hostWr ∧
  t.rd Reg.CEL_ALLOC_TWIN_first = a.twin.getD 0

/-- The registers of the cellar's allocations. -/
def allocRegs : List Nat :=
  [Reg.CEL_STATUS_free.off, Reg.CEL_ALLOC_STATUS_state.off, Reg.CEL_ALLOC_INFO_first.off,
   Reg.CEL_ALLOC_TWIN_first.off, Reg.CEL_EVENT_ev.off]

/-- The crossbar counts an error and captures it where nothing is captured (R233). -/
def XbrError (kind master target addr : Nat) (write : Bool) (s t : State) : Prop :=
  t.rd Reg.XBR_ERR_COUNT_count = min (s.rd Reg.XBR_ERR_COUNT_count + 1) (2 ^ 32 - 1) ∧
  (t.reg Reg.XBR_EVENT_ev.off).getLsbD kind = true ∧
  (s.on Reg.XBR_ERR_INFO_valid = false → t.rd Reg.XBR_ERR_INFO_kind = kind ∧
    t.rd Reg.XBR_ERR_INFO_master = master ∧ t.rd Reg.XBR_ERR_INFO_target = target ∧
    t.rd Reg.XBR_ERR_INFO_write = b2n write ∧ t.rd Reg.XBR_ERR_ADDR_addr = addr % 2 ^ 32 ∧
    t.on Reg.XBR_ERR_INFO_valid = true) ∧
  (s.on Reg.XBR_ERR_INFO_valid = true → t.reg Reg.XBR_ERR_INFO_kind.off = s.reg Reg.XBR_ERR_INFO_kind.off ∧
    t.reg Reg.XBR_ERR_ADDR_addr.off = s.reg Reg.XBR_ERR_ADDR_addr.off)

/-- How a master takes a BUS_ERR (R233): the keeper and a runner record it, a mover faults with BUS_ERR, and any other
drops the piece, so that nothing changes but the registers named. -/
def TakesBusError (master : Nat) (regs : List Nat) (s t : State) : Prop :=
  (master = 0 → (t.reg Reg.COR_EVENT_ev.off).getLsbD 6 = true) ∧
  (1 ≤ master → master ≤ 9 → s.runnerRuns (master - 1) = true → (t.runner (master - 1)).halted = true) ∧
  (10 ≤ master → master ≤ 25 → s.mstate (master - 10) = 1 →
    t.mstate (master - 10) = 3 ∧ t.rd (Reg.MOV_STAT_fault (master - 10)) = 2) ∧
  (26 ≤ master → Noticed regs s t)

/-! ### Audio ports -/

/-- Nothing changes but port p and the registers named. -/
def PortOnly (p : Nat) (regs : List Nat) (s t : State) : Prop :=
  t = { s with regs := t.regs, port := { s.port with ports := t.port.ports } } ∧ SameRegs regs s t ∧
  ∀ q, q ≠ p → t.aport q = s.aport q

/-- Port p begins acquisition with a format (R245): laps count from the next boundary, before processing start from
lap 0, and its sides assign their counts anew. -/
def Acquires (p : Nat) (fmt : Word) (s t : State) : Prop :=
  let x := s.aport p
  t.pst p = 1 ∧ PortOnly p [(Reg.APT_PSTAT_state p).off] s t ∧
  t.aport p = { x with fmt := fmt, blocks := 0, okLaps := 0, armed := !s.run, heldStart := false, heldStop := false,
                       resume := false, clocks := s.portMaster p fmt, carry := false,
                       inp := { Side.reset with last := x.inp.last }, out := { Side.reset with last := x.out.last } }

/-- A frame's phase in quarters of a sample period lies where no slip is due: 0 ≤ φ < 1.5 (R242). -/
def InPhase (phi : Int) (ts : Nat) : Prop := 0 ≤ phi ∧ 2 * phi < 3 * ts

/-! ### Streams and the network -/

/-- Nothing changes but stream context c and its registers, and what an event of a context writes and announces
(R258, R281). -/
def CtxOnly (c : Nat) (s t : State) : Prop :=
  Noticed [Reg.STM_EVENT_ev.off, Reg.STM_EVT_CTX_ctx.off]
    { s with net := { s.net with ctx := t.net.ctx, ctxRegs := t.net.ctxRegs } } t ∧
  ∀ d, d ≠ c → t.ctx d = s.ctx d ∧ ∀ f : Fld, 0x6000 ≤ f.off → f.off < 0x6100 → t.cr d f = s.cr d f

/-- STM_EVENT reports an event of a context, which is captured where none is held (R281). -/
def CtxEvent (c bit : Nat) (s t : State) : Prop :=
  (t.reg Reg.STM_EVENT_ev.off).getLsbD bit = true ∧
  (s.on Reg.STM_EVT_CTX_valid = false → t.rd Reg.STM_EVT_CTX_ctx = c % 512 ∧ t.rd Reg.STM_EVT_CTX_dir = c / 512 % 2 ∧
    t.on Reg.STM_EVT_CTX_valid = true)

/-- Frames join the tail of an egress queue of a network port; its other queues stay (R276). -/
def Joins (p q : Nat) (fs : List EgFrame) (s t : State) : Prop :=
  (t.nport p).queues.get [] q = (s.nport p).queues.get [] q ++ fs ∧
  ∀ j, j ≠ q → (t.nport p).queues.get [] j = (s.nport p).queues.get [] j

/-! ### Synthesizers and the root -/

/-- A band serves a nominal ratio (R324): its entry is valid and covers the envelope. -/
def BandServes (nom : Nat) (e : Nat × Nat) : Prop := e.1 < e.2 ∧ e.1 ≤ envLo nom ∧ envHi nom ≤ e.2

/-- The smaller margin of a band that serves (R324). -/
def bandMargin (nom : Nat) (e : Nat × Nat) : Nat := min (envLo nom - e.1) (e.2 - envHi nom)

/-- R324 chooses band n of a table: of the bands that serve it has the largest margin, and the lowest number of equals. -/
def BandChosen (nom : Nat) (table : List (Nat × Nat)) (n : Nat) : Prop :=
  ∃ e, table[n]? = some e ∧ BandServes nom e ∧ ∀ i f, table[i]? = some f → BandServes nom f →
    bandMargin nom f ≤ bandMargin nom e ∧ (i < n → bandMargin nom f < bandMargin nom e)

/-- Synthesizer b is programmed for a family (R324): with the band chosen from its table it runs, not locked; where no
band serves it does not run, and SYN_EVENT.prog_fail is set. -/
def Programmed (fam : Nat) (b : Bool) (table : List (Nat × Nat)) (t : State) : Prop :=
  t.on (lockBit b) = false ∧
  (∀ n, n < 64 → BandChosen (mNom fam) table n → t.synth b = ⟨true, false, false⟩ ∧
    t.rd (if b then Reg.SYN_STATUS_band_b else Reg.SYN_STATUS_band_a) = n) ∧
  ((∀ e ∈ table, ¬BandServes (mNom fam) e) → t.synth b = Synth.reset ∧
    (t.reg Reg.SYN_EVENT_ev.off).getLsbD 5 = true)

/-- The root clocks are gated (R15, R285, R320): the local clock stands at its value and counts XO_IN, the frame and
pulse outputs stop, and SYN_LOCK is low. -/
def RootGated (cyc : Nat) (s t : State) : Prop :=
  t.syn.onRoot = false ∧ t.on Reg.SYN_STATUS_gated = true ∧ t.pads.synLock = false ∧
  t.time = { s.time with clock := s.clockAt cyc } ∧ t.lap = s.lap ∧ t.run = s.run ∧
  (∀ n, n < 4 → s.on (Reg.DPL_FP_CFG_en n) = true → t.rd (Reg.DPL_FP_CTL_state n) = 3)

/-- A rate is in force, with the ratio and the increment of its family (R282, R322, R332). -/
def RateInForce (fam mult : Nat) (t : State) : Prop :=
  t.syn.fam = fam ∧ t.syn.mult = mult ∧ t.rd Reg.TIM_INC_HI_ns = 4 ∧
  t.rd Reg.TIM_INC_LO_frac = (if fam = 1 then 0x11AAAAAA else 0x6DC96EE0)

/-- Every root clock is gated by a failure (R328): ports stop without a fade and are lost, and both synthesizers are
programmed for a rate, which the root waits for; a rate command in progress stays one until programming fails (R294). -/
def RootFails (fam mult cyc : Nat) (run : Bool) (s t : State) : Prop :=
  RootGated cyc s t ∧ RateInForce fam mult t ∧ (∃ a b, t.syn.change = some ⟨.gated, a, fam, mult, true, run, b⟩ ∧
    (b = true → s.syn.change.any (·.busy) = true)) ∧
  Programmed fam false (s.bandTable false) t ∧ Programmed fam true (s.bandTable true) t ∧
  (∀ p, p < 32 → t.pst p = if 1 ≤ s.pst p ∧ s.pst p ≤ 5 then 6 else s.pst p) ∧
  (∀ p, p < 32 → 1 ≤ s.pst p → s.pst p ≤ 5 → (t.aport p).chans = [])

/-! ### The cascade -/

/-- Nothing but the cascade and the registers named, with what their events announce, changes. -/
def CascNotice (regs : List Nat) (s t : State) : Prop :=
  Noticed (Reg.EXL_EVENT_ev.off :: regs) { s with casc := t.casc } t

/-- The registers that a link's break may write (R339, R343): the ring's state, the port's lanes and the map. -/
def linkRegs (p : Nat) : List Nat :=
  Reg.EXL_STATUS_state.off :: (Reg.EXL_PORT_lock p).off :: (List.range 8).map (fun q => (Reg.EXL_MAP_east q).off)

/-- A link of the cascade is broken (R339): it carries nothing; one that was up is announced. -/
def LinkBroken (p : Nat) (s t : State) : Prop :=
  t.linkUp p = false ∧ t.rd (Reg.EXL_PORT_lock p) = 0 ∧ t.on (Reg.EXL_PORT_nbr_valid p) = false ∧
  t.cport p = { s.cport p with trained := false, measured := false, measuring := false, got := Relay.none,
                               relay := Relay.none, chownBad := false, layoutBad := false } ∧
  (s.linkUp p = true → (t.reg Reg.EXL_EVENT_ev.off).getLsbD 1 = true ∧ (t.reg Reg.EXL_EVENT_ev.off).getLsbD 3 = true)

/-- The engine has left the ring and stands alone in a state (R338, R339): its pin is released, both links are broken,
it reaches no other engine, its link buffer is free, and nothing waits to be sent. -/
def StandsAlone (st : Nat) (s t : State) : Prop :=
  t.cstate = st ∧ t.pads = { s.pads with thruLow := false } ∧ t.on Reg.EXL_STATUS_thru = false ∧
  LinkBroken 0 s t ∧ LinkBroken 1 s t ∧
  (∀ p q, p < 2 → q < 8 → t.hopsVia p q = none) ∧ t.rd Reg.EXL_STATUS_members = 0 ∧
  t.on Reg.EXL_STATUS_master_ok = false ∧
  t.casc.pinPend = none ∧ t.casc.acts = [] ∧ t.casc.sendCmd = [] ∧ t.casc.sendRefused = [] ∧
  t.casc.sendBatons = [] ∧ t.casc.sendForwards = [] ∧ t.casc.chanOut = [] ∧ t.casc.partOut = [] ∧
  t.fab = { s.fab with allocs := s.fab.allocs.filter (fun a => !(a.kind == 6 && a.index == 0)) } ∧
  t = { s with fab := t.fab, regs := t.regs, outs := t.outs, host := t.host, audio := t.audio, casc := t.casc, pads := t.pads }

/-! ### The scheduler -/

/-- A runner issues operations: it runs and is not blocked (R360, R361, R364). -/
def Issues (k : Nat) (s : State) : Prop :=
  s.runnerRuns k = true ∧ (s.runner k).inTake = none ∧ (s.runner k).inGrab = none

/-- Nothing but the scheduler, the runners and what its events announce changes. -/
def SchedOnly (s t : State) : Prop :=
  Noticed [Reg.SCH_STATUS_tasks.off, Reg.SCH_EVENT_ev.off, Reg.SCH_CANCEL_ARR_count.off]
    { s with sched := t.sched, core := { s.core with runners := t.core.runners } } t

/-- An operation is refused and changes nothing but what its runner sees (R360). -/
def OpRefused (cyc k : Nat) (c : Instr) (s : State) : Prop :=
  exec c s = .next ((s.schedAt cyc).setRunner k { s.runner k with refused := true })

/-- An operation is carried out in a cycle, with a result. -/
def OpDone (cyc k : Nat) (c : Instr) (s : State) (p : State → Prop) : Prop :=
  ∃ t, exec c s = .next t ∧ (t.runner k).refused = false ∧ t.sched.cycle = max s.sched.cycle cyc ∧ SchedOnly s t ∧ p t

/-- Only one task changes. -/
def TaskBecomes (t : Nat) (x : Task) (s u : State) : Prop := u.task t = x ∧ ∀ y, y ≠ t → u.task y = s.task y

/-- A task enters the tail of the ready queue of its class's priority, or goes at once to the runner that has waited
longest for it (R361). -/
def BecomesReady (t : Nat) (x : Task) (s u : State) : Prop :=
  let p := s.rd (Reg.SCH_SVC_prio x.cls)
  let y := { x with st := .ready, prio := p, due := 0, since := u.sched.cycle, readyAt := u.sched.cycle + 1 }
  (s.longestBlocked t = none → TaskBecomes t y s u ∧ u.queue p = s.queue p ++ [t] ∧
    ∀ q, q ≠ p → u.queue q = s.queue q) ∧
  ∀ j, s.longestBlocked t = some j → TaskBecomes t { y with st := .running, runner := j } s u ∧
    (u.runner j).inTake = none ∧ ∀ q, u.queue q = s.queue q

/-! ### The cores -/

/-- An image is loaded from a slot (R354): its keeper patch, runner firmware and configuration lie in their RAMs, its mover
programs in the program memory, and the registers show it. -/
def ImageLoaded (i : ImageSrc) (slot : Nat) (t : State) : Prop :=
  t.core.image = some i.image ∧ t.core.slot = slot ∧ t.rd Reg.COR_BOOT_slot = slot % 4 ∧
  t.rd Reg.COR_SV_image = i.image.sv % 256 ∧
  (∀ x ∈ i.sections.take i.nsec, ∀ n w, x.words[n]? = some w →
    (x.kind = 1 → getBytes t.fab.keeperPatch (8 * n) 8 = leBytes 8 w) ∧
    (x.kind = 2 → getBytes t.fab.runnerRam (8 * n) 8 = leBytes 8 w) ∧
    (x.kind = 4 → getBytes t.fab.keeperRam (8 * n) 8 = leBytes 8 w)) ∧
  (∀ x ∈ i.sections.take i.nsec, x.kind = 3 → ∀ n w, x.words[n]? = some w → t.fab.pmem.get 0 n = BitVec.ofNat 64 w)

/-- The boot chain has ended (R353): the lock bits are set, U0 to U7 run and U8 is the spare. -/
def BootEnded (t : State) : Prop :=
  t.rd Reg.COR_BOOT_state = 3 ∧ t.rd Reg.GLB_PWR_STATUS_state = 1 ∧ t.on Reg.COR_LOCK_locked = true ∧
  (∀ k, k < 8 → t.runnerRuns k = true) ∧ t.runnerState 8 = 2 ∧ (t.reg Reg.COR_EVENT_ev.off).getLsbD 0 = true

/-- The keeper enters a fault into the health record (R400). -/
def FaultNoted (cause unit detail : Nat) (s t : State) : Prop :=
  (s.health.faults.length < 3 → t.health = { s.health with faults := s.health.faults ++ [⟨s.lap, cause, unit, detail⟩] }) ∧
  (3 ≤ s.health.faults.length → t.health = { s.health with faultsLost := s.health.faultsLost + 1 })

/-! ### The sealed level meter -/

/-- Nothing but the meter, its two pins, its registers in the main engine and what their events announce changes. -/
def MeterOnly (s t : State) : Prop :=
  t = { s with free := t.free, regs := t.regs, host := t.host, outs := t.outs, meter := t.meter,
               pads := { s.pads with mtrBusy := t.pads.mtrBusy, mtrSealed := t.pads.mtrSealed } } ∧
  ∀ off, off < 0x1E000 ∨ 0x1F000 ≤ off → off ∉ [Reg.HST_EVENT_ev.off, Reg.HST_EVT_DROP_count.off] →
    t.reg off = s.reg off

/-- A record of a kind with a payload joins the log behind the chain (R375, R376). -/
def Logged (kind : Nat) (payload : List Byte) (m n : MeterSt) : Prop :=
  let r := [BitVec.ofNat 8 kind, 1, 0, 0] ++ leBytes 8 m.seq ++ leBytes 8 m.samples ++ leBytes 4 m.fuses.events ++
    leBytes 4 m.stateWord ++ padTo 32 m.lastHash ++ padTo 64 payload ++ [0, 0, 0, 0]
  r.length = 128 ∧ n.log.get [] (m.seq % 32768) = r ∧ n.seq = m.seq + 1 ∧ n.lastHash = sha256 r ∧
  (∀ i, i ≠ m.seq % 32768 → n.log.get [] i = m.log.get [] i) ∧
  n.samples = m.samples ∧ n.fuses = m.fuses ∧ n.sealSt = m.sealSt ∧ n.cfgSlot = m.cfgSlot

/-- The meter writes a record, and behind every 60th one a signature record while it holds a key (R377); the mirror
takes them where the main engine runs (R384). Of the meter nothing changes but the log and the mirror. -/
def Records (kind : Nat) (payload : List Byte) (s t : State) : Prop :=
  let m := s.meter
  let signs := kind ≠ 2 ∧ (m.plain + 1) % 60 = 0 ∧ m.sealSt ≠ .blank
  (signs → ∃ u sig, Logged kind payload m u ∧ sig.length = 64 ∧ Logged 2 sig u t.meter) ∧
  (¬signs → Logged kind payload m t.meter) ∧
  t.meter = { m with seq := t.meter.seq, plain := t.meter.plain, lastHash := t.meter.lastHash, log := t.meter.log,
                     mirror := t.meter.mirror, mirrorStatus := t.meter.mirrorStatus, mirrorKey := t.meter.mirrorKey,
                     mirrorCfg := t.meter.mirrorCfg } ∧
  (s.mirrorOn = true → t.meter.mirror.get [] (m.seq % 32768) = t.meter.log.get [] (m.seq % 32768) ∧
    t.meter.mirrorStatus = t.meter.status ∧
    t.rd64 Reg.SLM_SEQ_LO_seq Reg.SLM_SEQ_HI_seq = (t.meter.seq - 1) % 2 ^ 64) ∧
  (s.mirrorOn = false → t.meter.mirror = m.mirror ∧ t.meter.mirrorStatus = m.mirrorStatus) ∧ MeterOnly s t

/-! ### Reset, start-up and power -/

/-- The boot chain has run (R353, R355, R406, R407): the fuses are shown, the IDs are presented, the first slot whose image
passes is loaded and both synthesizers are programmed, else the engine is in recovery. -/
def Boots (src : BootSrc) (f : Fuses) (ids : Option (Nat × Nat × Nat)) (t : State) : Prop :=
  let a := src.primary
  let b := src.secondary
  let of (i : ImageSrc) : Nat × Nat × Nat := (i.image.vendor, i.image.subVendor, i.image.subId)
  let loaded := t.rd Reg.COR_BOOT_state = 2 ∧ t.syn.fam = t.rd Reg.SYN_RATE_fam ∧ t.syn.mult = t.rd Reg.SYN_RATE_mult ∧
    Programmed t.syn.fam false (t.bandTable false) t ∧ Programmed t.syn.fam true (t.bandTable true) t
  t.core.fuses = f ∧ t.rd Reg.COR_SV_fuse = f.sv % 2 ^ Reg.COR_SV_fuse.width ∧
  t.rd Reg.HLT_REPAIR_used = f.repairs % 2 ^ Reg.HLT_REPAIR_used.width ∧
  (∀ k, k < 4 → (t.rd Reg.COR_KEY_programmed).testBit k = f.keys.has k ∧
    (t.rd Reg.COR_KEY_revoked).testBit k = f.revoked.get false k) ∧
  (∀ i, ids = some i → t.host.ids = some i) ∧
  (ids = none → t.host.ids = some (if a.headerReason f = 0 then of a else if b.headerReason f = 0 then of b
    else (f.vendor, f.subVendor, f.subId))) ∧
  (a.reason f = 0 → ImageLoaded a 0 t ∧ loaded) ∧
  (a.reason f ≠ 0 → b.reason f = 0 → ImageLoaded b 1 t ∧ loaded ∧ t.rd Reg.COR_BOOT_reason = a.reason f) ∧
  (a.reason f ≠ 0 → b.reason f ≠ 0 → t.rd Reg.COR_BOOT_state = 4 ∧ t.rd Reg.COR_BOOT_reason = b.reason f ∧
    (t.reg Reg.COR_EVENT_ev.off).getLsbD 1 = true)

/-- The meter's mirror is a copy of the log while the meter has power, and lost without it (R384). -/
def MirrorCopied (s t : State) : Prop :=
  t.meter.mirror = (if s.meter.power then s.meter.log else []) ∧
  t.meter = { s.meter with mirror := t.meter.mirror, mirrorStatus := t.meter.mirrorStatus, mirrorKey := t.meter.mirrorKey,
                           mirrorCfg := t.meter.mirrorCfg }

/-- A chip reset (R405, R433): as POR_N but for what it keeps, and the start-up order runs from step 1. -/
def ChipResets (src : BootSrc) (s t : State) : Prop :=
  Boots src s.core.fuses s.host.ids t ∧ MirrorCopied s t ∧
  (∀ f ∈ [Reg.GLB_RESET_CAUSE_por, Reg.GLB_RESET_CAUSE_perst, Reg.GLB_RESET_CAUSE_flr, Reg.HST_STATUS_speed,
    Reg.HST_STATUS_width, Reg.HST_STATUS_bme, Reg.HST_STATUS_mse, Reg.PAD_GPIO_DIR_dir, Reg.PAD_GPIO_OUT_out],
    t.rd f = s.rd f) ∧
  t.rd Reg.GLB_RESET_CAUSE_chip = 1 ∧ t.rd Reg.PAD_GPIO_IN_in = s.gpioLevels % 2 ^ 16 ∧
  t.host.msix = s.host.msix ∧ t.host.msixEn = s.host.msixEn ∧ t.host.msixMask = s.host.msixMask ∧
  t.host.doorbell = [] ∧ (∀ r, (t.ring r).descs = []) ∧ t.run = false ∧
  (∀ off, (0x2000 ≤ off ∧ off < 0xC000) ∨ (0x1A000 ≤ off ∧ off < 0x1C000) →
    off ∉ [Reg.TIM_INC_LO_frac.off, Reg.TIM_INC_HI_ns.off] → t.reg off = resetVal off) ∧
  t = { State.reset with
        pending := s.pending
        free := s.free
        regs := t.regs
        outs := t.outs
        host := t.host
        fab := { FabricSt.reset with runnerRam := t.fab.runnerRam, pmem := t.fab.pmem
                                     keeperRam := t.fab.keeperRam, keeperPatch := t.fab.keeperPatch }
        syn := { SynthSt.reset with fam := t.syn.fam, mult := t.syn.mult, a := t.syn.a, b := t.syn.b, xo := s.syn.xo }
        core := { CoreSt.reset with fuses := s.core.fuses, image := t.core.image, slot := t.core.slot }
        meter := t.meter
        power := { PowerSt.reset with main := s.power.main, porLow := false, perstLow := s.power.perstLow }
        pads := { PadSt.reset with mtrBusy := s.pads.mtrBusy, mtrSealed := s.pads.mtrSealed, gpioIn := s.pads.gpioIn } }

/-- The pins that follow a register have its levels, in KEEP their reset levels (R239, R255, R420). -/
def PinsFollow (p : PadSt) (t : State) : Prop :=
  t.pads = { p with mclkOut := t.pads.mclkOut, txDisable := t.pads.txDisable } ∧
  (∀ g, g < 4 → t.pads.mclkOut.testBit g = (t.pstate != 6 && t.on (Reg.APT_CG_mclk_oe g))) ∧
  ∀ n, n < 2 → t.pads.txDisable.testBit n = (t.pstate == 6 || t.on (Reg.NT_CFG_tx_disable n))

/-- A power command is refused with a reason and changes nothing else (R410). -/
def PowerRefused (reason : Nat) (s t : State) : Prop :=
  t.rd Reg.GLB_PWR_STATUS_reason = reason ∧ t.pstate = s.pstate ∧ (t.reg Reg.GLB_EVENT_ev.off).getLsbD 2 = true ∧
  Noticed [Reg.GLB_PWR_STATUS_reason.off, Reg.GLB_EVENT_ev.off] s t

/-- Every port stops its data with its clocks running, and every transmit context fades to zero (R246, R262, R332,
R411). -/
def OutputsFade (s t : State) : Prop :=
  (∀ p, p < 32 → (s.pst p = 3 → t.pst p = 4 ∧ (t.aport p).stopAt = s.lap + 2 ∧ (t.aport p).resume = true) ∧
    (s.pst p = 1 ∨ s.pst p = 2 → t.pst p = 5 ∧ (t.aport p).resume = true) ∧
    (s.pst p = 0 ∨ s.pst p = 6 ∨ s.pst p = 7 → t.pst p = s.pst p)) ∧
  ∀ c,
    let fades := c ∈ s.net.ctx.map (·.1) ∧ 512 ≤ c ∧ (s.cst c = 1 ∨ s.cst c = 2)
    (fades → t.ctx c = { s.ctx c with stopAt := s.lap + 2 }) ∧ (¬fades → t.ctx c = s.ctx c)

/-- An entry to QUIET or KEEP begins in RUN (R411, R413): ports and transmit contexts fade, and the record is zero from the
next lap. -/
def QuietBegins (tr : Trans) (s t : State) : Prop :=
  OutputsFade s t ∧ t.pstate = 3 ∧
  t.power = { s.power with recZeroFrom := some (s.lap + 1), recZeroTo := none, trans := some tr } ∧
  t = { s with regs := t.regs, port := { s.port with ports := t.port.ports }, net := { s.net with ctx := t.net.ctx }
               power := t.power }

/-- The store is reserved, every page is at its default, the placement and the layout armed are in force, the tiles that
pass their self-test hold their heats' slots in ascending order, and every object is cold (R59, R148, R149, R171, R408,
R438); u is the state with the store's allocation. -/
def AudioStarts (failed : List Nat) (s u t : State) : Prop :=
  let mirror := s.on Reg.VLT_CFG_store_mirror
  t.fab.allocs = u.fab.allocs ∧ t.on Reg.VLT_STORE_mirrored = mirror ∧
  t.rd Reg.VLT_STORE_shelves = (if mirror then 4224 else 2112) ∧
  (∀ a, u.allocHeld 5 0 = some a → t.rd Reg.VLT_STORE_base_shelf = a.first % 2 ^ Reg.VLT_STORE_base_shelf.width) ∧
  (s.vault.orphans = [] →
    t.vault = { VaultSt.reset with slotReload := t.vault.slotReload, objReload := t.vault.objReload }) ∧
  t.rd64 Reg.VLT_GEN_LO_gen Reg.VLT_GEN_HI_gen = 0 ∧ t.on Reg.VLT_STATUS_store_ok = true ∧
  (∀ k, k < 32 → t.vault.slotReload.get false k = true) ∧
  t.tile.pend = none ∧ t.tile.placed = (match s.tile.pend with
    | none => s.tile.placed
    | some p => p.table) ∧
  (s.tile.pend ≠ none → t.rd Reg.TIL_PLACE_STATUS_state = 0 ∧ (t.reg Reg.TIL_EVENT_ev.off).getLsbD 6 = true) ∧
  (∀ o, t.tile.placed.has o = true → t.tile.cold.get false o = true ∧ t.vault.objReload.get false o = true) ∧
  (∀ h, h < 4 →
    let good := (heatTiles h).filter (fun n => !failed.contains n)
    (∀ k n, good[k]? = some n → (k < 8 → t.tileSlot n = some (8 * h + k) ∧ t.tstate n = 2) ∧
      (k = 8 → t.tileSlot n = none ∧ t.tstate n = 3 ∧ t.spare h = some n)) ∧
    (∀ n ∈ heatTiles h, n ∈ failed → t.tileSlot n = none ∧ t.tstate n = 6) ∧
    (good.length < 9 → t.spare h = none ∧ (t.reg Reg.HLT_EVENT_ev.off).getLsbD 6 = true) ∧
    (∀ k, k < 8 → t.slotIsolated (8 * h + k) = decide (good.length ≤ k)) ∧ t.heat h = Heat.reset) ∧
  t.rd Reg.HLT_ATTIC_tiles = ((List.range 4).filter (fun h => (t.spare h).isSome)).length ∧
  (∀ p, s.audio.layout = some p → t.audio.layout = none ∧ t.reg Reg.GRF_LAYOUT_LIVE_in_ins.off = BitVec.ofNat 32 p.bits ∧
    (t.reg Reg.GRF_EVENT_ev.off).getLsbD 4 = true) ∧
  (t.reg Reg.GLB_EVENT_ev.off).getLsbD 0 = true ∧ t.run = true ∧ t.pstate = 2 ∧
  t.power = { u.power with gated := false, stopped := [], recZeroFrom := none }

/-- Processing starts (R286, R345, R408): lap 0, or the master's start lap in a ring, is anchored at least two laps on; where
it has started before, lap index and anchor go on. -/
def ProcessingStarts (cyc : Nat) (failed : List Nat) (s u t : State) : Prop :=
  AudioStarts failed s u t ∧
  t = { s with lap := t.lap, regs := t.regs, outs := t.outs, tile := t.tile, audio := t.audio, vault := t.vault
               host := t.host, fab := t.fab, port := t.port, power := t.power, sched := t.sched
               net := { s.net with ctx := t.net.ctx, ctxRegs := t.net.ctxRegs }
               time := { s.time with clock := t.time.clock, anchor := t.time.anchor } } ∧
  (s.run = true → t.lap = s.lap ∧ t.time = s.time ∧ t.net = s.net ∧ t.sched = s.sched) ∧
  (s.run = false →
    t.sched = { s.sched with winLap := t.lap, winCycle := s.sched.cycle } ∧
    (∀ c ∈ s.net.ctx.map (·.1), c < 1024 → 1 ≤ s.cst c → s.cst c < 5 → t.cst c = 1 ∧ (t.ctx c).mRead = t.nextRead ∧
      (t.ctx c).w = t.nextRead ∧ (t.ctx c).len = (s.ctx c).len ∧ (t.ctx c).dRx = (s.ctx c).dRx) ∧
    t.time.clock = (((t.lap * s.nLap : Nat) + t.time.anchor) * (10 ^ 9 * 2 ^ 32) / s.fs).toNat ∧
    (s.isMaster = true → t.lap = 0 ∧
      (s.clockAt cyc : Int) * s.fs ≤ (t.time.anchor - 2 * s.nLap) * (10 ^ 9 * 2 ^ 32) ∧
      (t.time.anchor - 1 - 2 * s.nLap) * (10 ^ 9 * 2 ^ 32) < (s.clockAt cyc : Int) * s.fs) ∧
    (s.isMaster = false → ∀ k l, s.casc.ringAnchor = some (k, l) → t.lap = l ∧ t.time.anchor = k) ∧
    ∀ p, p < 32 → t.pst p = if s.pst p = 5 ∧ (s.aport p).heldStop = true then 0 else s.pst p)

/-- Every tile but a failed one is gated, checker duty is over and the system movers with an address register on tile memory
are stopped (R411). -/
def TilesGated (s t : State) : Prop :=
  let stops (m : Nat) := s.systemMover m = true ∧ (s.mstate m = 1 ∨ s.mstate m = 2) ∧
    ∃ a, a < 8 ∧ s.rd (Reg.MOV_ARCFG_space (arOf m a)) = 1
  t.power.gated = true ∧
  (∀ n, n < 36 → (t.tstate n = 6 ∨ t.tstate n = 7) ∧
    (t.tstate n = 6 ↔ s.tstate n = 6 ∧ ∀ h, h < 4 → s.spare h ≠ some n)) ∧
  (∀ h, h < 4 → t.heat h = { s.heat h with step := .idle, lapsLeft := 0, suspect := none } ∧
    t.rd (Reg.TIL_HEAT_checked_tile h) = 63 ∧ t.rd (Reg.TIL_HEAT_chk_state h) = if (s.spare h).isSome then 0 else 5) ∧
  ∀ m, m ∈ t.power.stopped ↔ m < 16 ∧ stops m

/-! ### Registers and windows -/

/-- A host access misses every register or window (R184): it is counted, the first one recorded, and the BAR's policy
answers it. -/
def DecodeMissed (bar off : Nat) (write : Bool) (s t : State) : Prop :=
  t.rd Reg.HST_MISS_COUNT_count = min (s.rd Reg.HST_MISS_COUNT_count + 1) (2 ^ 32 - 1) ∧
  t.resp = (if s.on (if bar = 0 then Reg.HST_CFG_pol_bar0 else if bar = 1 then Reg.HST_CFG_pol_bar2
    else Reg.HST_CFG_pol_bar4) then .ok 0 else .unsupported) ∧
  t = { s with regs := t.regs, outs := t.outs, host := t.host, resp := t.resp } ∧
  (s.on Reg.HST_MISS_INFO_valid = true → t.outs = s.outs ∧ t.host = s.host ∧ SameRegs [Reg.HST_MISS_COUNT_count.off] s t) ∧
  (s.on Reg.HST_MISS_INFO_valid = false → t.rd Reg.HST_MISS_INFO_bar = bar ∧ t.on Reg.HST_MISS_INFO_write = write ∧
    t.on Reg.HST_MISS_INFO_valid = true ∧ t.rd Reg.HST_MISS_OFF_offset = off ∧
    (t.reg Reg.HST_EVENT_ev.off).getLsbD 1 = true ∧
    SameRegs [Reg.HST_MISS_COUNT_count.off, Reg.HST_MISS_INFO_valid.off, Reg.HST_MISS_OFF_offset.off,
      Reg.HST_EVENT_ev.off, Reg.HST_EVT_DROP_count.off] s t)

/-- A write of a sender reaches the register at an offset (R184, R228, R413). -/
def WriteReaches (who : Agent) (off : Nat) (s : State) : Prop :=
  s.decodes off = true ∧
  match who with
  | .host => s.hostReaches = true
  | .runner k => s.runnerRuns k = true ∧ runnerBarred off = false
  | .keeper => s.power.main = true ∧ s.power.porLow = false

/-- The word stored for a register: the selected context's own for the registers that STM_SEL selects (R281). -/
def State.stored (s : State) (off : Nat) : Word :=
  if isCtxReg off then s.net.ctxRegs.get (resetVal off) (s.selCtx * 0x100 + (off - 0x6000)) else s.reg off

/-- Each field of a register without a row of its own takes a write by its access code (R9, R11); the other fields and the
fields with a row of their own keep their values. `free`: an RWL field is not locked. -/
def FieldsTake (off : Nat) (free : Bool) (val : Word) (s t : State) : Prop :=
  ∀ d i f, regAt off = some (d, i) → f ∈ d.fields →
    let x := bitsOf (s.stored off).toNat f.lo f.width
    let y := bitsOf (t.stored off).toNat f.lo f.width
    let v := bitsOf val.toNat f.lo f.width
    let legal := f.ok = [] ∨ ∃ r ∈ f.ok, r.1 ≤ v ∧ v ≤ r.2
    let takes := f.acc = .rw ∨ (f.acc = .rwl ∧ free = true)
    (f.own = true ∨ f.acc = .ro ∨ f.acc = .wo → y = x) ∧
    (f.own = false → takes → legal → y = v) ∧ (f.own = false → takes → ¬legal → y = x) ∧
    (f.own = false → f.acc = .rwl → free = false → y = x) ∧
    (f.own = false → f.acc = .w1c → ∀ k, k < f.width → y.testBit k = (x.testBit k && !v.testBit k)) ∧
    (f.own = false → f.acc = .w1s → ∀ k, k < f.width → y.testBit k = (x.testBit k || v.testBit k))

/-- Registers whose write acts on a unit beyond the register: the roles of the PTP instances, the modes of the network
ports, the clock groups' pins, HLT_LIFE_BASE, the balls' directions and levels, the frame and pulse outputs, the timed
outputs, the service classes and the signals of the rings. -/
def ActsOn (off : Nat) : Prop :=
  off ∈ [0x3100, 0x3180, 0x4000, 0x5000, 0x1D02C, 0x1D030, 0x1F000, 0x1F004] ∨
  (0x8020 ≤ off ∧ off < 0x8030) ∨ (0x2300 ≤ off ∧ off < 0x2380 ∧ off % 0x20 = 0) ∨ (0x3200 ≤ off ∧ off < 0x3300 ∧ off % 0x20 = 0) ∨
  (0x1B080 ≤ off ∧ off < 0x1B0C0) ∨ (0xC414 ≤ off ∧ off < 0xCC14 ∧ (off - 0xC414) % 32 = 0)

/-- A register ignores a write now (R185, R261, R298, R398). -/
def WriteIgnored (off : Nat) (s : State) : Prop :=
  s.ignores off = true ∨ (isCtxReg off = true ∧ s.cst s.selCtx ≠ 0 ∧ off ≠ 0x6068 ∧ off ≠ 0x60C0)

/-- A write of an event enable register took effect (R195): its bits are those written, and each event that is set and now
enabled is raised once. -/
def EnableTaken (who : Agent) (off : Nat) (e : EvReg) (val : Word) (s t : State) : Prop :=
  Noticed [off] { s with resp := if who = .host then .ok 0 else s.resp } t ∧
  (∀ b, b < 32 → (∃ d i f, regAt off = some (d, i) ∧ f ∈ d.fields ∧ f.lo ≤ b ∧ b < f.lo + f.width) →
    (t.reg off).getLsbD b = val.getLsbD b) ∧
  (let n := ((List.range 32).filter (fun b =>
      (s.reg e.ev).getLsbD b && val.getLsbD b && (t.reg off).getLsbD b)).length
   let v := s.rd Reg.HST_EVT_CFG_vec
   let m := s.host.msix.get MsixEntry.reset v
   (n = 0 → t.outs = s.outs ∧ t.host = s.host) ∧
   (s.on Reg.HST_EVT_CFG_ring_en = false → s.on Reg.HST_STATUS_bme = true → s.host.msixEn = true →
    s.host.msixMask = false → m.ctl.getLsbD 0 = false →
    t.outs = s.outs ++ List.replicate n (.msix v (m.addrLo.toNat + 2 ^ 32 * m.addrHi.toNat) m.data)))

/-- The oldest descriptor of a ring is a service call that awaits its service, and a runner runs. -/
def CallWaits (r service : Nat) (d : Desc) (rest : List Desc) (s : State) : Prop :=
  (s.ring r).descs = d :: rest ∧ d.type = 0x14 ∧ d.stage = .active ∧ d.service = service ∧ s.served = true ∧
  s.on Reg.HST_STATUS_bme = true

/-- A service call completes with a result and a response, cut to the caller's buffer (R367). -/
def CallAnswered (r : Nat) (d : Desc) (rest : List Desc) (result : Nat) (resp : List Byte) (s t : State) : Prop :=
  let out := resp.take (d.word 5)
  HeadCompletes r d rest (if d.word 5 < resp.length then 0x41 else 0x40) 0 out.length
    [(4, BitVec.ofNat 32 (d.word 4 % 65536 + 65536 * result))]
    (if out = [] then s else { s with outs := s.outs ++ [.hostWrite (d.word64 6) out] }) t

/-- A service call completes REJECTED with result 1 (R367). -/
def CallRejected (r : Nat) (d : Desc) (rest : List Desc) (s t : State) : Prop :=
  HeadCompletes r d rest 0x43 0 0 [(4, BitVec.ofNat 32 (d.word 4 % 65536 + 65536))] s t

/-! ### The whole engine -/

/-- The memories with addresses of their own keep their canonical form: addresses strictly rising, and no entry equal to the
zero that an unlisted address reads as. -/
def Memory.wf (s : State) : Bool :=
  Tbl.wf 0 s.fab.cellar && Tbl.wf 0 s.fab.netBuf && Tbl.wf 0 s.fab.runnerRam && Tbl.wf 0 s.fab.keeperRam && Tbl.wf 0 s.fab.keeperPatch &&
    Tbl.wf 0 s.fab.pmem && Tbl.wf 0 s.host.snapArea

/-- What has been burnt stays burnt (R356, R379, R392): the fuses of the engine are f but for more of the two counters, and
those of the meter g with more behind. -/
def Burnt (f : Fuses) (g : SlmFuses) (s : State) : Prop :=
  f.sv ≤ s.core.fuses.sv ∧ f.repairs ≤ s.core.fuses.repairs ∧
  s.core.fuses = { f with sv := s.core.fuses.sv, repairs := s.core.fuses.repairs } ∧
  g.cfgs <+: s.meter.fuses.cfgs ∧ g.keys <+: s.meter.fuses.keys ∧ g.events ≤ s.meter.fuses.events

/-- The commands of the meter, its port, its pins and its supplies (R370 to R383). -/
def OfMeter (c : Instr) : Prop :=
  (∃ a b, c = .meterSample a b) ∨ (∃ n, c = .readStatus n) ∨ (∃ a n k, c = .readLog a n k) ∨ (∃ n, c = .readKey n) ∨
  (∃ n, c = .readCfg n) ∨ (∃ v, c = .setTime v) ∨ (∃ l, c = .stageCfg l) ∨ (∃ v, c = .commitCfg v) ∨
  (∃ v, c = .sealCmd v) ∨ (∃ v, c = .unsealCmd v) ∨
  c ∈ [.slmPowerOn, .slmReset, .slmResetRelease, .slmPowerRemove, .meterPeriodEnd, .fuseBurnDone]

/-- The commands that can move the lap index (R16, R17, R345, R405, R408): the boundary, the starts and the resets. -/
def MovesLap (c : Instr) : Prop :=
  c ∈ [.lapBoundary, .porNAssert, .mainPowerRemove, .keeperFuseBurnDone] ∨ (∃ src, c = .chipReset src) ∨
  (∃ n l, c = .startProcessing n l) ∨ (∃ n l, c = .autoStart n l) ∨ ∃ i l, c = .keepResume i l

end Machine

end Sys2Proof
end

