-- ==== Sys2Proof/Certificates/Slice0/Obligations.lean ====
section
/-! DEFINITION. The statements for the provers: what every command of the table does, what it leaves, and what holds of
the whole engine. -/

open Sys2Proof Sys2Proof.Machine

/-! ### Tiles: accumulators, stores, register arithmetic, generators (chapters 02 and 03) -/

/-- From R31: operands and products are sign-extended and shifted left, by the table's shift for their formats; a word
read through a generator is the bank's word at the generator's address, and the generator then advances. -/
def Obligations.OperandsAlignAsTabled : Prop :=
  ∀ (k : Tile) (pg : Nat → A48),
    (∀ d, k.aligned pg (.reg .a48 d) = ((k.dreg d).toInt * 2 ^ 44, k)) ∧
    (∀ d, k.aligned pg (.reg .c48 d) = ((k.dreg d).toInt * 2 ^ 39, k)) ∧
    (∀ d, k.aligned pg (.reg .d32 d) = (((k.dreg d).setWidth 32).toInt * 2 ^ 59, k)) ∧
    (∀ v : X64, k.aligned pg (.x64 v) = (v.toInt * 2 ^ 44, k)) ∧
    (∀ g w, k.wordKey (k.agAt g).addr = some w →
      k.aligned pg (.mem .a48 g) = ((k.word pg w).toInt * 2 ^ 44, k.setAg g (k.agAt g).advance) ∧
      k.aligned pg (.mem .c48 g) = ((k.word pg w).toInt * 2 ^ 39, k.setAg g (k.agAt g).advance) ∧
      k.aligned pg (.mem .d32 g) = (((k.word pg w).setWidth 32).toInt * 2 ^ 59, k.setAg g (k.agAt g).advance)) ∧
    (∀ g f, k.wordKey (k.agAt g).addr = none → k.aligned pg (.mem f g) = (0, k.setAg g (k.agAt g).advance)) ∧
    (∀ x y, k.product pg ⟨.reg .a48 x, .reg .a48 y⟩ = ((k.dreg x).toInt * (k.dreg y).toInt * 2 ^ 5, k)) ∧
    (∀ x y, k.product pg ⟨.reg .c48 x, .reg .a48 y⟩ = ((k.dreg x).toInt * (k.dreg y).toInt, k)) ∧
    (∀ x y, k.product pg ⟨.reg .a48 x, .reg .c48 y⟩ = ((k.dreg x).toInt * (k.dreg y).toInt, k)) ∧
    (∀ x y, k.product pg ⟨.reg .d32 x, .reg .c48 y⟩ =
      (((k.dreg x).setWidth 32).toInt * (k.dreg y).toInt * 2 ^ 15, k)) ∧
    (∀ x y, k.product pg ⟨.reg .c48 x, .reg .d32 y⟩ =
      ((k.dreg x).toInt * ((k.dreg y).setWidth 32).toInt * 2 ^ 15, k))

/-- From R33, R34, R36: clr, ld, add and sub, and mac, msu, mac4 and mac_par, on a tile whose processor runs: each product is one
addition, in index order, with its sign. Nothing but the accumulators and the generators of the operands changes. -/
def Obligations.AccumulatorOperations : Prop :=
  (∀ (s : State) (n a : Nat) (x : Src), n < 36 → a < 8 → x.wf = true → s.tileRuns n = true →
     let k := s.tileAt n
     (∃ m t, exec (.clr n a) s = .next t ∧ TileBecomes n m false s t ∧ AccOnly a k m ∧
       m.accAt a = ⟨0, false, false, false⟩) ∧
     (∃ m t, exec (.ld n a x) s = .next t ∧ TileBecomes n m (k.srcBad x) s t ∧ AccOnly a (k.aligned (s.pageWord n) x).2 m ∧
       m.accAt a = ⟨BitVec.ofInt 112 (k.aligned (s.pageWord n) x).1, false, false, false⟩) ∧
     (∃ m t, exec (.accAdd n a x) s = .next t ∧ TileBecomes n m (k.srcBad x) s t ∧ AccOnly a (k.aligned (s.pageWord n) x).2 m ∧
       Adds (k.aligned (s.pageWord n) x).1 ((k.aligned (s.pageWord n) x).2.accAt a) (m.accAt a)) ∧
     (∃ m t, exec (.accSub n a x) s = .next t ∧ TileBecomes n m (k.srcBad x) s t ∧ AccOnly a (k.aligned (s.pageWord n) x).2 m ∧
       Adds (-(k.aligned (s.pageWord n) x).1) ((k.aligned (s.pageWord n) x).2.accAt a) (m.accAt a))) ∧
  (∀ (s : State) (n a : Nat), n < 36 → a < 8 → s.tileRuns n = true →
     let k := s.tileAt n
     (∀ p : Prod, p.wf = true → ∃ m bad t, exec (.mac n a p) s = .next t ∧ TileBecomes n m bad s t ∧
       TermsRun (s.pageWord n) [(a, false, p)] k bad m) ∧
     (∀ p : Prod, p.wf = true → ∃ m bad t, exec (.msu n a p) s = .next t ∧ TileBecomes n m bad s t ∧
       TermsRun (s.pageWord n) [(a, true, p)] k bad m) ∧
     (∀ p q u v : Term, p.wf = true → q.wf = true → u.wf = true → v.wf = true →
       ∃ m bad t, exec (.mac4 n a p q u v) s = .next t ∧ TileBecomes n m bad s t ∧
         TermsRun (s.pageWord n) [(a, p.neg, p.p), (a, q.neg, q.p), (a, u.neg, u.p), (a, v.neg, v.p)] k bad m) ∧
     (∀ (p q u v : Term) (b c d : Nat), p.wf = true → q.wf = true → u.wf = true → v.wf = true →
       b < 8 → c < 8 → d < 8 → a ≠ b → a ≠ c → a ≠ d → b ≠ c → b ≠ d → c ≠ d →
       ∃ m bad t, exec (.macPar n a p b q c u d v) s = .next t ∧ TileBecomes n m bad s t ∧
         TermsRun (s.pageWord n) [(a, p.neg, p.p), (b, q.neg, q.p), (c, u.neg, u.p), (d, v.neg, v.p)] k bad m))

/-- From R35: cmac reads its four operands once each and makes the four additions of its pair, in order. -/
def Obligations.ComplexMultiplyAccumulate : Prop :=
  ∀ (s : State) (n pair : Nat) (xr xi yr yi : Src), (Instr.cmac n pair xr xi yr yi).wf = true →
    s.tileRuns n = true →
    let k := s.tileAt n
    let r1 := k.src (s.pageWord n) xr
    let r2 := r1.2.2.src (s.pageWord n) xi
    let r3 := r2.2.2.src (s.pageWord n) yr
    let r4 := r3.2.2.src (s.pageWord n) yi
    ∃ m t a b, exec (.cmac n pair xr xi yr yi) s = .next t ∧
      TileBecomes n m (k.srcBad xr || r1.2.2.srcBad xi || r2.2.2.srcBad yr || r3.2.2.srcBad yi) s t ∧
      m = { r4.2.2 with acc := m.acc } ∧
      (∀ c, c ≠ 2 * pair → c ≠ 2 * pair + 1 → m.accAt c = k.accAt c) ∧
      Adds (alignProd (srcFmt xr) r1.1 (srcFmt yr) r3.1) (k.accAt (2 * pair)) a ∧
      Adds (-(alignProd (srcFmt xi) r2.1 (srcFmt yi) r4.1)) a (m.accAt (2 * pair)) ∧
      Adds (alignProd (srcFmt xr) r1.1 (srcFmt yi) r4.1) (k.accAt (2 * pair + 1)) b ∧
      Adds (alignProd (srcFmt xi) r2.1 (srcFmt yr) r3.1) b (m.accAt (2 * pair + 1))

/-- From R38, R39: the three stores. The result goes to the data register, to the word a generator points at, or to the
partial of the bus and sample; the accumulator keeps all but OVF, which a wrapping store may set. -/
def Obligations.StoresRoundSaturateOrWrap : Prop :=
  ∀ (s : State) (n a : Nat), n < 36 → a < 8 → s.tileRuns n = true →
    let k := s.tileAt n
    (∀ (dst : Dst) (wrap : Bool), dst.wf = true → ∃ (r : A48) (b : Acc) (t : State),
      exec (.stA48 n a dst wrap) s = .next t ∧
      StoresAs 44 48 (-(2 ^ 47)) (2 ^ 47 - 1) (!wrap) (k.accAt a) r b ∧
      TileBecomes n ((k.setAcc a b).put dst r) (k.dstBad dst) s t) ∧
    (∀ (dst : Dst) (wrap : Bool), dst.wf = true → ∃ (r : D32) (b : Acc) (t : State),
      exec (.stD32 n a dst wrap) s = .next t ∧
      StoresAs 59 32 (-(2 ^ 31) + 1) (2 ^ 31 - 1) (!wrap) (k.accAt a) r b ∧
      TileBecomes n ((k.setAcc a b).put dst (r.signExtend 48)) (k.dstBad dst) s t) ∧
    (∀ bus j, bus < 256 → j < 8 → ∃ (r : X64) (t : State), exec (.stX64 n a bus j) s = .next t ∧
      StoresAs 44 64 (-(2 ^ 63)) (2 ^ 63 - 1) true (k.accAt a) r (k.accAt a) ∧
      TileBecomes n { k with part := k.part.put 0 (bus * 8 + j) r } false s t) ∧
    (∀ d (r : A48), (k.put (.reg d) r).dreg d = r ∧ DregOnly d k (k.put (.reg d) r)) ∧
    (∀ g (r : A48) w, k.wordKey (k.agAt g).addr = some w → 2 ≤ (k.agAt g).addr / 16384 % 8 →
      (k.put (.mem g) r).bank.get 0 w = r ∧
      ∀ j, j ≠ w → (k.put (.mem g) r).bank.get 0 j = k.bank.get 0 j)

/-- From R40: register arithmetic saturates to its format, with −∞ absorbing as the rule lists; it writes one data
register, sets no flag and changes nothing else. -/
def Obligations.RegisterArithmetic : Prop :=
  ∀ (s : State) (n d x y : Nat) (f : Fmt) (sh : Nat), n < 36 → d < 16 → x < 16 → y < 16 → 1 ≤ sh → sh ≤ 47 →
    s.tileRuns n = true →
    let k := s.tileAt n
    let vx := fmtVal f (k.dreg x)
    let vy := fmtVal f (k.dreg y)
    let inf : Int := -(2 ^ 31)
    let fin := f = .d32 → vx ≠ inf ∧ vy ≠ inf
    let infX := f = .d32 ∧ vx = inf
    let infY := f = .d32 ∧ vy = inf ∧ vx ≠ inf
    let sat (v : Int) : Int := match f with
      | .d32 => min (2 ^ 31 - 1) (max (-(2 ^ 31) + 1) v)
      | _ => min (2 ^ 47 - 1) (max (-(2 ^ 47)) v)
    let wrote (i : Instr) (p : Int → Prop) : Prop := ∃ m t, exec i s = .next t ∧ TileBecomes n m false s t ∧
      DregOnly d k m ∧ p (m.dreg d).toInt
    wrote (.regAdd n f d x y) (fun v => (fin → v = sat (vx + vy)) ∧ (infX ∨ infY → v = inf)) ∧
    wrote (.regSub n f d x y) (fun v => (fin → v = sat (vx - vy)) ∧ (infX → v = inf) ∧ (infY → v = 2 ^ 31 - 1)) ∧
    wrote (.neg n f d x) (fun v => (fin → v = sat (-vx)) ∧ (infX → v = 2 ^ 31 - 1)) ∧
    wrote (.abs n f d x) (fun v => (fin → v = sat vx.natAbs) ∧ (infX → v = 2 ^ 31 - 1)) ∧
    wrote (.min n f d x y) (fun v => v = min vx vy) ∧
    wrote (.max n f d x y) (fun v => v = max vx vy) ∧
    wrote (.shl n f d x sh) (fun v => (fin → v = sat (vx * 2 ^ sh)) ∧ (infX → v = inf)) ∧
    wrote (.shr n f d x sh) (fun v => (infX → v = inf) ∧ (fin → ∃ q, Rounds sh vx q ∧ v = sat q))

/-- From R40 (comparisons), R41, R42: a comparison's outcome is the tile's; db2lin of −∞ is 0 and lin2db of 0 is −∞; the
conversions write one data register. The other values of db2lin and lin2db are the nearest codes that a fixed-point
evaluation of 192 bits finds (DEDUCED, log 3).
The cases that the rules leave open follow the model's choices (log entries 3, 14). -/
def Obligations.ComparisonsAndLevelConversions : Prop :=
  ∀ (s : State) (n d x y : Nat) (f : Fmt), n < 36 → d < 16 → x < 16 → y < 16 → s.tileRuns n = true →
    let k := s.tileAt n
    let vx := fmtVal f (k.dreg x)
    let vy := fmtVal f (k.dreg y)
    (exec (.lt n f x y) s = .next (s.setTile n { k with cmp := decide (vx < vy) })) ∧
    (exec (.le n f x y) s = .next (s.setTile n { k with cmp := decide (vx ≤ vy) })) ∧
    (exec (.eq n f x y) s = .next (s.setTile n { k with cmp := decide (vx = vy) })) ∧
    (∃ m t, exec (.db2lin n d x) s = .next t ∧ TileBecomes n m false s t ∧ DregOnly d k m ∧
      ((k.dreg x).setWidth 32 = d32NegInf → m.dreg d = 0) ∧
      ((k.dreg x).setWidth 32 ≠ d32NegInf → m.dreg d = db2linV ((k.dreg x).setWidth 32)) ∧
      ((k.dreg x).setWidth 32 = 0 → m.dreg d = a48One)) ∧
    (∃ m t, exec (.lin2db n d x) s = .next t ∧ TileBecomes n m false s t ∧ DregOnly d k m ∧
      (k.dreg x = 0 → m.dreg d = d32NegInf.signExtend 48) ∧
      (k.dreg x ≠ 0 → m.dreg d = (lin2dbV (k.dreg x)).signExtend 48) ∧
      (k.dreg x = a48One ∨ k.dreg x = -a48One → m.dreg d = 0))

/-- From R53, R54: a generator access reads or writes one word at the generator's address and advances the generator; a
length takes effect at once in linear mode, waits for the wrap in the others, and sets ag_fault where it is out of
range. R66: the oldest corrected word goes back to its bank. R63, R15: a tile that a fault of this lap halted, that has no
clock or no supply runs nothing.
The cases that the rules leave open follow the model's choices (log entry 15). -/
def Obligations.GeneratorsWriteBackAndAHaltedTile : Prop :=
  (∀ (s : State) (n g d len : Nat), n < 36 → g < 8 → d < 16 → 1 ≤ len → len ≤ 16384 → s.tileRuns n = true →
     let k := s.tileAt n
     (∀ (su : Option AgSetup), agSetupOk su = true →
       let k' := match su with
         | none => k
         | some u => k.setAg g ⟨u.base, u.len, 0, u.step, u.mode, none⟩
       (∃ t, exec (.agAccess n g su true d .ok none) s = .next t ∧
         TileBecomes n (k'.agWrite g (k'.dreg d)) (k'.agBad g) s t) ∧
       (∃ t, exec (.agAccess n g su false d .ok none) s = .next t ∧
         TileBecomes n ((k'.setAg g (k'.agAt g).advance).setD d ((k'.agRead (s.pageWord n) g).1.getD 0)) (k'.agBad g)
           s t)) ∧
     ((k.agAt g).mode = .linear →
       exec (.agLengthWrite n g len) s = .next (s.setTile n (k.setAg g { k.agAt g with len := len }))) ∧
     ((k.agAt g).mode ≠ .linear → (k.agAt g).lenOk len = true →
       exec (.agLengthWrite n g len) s = .next (s.setTile n (k.setAg g { k.agAt g with pending := some len }))) ∧
     ((k.agAt g).lenOk len = false → ∃ t, exec (.agLengthWrite n g len) s = .next t ∧
       Noticed [Reg.TIL_EVENT_ev.off] s t ∧ (t.reg Reg.TIL_EVENT_ev.off).getLsbD 8 = true) ∧
     (∀ w r, k.wb = w :: r → ∃ t, exec (.eccWriteBack n) s = .next t ∧
       t = s.setTile n (t.tileAt n) ∧ (t.tileAt n) = { k with bank := (t.tileAt n).bank, wb := r } ∧
       (w.bank ≠ 0 → (t.tileAt n).bank.get 0 (w.bank * 16384 + w.word) = w.value) ∧
       ∀ j, j ≠ w.bank * 16384 + w.word → (t.tileAt n).bank.get 0 j = k.bank.get 0 j)) ∧
  (∀ (s : State) (i : Instr) (n : Nat), s.tileRuns n = false → i.wf = true →
     ((∃ a, i = .clr n a) ∨ (∃ a x, i = .ld n a x) ∨ (∃ a x, i = .accAdd n a x) ∨ (∃ a x, i = .accSub n a x) ∨
      (∃ a p, i = .mac n a p) ∨ (∃ a p, i = .msu n a p) ∨ (∃ a p q u v, i = .mac4 n a p q u v) ∨
      (∃ a p b q c u d v, i = .macPar n a p b q c u d v) ∨ (∃ p a b c d, i = .cmac n p a b c d) ∨
      (∃ a d w, i = .stA48 n a d w) ∨ (∃ a b j, i = .stX64 n a b j) ∨ (∃ a d w, i = .stD32 n a d w) ∨
      (∃ f d x y, i = .regAdd n f d x y ∨ i = .regSub n f d x y ∨ i = .min n f d x y ∨ i = .max n f d x y) ∨
      (∃ f d x, i = .neg n f d x ∨ i = .abs n f d x) ∨ (∃ f x y, i = .lt n f x y ∨ i = .le n f x y ∨ i = .eq n f x y) ∨
      (∃ f d x m, i = .shl n f d x m ∨ i = .shr n f d x m) ∨ (∃ d x, i = .db2lin n d x ∨ i = .lin2db n d x) ∨
      (∃ g su w d e o, i = .agAccess n g su w d e o) ∨ (∃ g l, i = .agLengthWrite n g l)) →
     exec i s = .next s)


/-! ### Heats, takeover and placement (chapter 03) -/

/-- From R59 to R62: a spare attaches to the next active tile of its heat in ascending order with wrap-round, or again to the
suspect, copies, records, compares for a window and goes on. The tile
under check is never touched: no tile's contents change but the spare's, which a lap without a difference leaves with what
the tile under check holds.
The cases that the rules leave open follow the model's choices (log entries 2, 9, 15, 17). -/
def Obligations.CheckerDuty : Prop :=
  ∀ (s : State) (h p : Nat), h < 4 → p < 36 → s.spare h = some p → s.on Reg.TIL_CHK_CFG_chk_en = true →
    (∀ n, n < 36 → n / 9 = h → s.tileActive n = true → (s.heat h).suspect = none →
      ((s.heat h).robin < n ∧ ∀ m, m / 9 = h → s.tileActive m = true → (s.heat h).robin < m → n ≤ m) ∨
        (∀ m, m / 9 = h → s.tileActive m = true → m ≤ (s.heat h).robin ∧ n ≤ m) →
      s.attachTarget h = some n) ∧
    (∀ n, (s.heat h).suspect = some n → s.rd (Reg.TIL_HEAT_chk_state h) = 3 → s.attachTarget h = some n) ∧
    (∀ n, n < 36 → (s.heat h).step = .idle → s.run = true → s.power.gated = false → s.attachTarget h = some n →
      ∃ t, exec (.checkerAttach h) s = .next t ∧
        t = { s with regs := t.regs, tile := { s.tile with heats := t.tile.heats } } ∧
        SameRegs [(Reg.TIL_TILE_state p).off, (Reg.TIL_HEAT_chk_state h).off] s t ∧
        t.heat h = { s.heat h with
          step := .copying, copyFrom := s.lap, robin := if (s.heat h).suspect.isSome then (s.heat h).robin else n } ∧
        t.rd (Reg.TIL_TILE_state p) = 4 ∧ t.rd (Reg.TIL_HEAT_checked_tile h) = n ∧
        t.rd (Reg.TIL_HEAT_chk_state h) =
          (if (s.heat h).suspect.isSome then s.rd (Reg.TIL_HEAT_chk_state h) else 1) ∧
        ∀ j, j ≠ h → t.heat j = s.heat j) ∧
    ((s.heat h).step = .copying →
      exec (.checkerCopyComplete h) s = .next (s.setHeat h { s.heat h with step := .recording, lapsLeft := 2 })) ∧
    ((s.heat h).step = .window → (s.heat h).cmpLap = s.lap + 1 → ∀ b, exec (.checkerCompare h b) s = .next s) ∧
    ((s.heat h).step = .window → (s.heat h).cmpLap ≠ s.lap + 1 →
      (exec (.checkerCompare h false) s =
        .next ((s.setTile p { s.tileAt p with
            bank := (s.tileAt (s.rd (Reg.TIL_HEAT_checked_tile h))).bank
            xw := (s.tileAt (s.rd (Reg.TIL_HEAT_checked_tile h))).xw }).setHeat h
          { s.heat h with lapsLeft := (s.heat h).lapsLeft - 1, cmpLap := s.lap + 1 })) ∧
      (∃ t, exec (.checkerCompare h true) s = .next t ∧ t.tile.tiles = s.tile.tiles ∧
        t.rd Reg.TIL_CHK_MISMATCH_count = min (s.rd Reg.TIL_CHK_MISMATCH_count + 1) (2 ^ 32 - 1) ∧
        (t.reg Reg.TIL_EVENT_ev.off).getLsbD 1 = true ∧
        ((s.heat h).suspect = none → (t.heat h).step = .idle ∧
          (t.heat h).suspect = some (s.rd (Reg.TIL_HEAT_checked_tile h)) ∧ t.rd (Reg.TIL_HEAT_chk_state h) = 3) ∧
        ((s.heat h).suspect ≠ none → s.rd (Reg.TIL_HEAT_chk_state h) = 3 →
          (t.heat h).step = .idle ∧ t.rd (Reg.TIL_HEAT_chk_state h) = 4) ∧
        ((s.heat h).suspect ≠ none → s.rd (Reg.TIL_HEAT_chk_state h) ≠ 3 →
          t.rd (Reg.TIL_HEAT_spare_tile h) = 63 ∧ t.rd (Reg.TIL_TILE_state p) = 6 ∧
          (t.reg Reg.TIL_EVENT_ev.off).getLsbD 2 = true ∧ (t.reg Reg.TIL_EVENT_ev.off).getLsbD 4 = true))) ∧
    ((s.heat h).step = .window → (s.heat h).lapsLeft = 0 →
      (s.heat h).suspect = none ∨ s.rd (Reg.TIL_HEAT_chk_state h) ≠ 4 →
      ∃ t, exec (.checkerWindowEnd h) s = .next t ∧
        t = { s with regs := t.regs, tile := { s.tile with heats := t.tile.heats },
                     health := { s.health with passed := t.health.passed } } ∧
        SameRegs [(Reg.TIL_TILE_state p).off, (Reg.TIL_HEAT_chk_state h).off] s t ∧
        t.health.passed.get 0 h = s.health.passed.get 0 h + 1 ∧
        (t.heat h).step = .idle ∧ (t.heat h).suspect = none ∧
        t.rd (Reg.TIL_HEAT_checked_tile h) = 63 ∧ t.rd (Reg.TIL_HEAT_chk_state h) = 0 ∧
        t.rd (Reg.TIL_TILE_state p) = 3 ∧ t.rd (Reg.TIL_HEAT_spare_tile h) = p)

/-- From R52, R62, R63, R65: an overrun or a residue error of an active tile, the keeper's command, and a cross-check's
verdict halt the tile: what it wrote to X in the lap is discarded with its partials. With a spare, and takeover_en or
the keeper's command, a takeover is due; otherwise the slot is isolated.
The cases that the rules leave open follow the model's choices (log entry 17). -/
def Obligations.TileFaults : Prop :=
  ∀ (s : State) (n : Nat) (i : Instr), n < 36 → s.tileActive n = true → s.spare (n / 9) ≠ some n →
    (i = .tileOverrun n ∨ i = .residueError n ∨
     (i = .keeperTakeoverCommand (n / 9) (some n) ∧ s.keeperOk = true) ∨
     (i = .checkerWindowEnd (n / 9) ∧ (s.heat (n / 9)).step = .window ∧ (s.heat (n / 9)).lapsLeft = 0 ∧
       (s.heat (n / 9)).suspect = some n ∧ s.rd (Reg.TIL_HEAT_chk_state (n / 9)) = 4 ∧
       s.spare (n / 9) ≠ none)) →
    ∃ t, exec i s = .next t ∧ (t.tileAt n).halted = true ∧ (t.tileAt n).haltLap = s.lap + 1 ∧
      (t.tileAt n).part = [] ∧
      (∀ w, (t.tileAt n).bank.get 0 w = if w ∈ (s.tileAt n).xw then 0 else (s.tileAt n).bank.get 0 w) ∧
      (∀ m, m ≠ n → t.tileAt m = s.tileAt m) ∧
      t.vault = s.vault ∧ t.fab = s.fab ∧ t.port = s.port ∧ t.lap = s.lap ∧ t.meter = s.meter ∧ t.core = s.core ∧
      (s.spare (n / 9) ≠ none → (s.heat (n / 9)).takeover = none ∨ (s.heat (n / 9)).takeover = some n →
        s.on Reg.TIL_CHK_CFG_takeover_en = true ∨ i = .keeperTakeoverCommand (n / 9) (some n) →
        (t.heat (n / 9)).takeover = some n) ∧
      (∀ m, m ≠ n → s.spare (n / 9) ≠ none → (s.heat (n / 9)).takeover = some m →
        (t.heat (n / 9)).takeover = some m ∧ t.rd (Reg.TIL_TILE_state n) = 6) ∧
      (s.spare (n / 9) = none ∨
        (s.on Reg.TIL_CHK_CFG_takeover_en = false ∧ i ≠ .keeperTakeoverCommand (n / 9) (some n)) → t.rd (Reg.TIL_TILE_state n) = 6 ∧
        (∀ slot, s.tileSlot n = some slot → t.slotIsolated slot = true) ∧
        (t.reg Reg.TIL_EVENT_ev.off).getLsbD 0 = true)

/-- From R63: at the boundary the spare adopts the halted tile's banks, state parity and slot; the failed tile holds no
slot and the heat has no spare. R65, R390: a failed tile that passes its retest becomes the spare of a heat that has
none.
The cases that the rules leave open follow the model's choices (log entries 2, 17). -/
def Obligations.SpareTakesOverAndReturns : Prop :=
  (∀ (s : State) (n p : Nat) (bad : List Nat) (all : Bool), n < 36 → p < 36 → p ≠ n → s.spare (n / 9) = some p →
    (s.heat (n / 9)).takeover = some n → (s.tileAt n).haltLap ≤ s.lap →
    (s.power.gated = true → exec (.spareTakeover n bad all) s = .next s) ∧
    (s.power.gated = false → ∃ t, exec (.spareTakeover n bad all) s = .next t ∧
      t.tileAt p = { s.tileAt n with halted := false } ∧ (∀ m, m ≠ p → t.tileAt m = s.tileAt m) ∧
      t.rd (Reg.TIL_TILE_slot p) = s.rd (Reg.TIL_TILE_slot n) ∧ t.rd (Reg.TIL_TILE_no_slot p) = 0 ∧
      t.rd (Reg.TIL_TILE_no_slot n) = 1 ∧ t.rd (Reg.TIL_TILE_state n) = 6 ∧
      t.rd (Reg.TIL_HEAT_spare_tile (n / 9)) = 63 ∧ (t.heat (n / 9)).takeover = none ∧
      (t.reg Reg.TIL_EVENT_ev.off).getLsbD 0 = true ∧
      t.lap = s.lap ∧ t.meter = s.meter ∧ t.port = s.port ∧ t.core = s.core)) ∧
  (∀ (s : State) (n : Nat), n < 36 → s.tstate n = 6 → s.keeperOk = true → s.spare (n / 9) = none →
    ∃ t, exec (.tileRetestDone n true) s = .next t ∧
      t = { s with regs := t.regs, tile := { s.tile with tiles := t.tile.tiles, heats := t.tile.heats } } ∧
      t.spare (n / 9) = some n ∧ t.rd (Reg.TIL_TILE_no_slot n) = 1 ∧ t.tstate n = 3 ∧ t.tileAt n = { Tile.reset with sread := s.lap % 2 } ∧
      (∀ m, m ≠ n → t.tileAt m = s.tileAt m)) ∧
  (∀ (s : State) (n : Nat), n < 36 → exec (.tileRetestDone n false) s = .next s)

/-- From R57, R58, R67, R438: the staging table is read and written an entry at a time; a placement that passes the checks is armed
for its lap, and an apply that is pending can be abandoned; an object that moves within its heat is copied by the bridge;
at the target lap every object takes its new slot at once, and those that leave stop; an output ramp that has run its
length ends.
The cases that the rules leave open follow the model's choices (log entries 12, 16, 17, 18). -/
def Obligations.PlacementIsStagedAndTakesEffect : Prop :=
  (∀ (s : State) (v : Word),
     let i := s.rd Reg.TIL_PLACE_ADDR_index
     let adv := (i + 1) % 2 ^ 11
     let targ := s.rd64 Reg.TIL_PLACE_LAP_LO_lap Reg.TIL_PLACE_LAP_HI_lap
     (∃ t, exec (.placeDataAccess true v) s = .next t ∧
       t = { s with regs := t.regs, resp := .ok 0, tile := { s.tile with staged := t.tile.staged } } ∧
       (∀ j, t.tile.staged.get 0 j =
         if j = i then v.toNat % 32 + 32 * (v.toNat / 2 ^ 31) else s.tile.staged.get 0 j) ∧
       t.rd Reg.TIL_PLACE_ADDR_index = adv ∧ SameRegs [Reg.TIL_PLACE_ADDR_index.off] s t) ∧
     (∃ t, exec (.placeDataAccess false v) s = .next t ∧ t = { s with regs := t.regs, resp := t.resp } ∧
       t.resp = .ok (BitVec.ofNat 64 (s.tile.staged.get 0 i % 32 + 2 ^ 31 * (s.tile.staged.get 0 i / 32))) ∧
       t.rd Reg.TIL_PLACE_ADDR_index = adv ∧ SameRegs [Reg.TIL_PLACE_ADDR_index.off] s t) ∧
     (s.placeCheck (some targ) = (0, 0) →
       ∃ t, exec .placeApplyAtLap s = .next t ∧
         t = { s with regs := t.regs, tile := { s.tile with pend := t.tile.pend } } ∧
         t.tile.pend = some ⟨if s.run then targ else 0, s.stagedTable, []⟩ ∧
         t.rd Reg.TIL_PLACE_STATUS_state =
           (if s.run ∧ movers s.tile.placed s.stagedTable ≠ [] then 1 else 2) ∧
         SameRegs [Reg.TIL_PLACE_STATUS_state.off] s t) ∧
     (s.placeCheck none = (0, 0) →
       ∃ t, exec .placeApplyEarliest s = .next t ∧
         t = { s with regs := t.regs, tile := { s.tile with pend := t.tile.pend } } ∧
         t.tile.pend = some ⟨if s.run then s.lap + 6 else 0, s.stagedTable, []⟩ ∧
         SameRegs [Reg.TIL_PLACE_STATUS_state.off] s t) ∧
     (s.run = true → targ < s.lap + 6 → s.power.gated = false → s.tile.pend = none →
       ∃ t, exec .placeApplyAtLap s = .next t ∧ t.tile = s.tile ∧ t.rd Reg.TIL_PLACE_STATUS_reason = 4 ∧
         t.rd Reg.TIL_PLACE_STATUS_state = 3 ∧ (t.reg Reg.TIL_EVENT_ev.off).getLsbD 7 = true) ∧
     (s.tile.pend ≠ none → ∃ t, exec .placeAbandon s = .next t ∧
       t = { s with regs := t.regs, tile := { s.tile with pend := none } } ∧
       t.rd Reg.TIL_PLACE_STATUS_state = 0 ∧ SameRegs [Reg.TIL_PLACE_STATUS_state.off] s t)) ∧
  (∀ (s : State),
     (∀ p o, s.tile.pend = some p → o < 2048 → o ∈ movers s.tile.placed p.table → o ∉ p.copied →
       ∃ t, exec (.migrationCopy o) s = .next t ∧
         t = { s with regs := t.regs, tile := { s.tile with pend := t.tile.pend } } ∧
         t.tile.pend = some { p with copied := p.copied ++ [o] } ∧
         SameRegs [Reg.TIL_PLACE_STATUS_state.off] s t ∧
         ((∀ x ∈ movers s.tile.placed p.table, x ∈ p.copied ++ [o]) → t.rd Reg.TIL_PLACE_STATUS_state = 2)) ∧
     (∀ p, s.tile.pend = some p → s.run = true → s.lap = p.lap →
       ∃ t, exec .placementTakeEffect s = .next t ∧ t.tile.placed = p.table ∧ t.tile.pend = none ∧
         t.rd Reg.TIL_PLACE_STATUS_state = 0 ∧ (t.reg Reg.TIL_EVENT_ev.off).getLsbD 6 = true ∧
         t.tile.tiles = s.tile.tiles ∧ t.lap = s.lap ∧ t.port = s.port ∧ t.meter = s.meter) ∧
     (∀ o r, o < 2048 → s.tile.ramp.get none o = some r → r.len ≤ r.pos →
       ∃ t, exec (.warmUpRampEnd o) s = .next t ∧
         t = { s with regs := t.regs, tile := { s.tile with ramp := t.tile.ramp } } ∧
         (∀ j, t.tile.ramp.get none j = if j = o then none else s.tile.ramp.get none j) ∧
         ∀ slot n, s.slotOf o = some slot → s.slotTile slot = some n →
           SameRegs [(Reg.TIL_TILE_state n).off] s t ∧
           (s.tstate n = 1 → n < 36 → (∀ x ∈ s.objsOn slot, x = o ∨ s.tile.ramp.get none x = none) → t.tstate n = 0)))


/-! ### The signal graph and the lap (chapters 01, 03 to 07) -/

/-- From R16, R50, R53, R63: at a lap boundary the lap index and the local clock step, the states written in the lap become those
that the next lap reads, but for objects whose tile lost the lap, and on every tile but a spare the state banks change roles unless it is halted and the generators
start again.
The cases that the rules leave open follow the model's choices (log entries 10, 53). -/
def Obligations.LapBoundary : Prop :=
  ∀ s : State, s.run = true → s.on Reg.SYN_STATUS_gated = false →
    ∃ t, exec .lapBoundary s = .next t ∧ t.lap = s.lap + 1 ∧ t.time.clock = s.lapClock (s.lap + 1) ∧
      t.audio.stripsW = [] ∧ t.audio.racksW = [] ∧
      (∀ o, s.audio.stripsW.has o = true → s.lapLost o = false →
        t.audio.strips.get Strip.cold o = s.audio.stripsW.get Strip.cold o) ∧
      (∀ o, s.lapLost o = true → t.audio.strips.get Strip.cold o = s.audio.strips.get Strip.cold o) ∧
      (∀ n, n < 36 → s.spare (n / 9) ≠ some n →
        (t.tileAt n).sread = (if (s.tileAt n).halted then (s.tileAt n).sread else 1 - (s.tileAt n).sread) ∧
        (t.tileAt n).bank = (s.tileAt n).bank ∧ (t.tileAt n).acc = (s.tileAt n).acc ∧
        (t.tileAt n).d = (s.tileAt n).d ∧ (t.tileAt n).part = [] ∧
        ∀ g, (t.tileAt n).agAt g = { (s.tileAt n).agAt g with ptr := 0 }) ∧
      t.pending = s.pending ∧ t.meter = s.meter ∧ t.core = s.core ∧ t.power = s.power ∧ t.pads = s.pads ∧
      t.dpll = s.dpll ∧ t.sched = s.sched ∧ t.free = s.free ∧ t.hiLatch = s.hiLatch ∧ t.loHold = s.loHold

/-- From R51, R56, R73, R126: the exchange window runs once a lap; it gives every placed strip, bus strip and rack its input of
the lap and every patched record channel its samples. Placed processing runs a tile's slot once a lap: every
strip of the slot that is not held has its new state in the write bank and its output of the lap.
The cases that the rules leave open follow the model's choices (log entries 2, 10, 17, 18, 46, 56). -/
def Obligations.ExchangeAndPlacedProcessing : Prop :=
  (∀ (s : State) (ecc : List (Nat × Nat × CellEcc)), (Instr.exchangeWindow ecc).wf = true → s.run = true →
    s.on Reg.SYN_STATUS_gated = false → s.pstate < 6 → s.audio.exchLap ≠ s.lap + 1 →
    ∃ t, exec (.exchangeWindow ecc) s = .next t ∧ t.audio.exchLap = s.lap + 1 ∧
      (∀ e, (Instr.exchangeWindow e).wf = true → exec (.exchangeWindow e) t = .next t) ∧
      (∀ o slot, (o, slot) ∈ s.tile.placed → (s.slotOf o).isSome = true → o < 1280 ∨ 1344 ≤ o → o < 2048 →
        t.audio.xin.has o = true) ∧
      (∀ k, s.audio.outPt.has k = true → k / 4096 = 5 → t.host.recNow.has (k % 4096) = true) ∧
      t.lap = s.lap ∧ t.tile = s.tile ∧ t.vault = s.vault ∧ t.meter = s.meter ∧ t.core = s.core ∧
      t.pending = s.pending) ∧
  (∀ (s : State) (n slot : Nat), n < 36 → s.tileSlot n = some slot → s.run = true → s.tileActive n = true →
    s.tileRuns n = true → (s.tileAt n).ranLap ≠ s.lap + 1 → s.power.gated = false → s.audio.exchLap = s.lap + 1 →
    ∃ t, exec (.placedProcessing n) s = .next t ∧
      t = { s with tile := t.tile, audio := t.audio, fab := t.fab } ∧
      t.tile = { s.tile with tiles := t.tile.tiles, ramp := t.tile.ramp } ∧
      t.tileAt n = { s.tileAt n with ranLap := s.lap + 1, tgen := s.vault.gen } ∧
      (∀ m, m ≠ n → t.tileAt m = s.tileAt m) ∧ exec (.placedProcessing n) t = .next t ∧
      ∀ o ∈ s.objsOn slot, o < 1344 → s.objFrozen o = false →
        t.audio.stripsW.has o = true ∧ t.audio.outv.has (outCode o) = true)

/-- From R87, R438: a stage layout is armed for its lap, at or after the earliest, until a fade-out of 32 samples before
it; in its lap it is in force with every output silent, and 32 samples after S_m + 2 laps it is done.
The cases that the rules leave open follow the model's choices (log entries 2, 19). -/
def Obligations.LayoutChanges : Prop :=
  ∀ s : State,
    let first := s.lap + 6 + s.fLap
    let targ := s.rd64 Reg.GRF_LAYOUT_LAP_LO_lap Reg.GRF_LAYOUT_LAP_HI_lap
    let bits := (s.reg Reg.GRF_LAYOUT_in_ins.off).toNat
    let st := s.rd Reg.GRF_LAYOUT_STATUS_state
    let only (t : State) (regs : List Nat) : Prop :=
      t = { s with regs := t.regs, audio := { s.audio with layout := t.audio.layout, mutePhase := t.audio.mutePhase,
                                                           mutePos := t.audio.mutePos, muteLap := t.audio.muteLap,
                                                           insPt := t.audio.insPt } } ∧ SameRegs regs s t
    let stat := Reg.GRF_LAYOUT_STATUS_state.off
    (s.audio.layout = none → (s.run = true → first ≤ targ) →
      ∃ t, exec .layoutApplyAtLap s = .next t ∧ only t [stat] ∧ t.rd Reg.GRF_LAYOUT_STATUS_state = 1 ∧
        t.audio.layout = some ⟨if s.run then targ else 0, bits⟩) ∧
    (s.audio.layout = none →
      ∃ t, exec .layoutApplyEarliest s = .next t ∧ only t [stat] ∧ t.rd Reg.GRF_LAYOUT_STATUS_state = 1 ∧
        t.audio.layout = some ⟨if s.run then first else 0, bits⟩) ∧
    (s.audio.layout = none → s.run = true → targ < first →
      ∃ t, exec .layoutApplyAtLap s = .next t ∧ t.audio = s.audio ∧ t.rd Reg.GRF_LAYOUT_STATUS_reason = 1 ∧
        t.rd Reg.GRF_LAYOUT_STATUS_state = 4 ∧ (t.reg Reg.GRF_EVENT_ev.off).getLsbD 5 = true) ∧
    (∀ p, s.audio.layout = some p →
      (st = 1 → ∃ t, exec .layoutAbandon s = .next t ∧ only t [stat] ∧ t.audio.layout = none ∧
        t.rd Reg.GRF_LAYOUT_STATUS_state = 0) ∧
      (st = 1 → s.run = true → s.lap + s.fLap = p.lap → s.audio.mutePhase = .pass →
        ∃ t, exec .layoutFadeOutStart s = .next t ∧ only t [stat] ∧ t.audio.layout = some p ∧
          t.rd Reg.GRF_LAYOUT_STATUS_state = 2 ∧ t.audio.mutePhase = .fadeOut ∧ t.audio.mutePos = 0) ∧
      (st = 2 → s.run = true → s.lap = p.lap →
        ∃ t, exec .layoutTakeEffect s = .next t ∧
          only t [stat, Reg.GRF_LAYOUT_LIVE_in_ins.off, Reg.GRF_STAGES_s_direct.off] ∧
          (t.reg Reg.GRF_LAYOUT_LIVE_in_ins.off).toNat = p.bits % 2 ^ 32 ∧ t.rd Reg.GRF_LAYOUT_STATUS_state = 3 ∧
          t.rd Reg.GRF_STAGES_s_mtx = (Layout.ofBits p.bits).sMtx % 16 ∧ t.audio.layout = some p ∧
          t.audio.mutePhase = .silent) ∧
      (st = 3 → s.run = true → s.lap = p.lap + s.layout.sMtx + 2 → s.casc.layoutMute = false →
        s.audio.mutePhase = .silent →
        ∃ t, exec .layoutFadeInStart s = .next t ∧ only t [] ∧ t.audio.layout = some p ∧
          t.audio.mutePhase = .fadeIn ∧ t.audio.mutePos = 0) ∧
      (st = 3 → s.run = true → p.lap + s.layout.sMtx + 2 + s.fLap ≤ s.lap →
        ∃ t, exec .layoutDone s = .next t ∧ t.audio = { s.audio with layout := none } ∧
          t.rd Reg.GRF_LAYOUT_STATUS_state = 0 ∧ (t.reg Reg.GRF_EVENT_ev.off).getLsbD 4 = true ∧
          t = { s with regs := t.regs, audio := t.audio, host := t.host, outs := t.outs }))

/-- From R90, R100: a fade at a route point or of a delay whose last sample has passed ends, and a change that was held while it ran
starts. R102, R109, R119, R123: the polarity fade and a section's coefficient fade that have run their length end; a gate
below its threshold less the hysteresis closes when its hold has run out; a mute that finds no crossing by its last search
sample fades.
The cases that the rules leave open follow the model's choices (log entries 2, 9, 19). -/
def Obligations.FadesAndStripStagesEnd : Prop :=
  (∀ (s : State) (n o g : Nat) (f : Fade), f.runs = false →
     ((s.inPt n).fade = some f → ∃ t, exec (.routeFadeEnd (.input n)) s = .next t ∧ FadeEnded (s.inPt n) (t.inPt n) ∧
       (∀ m, m ≠ n → t.inPt m = s.inPt m) ∧ Noticed [Reg.GRF_EVENT_ev.off] { s with audio := t.audio } t ∧
       t.audio = { s.audio with inPt := t.audio.inPt }) ∧
     ((s.outPt n).fade = some f → ∃ t, exec (.routeFadeEnd (.sink n)) s = .next t ∧ FadeEnded (s.outPt n) (t.outPt n) ∧
       (∀ m, m ≠ n → t.outPt m = s.outPt m) ∧ Noticed [Reg.GRF_EVENT_ev.off] { s with audio := t.audio } t ∧
       t.audio = { s.audio with outPt := t.audio.outPt }) ∧
     ((s.insPt (2 * o + g)).fade = some f → ∃ t, exec (.routeFadeEnd (.insert o g)) s = .next t ∧
       FadeEnded (s.insPt (2 * o + g)) (t.insPt (2 * o + g)) ∧ (∀ m, m ≠ 2 * o + g → t.insPt m = s.insPt m) ∧
       t = { s with audio := { s.audio with insPt := t.audio.insPt } }) ∧
     ((s.dirPt n).fade = some f → ∃ t, exec (.routeFadeEnd (.direct n)) s = .next t ∧ FadeEnded (s.dirPt n) (t.dirPt n) ∧
       (∀ m, m ≠ n → t.dirPt m = s.dirPt m) ∧ t = { s with audio := { s.audio with dirPt := t.audio.dirPt } }) ∧
     ((s.genAt n).fade = some f → (s.genAt n).held = none → ∃ t, exec (.routeFadeEnd (.gen n)) s = .next t ∧
       t.genAt n = { s.genAt n with fade := none } ∧ (∀ m, m ≠ n → t.genAt m = s.genAt m) ∧
       t = { s with audio := { s.audio with gens := t.audio.gens } }) ∧
     (let u := s.audio.delay.get DelayU.reset n
      let d := (s.vault.live (delayPid n)).toNat
      u.fade = some f → u.valid = true → ∃ t, exec (.delayFadeEnd n) s = .next t ∧
       t = { s with audio := { s.audio with delay := t.audio.delay } } ∧
       (∀ k, k ≠ n → t.audio.delay.get DelayU.reset k = s.audio.delay.get DelayU.reset k) ∧
       (d = u.cur → t.audio.delay.get DelayU.reset n = { u with fade := none, old := u.cur }) ∧
       (d ≠ u.cur → (t.audio.delay.get DelayU.reset n).cur = d ∧
         (t.audio.delay.get DelayU.reset n).fade =
           (if (s.profOf (delayPid n)).route = 0 then none
            else some ⟨(s.profOf (delayPid n)).route, 0, (s.profOf (delayPid n)).power⟩)))) ∧
  (∀ (s : State) (o : Nat), (s.audio.stripsW.has o || s.audio.strips.has o) = true →
     let x := s.stripNow o
     (∀ f, x.pol.fade = some f → f.runs = false → ∃ t, exec (.polarityFadeEnd o) s = .next t ∧
       StripBecomes o { x with pol := { x.pol with fade := none, old := x.pol.cur } } s t) ∧
     (∀ k f, (x.secs.getD k Section.cold).fade = some f → f.len ≤ f.i → ∃ t, exec (.sectionFadeEnd o k) s = .next t ∧
       StripBecomes o { x with secs := x.secs.set k { x.secs.getD k Section.cold with fade := none } } s t) ∧
     (∀ (level : D32), let p := s.dynPar (placeClass o) (placeIndex o) 1
       p.mode ≠ 0 → p.mode ≠ 1 → x.d1.gate = true → x.d1.hc = 0 → level.toInt < (dSub p.thresh p.hyst).toInt →
       ∃ t, exec (.gateHoldExpire o level) s = .next t ∧
         StripBecomes o { x with d1 := { x.d1 with gate := false } } s t) ∧
     (∀ (y : A48), x.mute.searching = true → x.mute.c = s.msSamples (s.code (placeClass o) (placeIndex o) 0x102) →
       y ≠ 0 → sgn y = sgn x.mute.yPrev → ∃ t, exec (.muteTimeout o y) s = .next t ∧
         StripBecomes o { x with mute := { x.mute with fade := some 0, searching := false } } s t))


/-! ### The scene vault (chapter 08) -/

/-- From R152, R153: a PARAM_WRITE whose items are all valid writes every item to the loft, the last one of a parameter
standing, and changes no live word of the store; one with an invalid item, or that names an armed group, writes none
and completes with its code; a PARAM_READ returns the words of the page it names and changes nothing.
The cases that the rules leave open follow the model's choices (log entries 34, 35). -/
def Obligations.ParametersAreWrittenAndRead : Prop :=
  ∀ (s : State) (r : Nat) (items : List (Word × Word × BitVec 64)) (d : Desc) (rest : List Desc), r < 64 →
    s.ringFunc r = 1 → items.length = d.itemCount →
    (AtHead r 1 d rest s → s.vaultTurn = some r → s.mustWait (s.itemMask items) = false →
      (∀ v, s.writeItems items 0 s.vault = .inr v → s.itemMask items &&& s.vault.armedMask = 0 →
        storeWords v ≤ storeRoom →
        ∃ w t, exec (.paramWrite r items) s = .next t ∧ HeadCompletes r d rest 0 0 0 [] { s with vault := w } t ∧
          w = { s.vault with page0 := w.page0, page1 := w.page1, loss := w.loss, robin := (r + 1) % 64 } ∧
          (∀ p, w.storeLive p = s.vault.storeLive p) ∧
          ∀ p, w.loft p = ((items.reverse.find? (fun e => itemPid e == p)).map itemVal).getD (s.vault.loft p)) ∧
      (∀ i, s.writeItems items 0 s.vault = .inl i → ∃ t, exec (.paramWrite r items) s = .next t ∧
        HeadCompletes r d rest 0x10 0 (min i 0xFFFE) [] (s.serveRing r) t) ∧
      (∀ v, s.writeItems items 0 s.vault = .inr v → s.itemMask items &&& s.vault.armedMask ≠ 0 →
        ∃ t, exec (.paramWrite r items) s = .next t ∧ HeadCompletes r d rest 0x11 0 0 [] (s.serveRing r) t)) ∧
    (AtHead r 2 d rest s → s.vaultTurn = some r → s.on Reg.VLT_STATUS_store_ok = true →
      let loft := bitAt (d.word 0) 18
      let word (p : Nat) := if loft then s.vault.loft p else s.vault.storeLive p
      let g := if loft then 0 else s.vault.gen
      items.findIdx? (fun e => e.2.1 != 0 || !s.vault.pidOk loft (itemPid e)) = none →
      ∃ t, exec (.paramRead r items []) s = .next t ∧
        HeadCompletes r d rest 0 0 0 [(4, BitVec.ofNat 32 g), (5, BitVec.ofNat 32 (g / 2 ^ 32))]
          { s.serveRing r with outs := s.outs ++ (d.valueAddrs.zip items).map (fun e =>
              .hostWrite e.1 (leBytes 8 (word (itemPid e.2)).toNat)) } t)

/-- From R151, R155 to R157, R160 on an engine that is its own master: an apply commit that passes the checks is armed for
its lap, or for the earliest one, and holds its ring; one that fails completes with its code and counts; a discard
makes the lofts of its groups repeat the live page; an abandon withdraws the armed commit of its mask; and a waiting
descriptor is taken again once its groups no longer switch.
The cases that the rules leave open follow the model's choices (log entry 34). -/
def Obligations.CommitsAreJudged : Prop :=
  ∀ (s : State) (r : Nat) (d : Desc) (rest : List Desc), r < 64 → s.ringFunc r = 1 →
    let q := s.requestOf r d
    let refused (i : Instr) (c : Nat) : Prop := ∃ t, exec i s = .next t ∧ t.vault = { s.vault with robin := (r + 1) % 64 } ∧
      t.rd Reg.VLT_COMMIT_STATUS_code = c ∧ t.rd Reg.VLT_COMMIT_STATUS_ring = r ∧
      t.rd Reg.VLT_COMMIT_STATUS_valid = 1 ∧
      t.rd Reg.VLT_REFUSED_COUNT_count = min (s.rd Reg.VLT_REFUSED_COUNT_count + 1) (2 ^ 32 - 1) ∧
      (t.reg Reg.VLT_EVENT_ev.off).getLsbD 1 = true ∧
      t = { s with regs := t.regs, vault := t.vault, host := t.host, outs := t.outs }
    (AtHead r 3 d rest s → s.vaultTurn = some r → s.inRing = false → s.mustWait q.mask = false →
      (q.op = 0 → s.applyCode q = 0 → ∃ t a, exec (.commitApply r) s = .next t ∧
        t.vault = { s.vault with arms := s.vault.arms ++ [a], robin := (r + 1) % 64 } ∧ a.mask = q.mask ∧ a.prof = s.profile q.profile ∧
        a.lap = (if s.namedLap q < s.earliest q then s.earliest q else (s.namedLap q).toNat) ∧ a.reach = a.lap ∧
        a.late = decide (s.namedLap q < s.earliest q) ∧ a.own = some (r, d.id) ∧ (t.ring r).hold = true ∧
        t = { s with regs := t.regs, vault := t.vault, host := t.host } ∧ SameRegs [Reg.VLT_STATUS_armed.off] s t) ∧
      (q.op = 0 → s.applyCode q ≠ 0 → refused (.commitApply r) (s.applyCode q)) ∧
      (q.op = 3 → refused (.commitApply r) (if s.on Reg.VLT_CFG_commit_en then 0x29 else 0x26)) ∧
      (q.op = 1 → s.formCode q = 0 → q.mask &&& s.vault.armedMask = 0 →
        ∃ t, exec (.commitDiscard r) s = .next t ∧
          t.vault = { s.vault with page0 := t.vault.page0, page1 := t.vault.page1, robin := (r + 1) % 64 } ∧
          (∀ p, t.vault.storeLive p = s.vault.storeLive p) ∧
          (∀ p, s.vault.covers q.mask (objOf p) = true → t.vault.loft p = s.vault.storeLive p) ∧
          (∀ p, s.vault.covers q.mask (objOf p) = false → t.vault.loft p = s.vault.loft p) ∧
          t.rd Reg.VLT_COMMIT_STATUS_code = 2 ∧ t.rd Reg.VLT_COMMIT_STATUS_op = 1 ∧
          t = { s with regs := t.regs, vault := t.vault, host := t.host, outs := t.outs } ∧
          SameRegs [Reg.VLT_COMMIT_STATUS_code.off] s t) ∧
      (q.op = 1 → s.formCode q = 0 → q.mask &&& s.vault.armedMask ≠ 0 → refused (.commitDiscard r) 0x23) ∧
      (∀ a, q.op = 2 → s.formCode q = 0 → s.vault.arms.find? (fun a => a.mask == q.mask) = some a → a.own = none →
        s.earliest q ≤ a.lap → ∃ t, exec (.commitAbandon r) s = .next t ∧
          t.vault = { s.vault with arms := s.vault.arms.filter (fun b => b.mask != q.mask), robin := (r + 1) % 64 } ∧
          t.rd Reg.VLT_COMMIT_STATUS_code = 3 ∧ t.rd Reg.VLT_COMMIT_STATUS_op = 2) ∧
      (q.op = 2 → s.formCode q = 0 → s.vault.arms.find? (fun a => a.mask == q.mask) = none →
        refused (.commitAbandon r) 0x27)) ∧
    (∀ x, (s.ring r).descs.find? (fun d => d.stage == .waiting) = some x →
      s.mustWait (BitVec.ofNat 64 x.count0) = false → ∃ t, exec (.waitingDescriptorRelease r) s = .next t ∧
        t = { s with regs := t.regs, host := t.host } ∧ SameRegs [Reg.VLT_STATUS_armed.off] s t ∧
        { x with stage := .taken, count0 := 0 } ∈ (t.ring r).descs ∧ ∀ k, k ≠ r → t.ring k = s.ring k)

/-- From R158, R161, R168, R169: the baton of a commit is distributed in the lap before its entry lap; in its entry lap the
commit applies: the generation steps, the masked groups take it, the store shows the other page of every covered
object as live, and the commit's COMMIT completes.
The cases that the rules leave open follow the model's choices (log entries 2, 34). -/
def Obligations.CommitsApplyInTheirEntryLap : Prop :=
  (∀ s : State, ∃ t, exec .batonDistribute s = .next t ∧
    t = { s with vault := { s.vault with arms := t.vault.arms } } ∧ t.vault.arms.length = s.vault.arms.length ∧
    (∀ a ∈ s.vault.arms, a.reach = s.lap + 1 → { a with dist := true } ∈ t.vault.arms) ∧
    (∀ a ∈ s.vault.arms, a.reach ≠ s.lap + 1 → a ∈ t.vault.arms)) ∧
  (∀ (s : State) (a : Arm), s.vault.arms.filter (fun b => b.dist && b.reach == s.lap) = [a] → s.vault.requests = [] →
    (a.num = none → a.lap = s.lap) →
    (∀ b ∈ s.vault.arms, b ≠ a → b.slot ≠ a.slot ∧ (s.lap < b.lap ∨ b.num.isSome = true)) →
    let g := a.num.getD (s.vault.gen + 1)
    ∃ t, exec .entryLap s = .next t ∧ t.vault.gen = max s.vault.gen g ∧
      (∀ n, n < 64 → t.vault.gGen.get 0 n = if a.mask.getLsbD n then g else s.vault.gGen.get 0 n) ∧
      t.vault.arms = s.vault.arms.filter (fun b => b.mask != a.mask) ∧
      t.vault.switching = s.vault.switching ++ [⟨a.mask, s.lap, g, a.prof, []⟩] ∧
      (∀ ob, ob ∈ s.vault.objects → s.vault.covers a.mask ob = true →
        t.vault.storeBit.get false ob = !s.vault.storeBit.get false ob) ∧
      (∀ ob, s.vault.covers a.mask ob = false → t.vault.storeBit.get false ob = s.vault.storeBit.get false ob) ∧
      t.vault.page0 = s.vault.page0 ∧ t.vault.page1 = s.vault.page1 ∧ t.vault.group = s.vault.group ∧
      t.rd Reg.VLT_GEN_LO_gen = max s.vault.gen g % 2 ^ 32 ∧
      (t.reg Reg.VLT_EVENT_ev.off).getLsbD 0 = true ∧
      (∀ r id, a.own = some (r, id) → r < 64 → (∃ d ∈ (s.ring r).descs, d.id = id) →
        t.rd Reg.VLT_COMMIT_STATUS_code = (if a.late then 1 else 0) ∧ (t.ring r).hold = false) ∧
      t.lap = s.lap ∧ t.audio = s.audio ∧ t.meter = s.meter ∧ t.core = s.core)

/-- From R162, R164: in lap t + p the elements of position p take the page the store shows; once every element of an object
has exchanged, the refresh makes its loft repeat its live page; and after the lock release lap the groups of the commit
open.
The cases that the rules leave open follow the model's choices (log entries 2, 19). -/
def Obligations.PagesExchangeAndOpen : Prop :=
  (∀ (s : State) (p e : Nat) (sw : Switching), p < 32 →
    s.vault.switching.filter (fun x => x.lap + p == s.lap && !x.exchanged.contains p) = [sw] →
    s.pendingElems sw p = [e] →
    ∃ t, exec (.pageExchange p) s = .next t ∧
      t.vault.bankBit.get false e = (!s.vault.bankBit.get false e) ∧
      (∀ x, x ≠ e → t.vault.bankBit.get false x = s.vault.bankBit.get false x) ∧
      t.vault.swap.get ⟨0, Prof.cut⟩ e = ⟨s.lap, sw.prof⟩ ∧
      (∀ q ∈ s.vault.pids (fun q => elemOf q == e && s.vault.page (s.vault.bankBit.get false e) q !=
          s.vault.page (!s.vault.bankBit.get false e) q), t.vault.chg.get ⟨0, Prof.cut⟩ q = ⟨sw.gen, sw.prof⟩) ∧
      t.vault.refresh.has (if pidClass e = 5 then e else e / 4096 * 4096) = true ∧
      t.vault.page0 = s.vault.page0 ∧ t.vault.page1 = s.vault.page1 ∧ t.vault.storeBit = s.vault.storeBit ∧
      t.vault.gen = s.vault.gen ∧ t.vault.arms = s.vault.arms ∧
      t = { s with regs := t.regs, vault := t.vault, audio := t.audio, host := t.host, outs := t.outs
                   tile := { s.tile with heats := t.tile.heats } }) ∧
  (∀ (s : State) (ob : Nat), s.vault.refresh.has ob = true → s.exchangedObj ob = true →
    ∃ t, exec (.loftRefreshComplete ob false) s = .next t ∧
      t.vault = { s.vault with page0 := t.vault.page0, page1 := t.vault.page1, refresh := s.vault.refresh.erase ob } ∧
      (∀ p, objOf p = ob → t.vault.loft p = s.vault.storeLive p) ∧
      (∀ p, objOf p ≠ ob → t.vault.loft p = s.vault.loft p) ∧
      (∀ p, t.vault.storeLive p = s.vault.storeLive p) ∧
      t = { s with regs := t.regs, vault := t.vault } ∧ SameRegs [Reg.VLT_STATUS_armed.off] s t) ∧
  (∀ (s : State) (x : Switching), x ∈ s.vault.switching → s.releaseLap x ≤ s.lap →
    (∀ ob ∈ s.vault.objects, s.vault.covers x.mask ob = true →
      s.exchangedObj ob = true ∧ s.vault.refresh.has ob = false) →
    ∃ t, exec .lockRelease s = .next t ∧ t.vault = { s.vault with switching := t.vault.switching } ∧
      x ∉ t.vault.switching ∧ (∀ y ∈ s.vault.switching, s.lap < s.releaseLap y → y ∈ t.vault.switching) ∧
      t = { s with regs := t.regs, vault := t.vault } ∧ SameRegs [Reg.VLT_STATUS_armed.off] s t)

/-- From R150: an object changes its group unless either group is armed or switching, which VLT_EVENT reports. R170: an
engine that joins takes the ring's generations, and a group whose generation differs is unsynced. R193: SNAP_CFG sets
its stream from the first fitting entry lap from the lap after next on, and answers a bad setting with BAD_FORM.
The cases that the rules leave open follow the model's choices (log entry 34). -/
def Obligations.GroupsJoiningAndSnapshotSettings : Prop :=
  (∀ (s : State) (v : Word),
    let sub := s.rd Reg.VLT_GROUP_ADDR_sub
    let cls := s.rd Reg.VLT_GROUP_ADDR_class
    let ob := pid cls (s.rd Reg.VLT_GROUP_ADDR_index) sub
    let busy := s.vault.armedMask ||| s.vault.switchMask
    objectExists ob = true → (cls = 5 ∨ sub = 0) →
    ((busy.getLsbD (v.toNat % 64) || busy.getLsbD (s.vault.groupOf ob)) = false →
      ∃ t, exec (.groupChange v) s = .next t ∧ t = { s with vault := { s.vault with group := t.vault.group } } ∧
        ∀ x, t.vault.groupOf x = if x = ob then v.toNat % 64 else s.vault.groupOf x) ∧
    ((busy.getLsbD (v.toNat % 64) || busy.getLsbD (s.vault.groupOf ob)) = true →
      ∃ t, exec (.groupChange v) s = .next t ∧ Noticed [Reg.VLT_EVENT_ev.off] s t ∧
        (t.reg Reg.VLT_EVENT_ev.off).getLsbD 6 = true)) ∧
  (∀ s : State, s.inRing = true → s.isMaster = false → s.casc.joined = false → (∀ p, p < 16 → p ∈ s.casc.pieces) →
    ∃ t, exec .engineJoin s = .next t ∧ t.vault.gen = s.casc.ringGen ∧ t.vault.gGen = s.casc.ringGens ∧
      t.casc = { s.casc with pieces := [], joined := true } ∧
      (∀ g, g < 64 → t.vault.unsynced.getLsbD g =
        (s.vault.unsynced.getLsbD g || decide (s.casc.ringGens.get 0 g ≠ s.vault.gGen.get 0 g))) ∧
      t.rd Reg.VLT_GEN_LO_gen = s.casc.ringGen % 2 ^ 32 ∧ t.vault.page0 = s.vault.page0 ∧
      t.vault.page1 = s.vault.page1 ∧ t.lap = s.lap ∧ t.tile = s.tile ∧ t.port = s.port) ∧
  (∀ (s : State) (r : Nat) (d : Desc) (rest : List Desc), r < 64 → s.ringFunc r = 1 → AtHead r 4 d rest s → s.vaultTurn = some r →
    s.on Reg.VLT_STATUS_store_ok = true →
    let st := d.word 4 % 4
    let flags := bitsOf (d.word 4) 8 8
    let q := bitsOf (d.word 4) 16 6
    let n := d.word 5 % 65536
    let phi := d.word 5 / 65536
    let old := s.vault.snap.get SnapCfg.off st
    let new : SnapCfg := { old with next := old.next ++ [⟨n, phi, flags, q, s.lap + 2⟩] }
    let bad : Prop := (n ≠ 0 ∧ n ≤ phi) ∨ 32 ≤ flags ∨ s.ringOn q = false ∨ s.ringFunc q ≠ 2
    (¬bad → ∃ t, exec (.snapCfg r) s = .next t ∧ HeadCompletes r d rest 0x40 0 0 []
      { s with vault := { s.vault with snap := s.vault.snap.insert st new, robin := (r + 1) % 64 } } t) ∧
    (bad → ∃ t, exec (.snapCfg r) s = .next t ∧ HeadCompletes r d rest 0x43 0 0 [] (s.serveRing r) t))

/-- From R171, R172: a slot's reload starts unless a group of it is switching, and with its end the objects it read are
warm: their state is zero and their ramps begin. R173, R175, R183: a snapshot whose last column has run takes the next
sequence number and is written into its stream's block, the two halves in turn.
The cases that the rules leave open follow the model's choices (log entries 2, 18, 36, 96). -/
def Obligations.ReloadsAndSnapshots : Prop :=
  (∀ (s : State) (slot : Nat), slot < 32 → s.needsReload slot = true → s.vault.reloading.get false slot = false →
    s.on Reg.VLT_STATUS_store_ok = true →
    (∀ ob ∈ s.reloadObs slot, s.vault.switchMask.getLsbD (s.vault.groupOf ob) = false) →
    ∃ t, exec (.slotReload slot []) s = .next t ∧
      t = { s with vault := { s.vault with reloading := t.vault.reloading } } ∧
      ∀ k, t.vault.reloading.get false k = if k = slot then true else s.vault.reloading.get false k) ∧
  (∀ (s : State) (slot : Nat), slot < 32 → s.vault.reloading.get false slot = true →
    ∃ t, exec (.reloadComplete slot) s = .next t ∧ t.vault.reloading.get false slot = false ∧
      t.vault.slotReload.get false slot = false ∧
      (∀ n, s.vault.slotReload.get false slot = true → s.slotTile slot = some n →
        ∀ k, k / 16384 = 2 ∨ k / 16384 = 3 → (t.tileAt n).bank.get 0 k = 0) ∧
      (∀ o, o ∈ (if s.vault.slotReload.get false slot then s.objsOn slot else s.waitObjs slot) →
        t.tile.cold.get false o = false ∧ t.vault.objReload.get false o = false ∧
        t.tile.ramp.get none o = some ⟨s.warmLen, 0⟩) ∧
      (t.reg Reg.VLT_EVENT_ev.off).getLsbD 5 = true ∧ t.vault.page0 = s.vault.page0 ∧
      t.vault.page1 = s.vault.page1 ∧ t.lap = s.lap ∧ t.fab = s.fab ∧ t.port = s.port ∧ t.meter = s.meter) ∧
  (∀ (s : State) (st : Nat) (x : Snap), st < 4 → s.vault.snaps.find? (fun x => x.stream == st) = some x →
    x.lap + s.layout.pTile + 1 ≤ s.lap → x.judged = true →
    let c := s.vault.snap.get SnapCfg.off st
    let seq := if c.seq = 2 ^ 32 - 1 then 1 else c.seq + 1
    let data := wordBytes (s.snapWords x seq)
    let base := st * 0x20000 + (if c.second then 0x10000 else 0)
    ∃ t, exec (.snapshotWrite st) s = .next t ∧
      t.vault.snaps = s.vault.snaps.erase x ∧
      t.vault.snap.get SnapCfg.off st = { c with seq := seq, second := !c.second } ∧
      (∀ a, t.host.snapArea.get 0 a =
        if base ≤ a ∧ a < base + data.length then data.getD (a - base) 0 else s.host.snapArea.get 0 a) ∧
      t = { s with regs := t.regs, vault := { s.vault with snaps := t.vault.snaps, snap := t.vault.snap },
                   host := t.host, outs := t.outs })

/-! ### Descriptor rings (chapter 09) -/

/-- From R181, R184, R186: a doorbell write is taken by an enabled ring, halts it where the host claims more entries than the ring
has, and is reported where the ring is disabled; a read answers both indices; an odd word reads 0; any other access of
BAR2 is a decode miss. R187 to R191, R199: a running ring takes the entry at its engine index; one the host does not own
halts it, one of another function's type completes with code 4, one of its type and form becomes its youngest descriptor.
The cases that the rules leave open follow the model's choices (log entries 7, 28, 37). -/
def Obligations.DoorbellsAndDescriptors : Prop :=
  (∀ (s : State) (r : Nat) (v : Word), r < 64 → s.hostReaches = true → s.pstate ≠ 6 →
     (s.ringOn r = true → ∃ u t, exec (.doorbellWrite (8 * r) 4 true v) s = .next t ∧
       u = { s with resp := .ok 0, host := { s.host with doorbell := s.host.doorbell.insert r (v.toNat % 65536) } } ∧
       ((s.ringRuns r = false ∨ u.owned r ≤ s.ringSize r) → t = u) ∧
       (s.ringRuns r = true → s.ringSize r < u.owned r → Halted r 4 u t)) ∧
     (s.ringOn r = false → ∃ t, exec (.doorbellWrite (8 * r) 4 true v) s = .next t ∧
       Noticed [] { s with resp := .ok 0 } t ∧ (t.reg Reg.HST_EVENT_ev.off).getLsbD 2 = true) ∧
     (∃ t, exec (.doorbellWrite (8 * r) 4 false v) s = .next t ∧ t = { s with resp := t.resp } ∧
       t.resp = .ok (BitVec.ofNat 64 (s.doorbell r + 65536 * s.rd (Reg.HST_RSTAT_eidx r)))) ∧
     (∀ w, exec (.doorbellWrite (8 * r + 4) 4 w v) s = .next { s with resp := .ok 0 }) ∧
     (∀ off size w, 0 < size → size ≤ 8 → off + size ≤ 0x10000 → (off % 4 ≠ 0 ∨ size ≠ 4 ∨ 0x200 ≤ off) →
       ∃ t, exec (.doorbellWrite off size w v) s = .next t ∧
         t.resp = (if s.on Reg.HST_CFG_pol_bar2 then .ok 0 else .unsupported) ∧
         t.rd Reg.HST_MISS_COUNT_count = min (s.rd Reg.HST_MISS_COUNT_count + 1) (2 ^ 32 - 1) ∧
         (s.on Reg.HST_MISS_INFO_valid = false → t.rd Reg.HST_MISS_INFO_bar = 1 ∧
           t.rd Reg.HST_MISS_INFO_write = b2n w ∧ t.rd Reg.HST_MISS_OFF_offset = off ∧
           (t.reg Reg.HST_EVENT_ev.off).getLsbD 1 = true) ∧
         Noticed [Reg.HST_MISS_COUNT_count.off, Reg.HST_MISS_INFO_bar.off, Reg.HST_MISS_OFF_offset.off]
           { s with resp := t.resp } t)) ∧
  (∀ (s : State) (r : Nat) (e : List Word) (l : List (List Word)), r < 64 → e.length = 8 →
     (∀ x ∈ l, x.length = 8) → s.ringRuns r = true → s.on Reg.HST_STATUS_bme = true → (s.ring r).hold = false →
     (∀ d ∈ (s.ring r).descs, d.stage ≠ .waiting) → s.owned r ≠ 0 →
     (ownBit e = false → ∃ t, exec (.descriptorTake r (e :: l)) s = .next t ∧ Halted r 5 s t) ∧
     (∀ f c, ownBit e = true → typeFunc (entryType e) = some (f, c) → f = s.ringFunc r → chained e = false →
       formOk (entryType e) true e = true → (entryType e ≠ 0x0C ∨ (e.headD 0).toNat % 65536 ≤ 9216) →
       ∃ t d, exec (.descriptorTake r (e :: l)) s = .next t ∧ (t.ring r).descs = (s.ring r).descs ++ [d] ∧
         d.segs = [e] ∧ d.stage = .taken ∧ d.index = s.rd (Reg.HST_RSTAT_eidx r) ∧ d.id = (s.ring r).next ∧
         (t.ring r).next = (s.ring r).next + 1 ∧
         t.rd (Reg.HST_RSTAT_eidx r) = (s.rd (Reg.HST_RSTAT_eidx r) + 1) % 65536 ∧
         t = { s with regs := t.regs, host := t.host } ∧ SameRegs [(Reg.HST_RSTAT_eidx r).off] s t ∧
         ∀ q, q ≠ r → t.ring q = s.ring q) ∧
     (ownBit e = true → (∀ f c, typeFunc (entryType e) = some (f, c) → f ≠ s.ringFunc r) → (s.ring r).descs = [] →
       let u := s.take r [e]
       let vault : Bool := decide (1 ≤ entryType e) && decide (entryType e ≤ 3)
       ∃ t, exec (.descriptorTake r (e :: l)) s = .next t ∧
         HeadCompletes r u.2 [] (if vault then 0x10 else 0x45) 4 (if vault then 0xFFFF else 0) []
           (if entryType e = 3 then u.1.noteCommit r (bitsOf (u.2.word 0) 18 2) 0x10 else u.1) t))

/-- From R185, R196, R200, R201: a ring whose direction, base and channels are legal starts with both indices at 0 and no
descriptor, else its enable bit reads 0 with the reason; a disabled ring flushes what R200 names, whose frames leave the
egress queues, drops the COMMITs it had accepted, drains the rest and is then off; VLT_STATUS.waiting counts the rings
that wait.
The cases that the rules leave open follow the model's choices (log entry 37). -/
def Obligations.RingsStartAndStop : Prop :=
  ∀ (s : State) (r : Nat), r < 64 →
    let f := s.ringFunc r
    let base := s.rd64 (Reg.HST_RBASE_LO_base r) (Reg.HST_RBASE_HI_base r)
    let dirOk := funcDir f = some (s.on (Reg.HST_RCFG_dir r))
    let baseOk := base % min (32 * s.ringSize r) 4096 = 0
    let regs := [(Reg.HST_RCTRL_en r).off, (Reg.HST_RSTAT_state r).off]
    let waits (t : State) : Prop := t.rd Reg.VLT_STATUS_waiting =
      (t.host.rings.filter (fun e => e.2.descs.any (fun d => d.stage == .waiting))).length % 128
    (s.rd (Reg.HST_RSTAT_state r) = 0 → dirOk → baseOk → ((f = 3 ∨ f = 4) → s.rangeOk r = true) →
      ∀ u, (if f = 3 then s.engineAlloc 4 r (s.stagingShelves r) false else some s) = some u →
        ∃ t, exec (.ringEnable r) s = .next t ∧ t.ringOn r = true ∧ t.rd (Reg.HST_RSTAT_state r) = 1 ∧
          t.rd (Reg.HST_RSTAT_eidx r) = 0 ∧ t.doorbell r = 0 ∧ (t.ring r).descs = [] ∧
          (t.ring r).epoch = (u.ring r).epoch + 1 ∧ t = { u with regs := t.regs, host := t.host } ∧
          SameRegs regs u t ∧ ∀ q, q ≠ r → t.ring q = u.ring q) ∧
    (s.rd (Reg.HST_RSTAT_state r) = 0 → (¬dirOk ∨ ¬baseOk) → ∃ t, exec (.ringEnable r) s = .next t ∧
      t.ringOn r = false ∧ t.rd (Reg.HST_RSTAT_state r) = 0 ∧ t.rd (Reg.HST_RSTAT_reason r) = 6 ∧
      t = { s with regs := t.regs } ∧ SameRegs regs s t) ∧
    (s.ringOn r = true → ∃ t, exec (.ringDisable r) s = .next t ∧ t.ringOn r = false ∧
      t.rd (Reg.HST_RSTAT_state r) = 3 ∧ (t.ring r).hold = false ∧
      (∀ x ∈ (t.ring r).descs, x.stage = .done ∨
        (x ∈ (s.ring r).descs ∧ x.flushed = false ∧ s.drops r x = false)) ∧
      (∀ p q, (t.nport p).queues.get [] q = ((s.nport p).queues.get [] q).filter
        (fun f => !f.tag.of r (((s.ring r).descs.filter Desc.flushed).map (·.id)))) ∧
      waits t ∧ t = { s with regs := t.regs, host := t.host, outs := t.outs, net := t.net } ∧
      t.net = { s.net with ports := t.net.ports } ∧
      SameRegs (Reg.VLT_STATUS_waiting.off :: Reg.VLT_COMMIT_STATUS_code.off :: regs) s t) ∧
    (s.rd (Reg.HST_RSTAT_state r) = 3 → (s.ring r).descs = [] → ∃ t, exec (.ringDrained r) s = .next t ∧
      t.rd (Reg.HST_RSTAT_state r) = 0 ∧ t.ring r = (s.ring r).restart ∧ (∀ q, q ≠ r → t.ring q = s.ring q) ∧
      waits t ∧ t = { s with regs := t.regs, host := t.host, fab := t.fab } ∧
      (s.allocHeld 4 r = none → t.fab = s.fab ∧ SameRegs (Reg.VLT_STATUS_waiting.off :: regs) s t))

/-- From R179, R199, R202, R203: a failed read of host memory completes the descriptor it belongs to and halts a ring that
runs, and one of the ring's own entries halts it alone; Bus Master Enable
lets the rings and the pending messages go on; the moderation timer signals a ring's vector; a Function Level Reset
puts the host interface back to reset but for the link's speed and width, the items of a waiting PARAM_WRITE staying
the vault's to write, and its end is an event.
The cases that the rules leave open follow the model's choices (log entries 2, 7, 13, 37). -/
def Obligations.HostFailuresModerationAndReset : Prop :=
  (∀ (s : State) (r : Nat) (d : Desc) (rest : List Desc) (c : Nat) (i : Instr), r < 64 →
    (c = 1 ∧ i = .hostReadTimeout r (some 0) ∨ c = 2 ∧ i = .hostReadError r (some 0)) → d.reads = true →
    AtHead r d.type d rest s →
    let vault : Bool := decide (1 ≤ d.type) && decide (d.type ≤ 3)
    ∃ u t, exec i s = .next t ∧
      HeadCompletes r d rest (if vault then 0x10 else 0x45) c (if vault then 0xFFFF else 0) [] s u ∧
      (s.ringRuns r = true → Halted r c u t) ∧ (s.ringRuns r = false → t = u)) ∧
  (∀ (s : State) (r : Nat) (c : Nat) (i : Instr), r < 64 →
    (c = 1 ∧ i = .hostReadTimeout r none ∨ c = 2 ∧ i = .hostReadError r none) → s.ringRuns r = true →
    ∃ t, exec i s = .next t ∧ Halted r c s t) ∧
  (∀ s : State, (∃ t, exec (.busMasterEnable false) s = .next t ∧ t.on Reg.HST_STATUS_bme = false ∧
      t = { s with regs := t.regs } ∧ SameRegs [Reg.HST_STATUS_bme.off] s t) ∧
    ∃ t, exec (.busMasterEnable true) s = .next t ∧ t.on Reg.HST_STATUS_bme = true ∧
      t = { s with regs := t.regs, host := t.host, outs := t.outs } ∧ SameRegs [Reg.HST_STATUS_bme.off] s t ∧
      (s.host.msixEn = true → s.host.msixMask = false →
        ∀ v, (s.host.msix.get MsixEntry.reset v).ctl.getLsbD 0 = false → t.host.pba.get false v = false)) ∧
  (∀ (s : State) (r l : Nat), r < 64 → (s.ring r).since = some l → s.rd (Reg.HST_RMOD_laps r) ≠ 0 →
    l + s.rd (Reg.HST_RMOD_laps r) ≤ s.lap → ∃ t, exec (.moderationTimer r) s = .next t ∧ HostOut s t ∧
      (t.ring r) = { s.ring r with unsig := 0, since := none } ∧
      (let v := s.rd (Reg.HST_RCFG_vec r)
       let e := s.host.msix.get MsixEntry.reset v
       s.on (Reg.HST_RMOD_irq_en r) = true → s.on Reg.HST_STATUS_bme = true → s.host.msixEn = true →
        s.host.msixMask = false → e.ctl.getLsbD 0 = false →
        t.outs = s.outs ++ [.msix v (e.addrLo.toNat + 2 ^ 32 * e.addrHi.toNat) e.data])) ∧
  (∀ s : State, ∃ t, exec .functionLevelReset s = .next t ∧ t.host.flr = true ∧ t.host.msix = [] ∧
    t.host.doorbell = [] ∧ (∀ r, (t.ring r).descs = []) ∧ t.rd Reg.GLB_RESET_CAUSE_flr = 1 ∧
    t.rd Reg.HST_STATUS_speed = s.rd Reg.HST_STATUS_speed ∧ t.rd Reg.HST_STATUS_width = s.rd Reg.HST_STATUS_width ∧
    t.on Reg.HST_STATUS_bme = false ∧
    (∀ off, 0xC000 ≤ off → off < 0xD000 → off ≠ Reg.HST_STATUS_bme.off → t.reg off = resetVal off) ∧
    t.vault = { s.vault with orphans := s.vault.orphans ++ s.waitingItems } ∧
    (∀ a ∈ t.fab.allocs, a ∈ s.fab.allocs ∧ a.kind ≠ 4) ∧
    t = { s with regs := t.regs, hiLatch := t.hiLatch, loHold := t.loHold, host := t.host, fab := t.fab,
                 vault := t.vault }) ∧
  (∀ s : State, s.host.flr = true → ∃ t, exec .flrDone s = .next t ∧ t.host.flr = false ∧
    (t.reg Reg.HST_EVENT_ev.off).getLsbD 6 = true ∧
    Noticed [] { s with host := { s.host with flr := false } } t)

/-- From R194, R197, R198: a buffer that the host posts can be filled; a record ring starts at the first lap boundary after
its first buffer; the words of a playback buffer become the samples of their counts and channels, and late frames are
discarded and counted in the completion.
The cases that the rules leave open follow the model's choices (log entries 7, 37). -/
def Obligations.BuffersPlaybackAndRecord : Prop :=
  (∀ (s : State) (r type : Nat) (i : Instr) (d : Desc), r < 64 → s.oldest r type .taken = some d →
    ((type = 0x05 ∧ i = .snapshotBuffer r) ∨ (type = 0x0D ∧ i = .frameRxBuf r) ∨ (type = 0x10 ∧ i = .eventBuffer r) ∨
     (type = 0x11 ∧ i = .healthBuffer r) ∨ (type = 0x09 ∧ i = .audioRec r)) →
    ∃ t, exec i s = .next t ∧ t = { s with host := { s.host with rings := t.host.rings } } ∧
      (t.ring r).descs = (s.ring r).descs.map (fun x => if x.id = d.id then { d with stage := .posted } else x) ∧
      (∀ q, q ≠ r → t.ring q = s.ring q) ∧
      (type = 0x09 → (t.ring r).recFrom =
        (if (s.ring r).recFrom = 0 then (if s.run then s.lap + 2 else 1) else (s.ring r).recFrom))) ∧
  (∀ (s : State) (r : Nat) (d : Desc) (rest : List Desc) (data : List Byte), r < 64 → s.ringRuns r = true →
    AtHead r 0x08 d rest s →
    let fb := fmtBytes (s.rd (Reg.HST_RAUD_fmt r)) * (s.chanRange r).2
    let g := s.ring r
    let m0 := if bitAt (d.word 0) 18 then g.follow.getD ((s.lap + s.rd (Reg.HST_RAUD_lead r)) * s.nLap) else d.word64 4
    let q := playFrames s r g.fetched fb m0 d.len data g.samples 0
    let g' : Ring := { g with samples := q.1, fetched := g.fetched ++ [(m0, d.len)], follow := some (m0 + d.len),
                              firstLap := some (g.firstLap.getD (m0 / s.nLap)) }
    data.length = d.len * fb → ∃ t, exec (.audioPlay r data) s = .next t ∧
      HeadCompletes r d rest (if q.2 = 0 then 0x40 else 0x42) 0 q.2 [] (s.setRing r g') t) ∧
  (∀ (fmt m c n k : Nat) (data : List Byte) (tb : Tbl A48), k < n →
    (storeFrame fmt m c data 0 n tb).get 0 (m * 256 + c + k) =
      pcmIn (fmtBits fmt) (ofLe ((data.drop (k * fmtBytes fmt)).take (fmtBytes fmt))) ∧
    ∀ j, (j < m * 256 + c ∨ m * 256 + c + n ≤ j) → (storeFrame fmt m c data 0 n tb).get 0 j = tb.get 0 j)

/-! ### Movers (chapter 10) -/

/-- From R210, R211: what HALT, LOOP, WAIT, SIGNAL and JUMP do to the mover that runs them.
The cases that the rules leave open follow the model's choices (log entry 38). -/
def Obligations.MoverInstructions : Prop :=
  ∀ (s : State) (m : Nat), m < 16 →
    let i := s.instrAt m
    let x := s.mover m
    let ran := { x with used := x.used + 1, ir := i }
    let stat := (Reg.MOV_STAT_pc m).off
    let pc := s.rd (Reg.MOV_STAT_pc m)
    (Runs m 0 s → bitsOf i 1 57 = 0 → ∃ t, exec (.halt m .ok) s = .next t ∧ t.mstate m = 0 ∧ t.fill m = 0 ∧
      t.mover m = { ran with ctr := [], h := 0 } ∧
      (bitsOf i 0 1 = 0 → MoverOnly m [stat] s t) ∧
      (bitsOf i 0 1 = 1 → (t.reg Reg.MOV_HALT_EVT_ev.off).getLsbD m = true ∧
        Noticed [stat, Reg.MOV_HALT_EVT_ev.off] { s with fab := t.fab } t)) ∧
    (Runs m 2 s → bitsOf i 32 24 = 0 → bitsOf i 11 5 = 0 → bitsOf i 16 16 ≠ 0 →
      let k := bitsOf i 56 2
      let c := x.ctr.get LoopCtr.reset k
      let left := (if c.armed then c.n else bitsOf i 16 16) - 1
      ∃ t, exec (.loop m .ok) s = .next t ∧ (t.mover m).ctr.get LoopCtr.reset k = ⟨left, left != 0⟩ ∧
        (∀ j, j ≠ k → (t.mover m).ctr.get LoopCtr.reset j = x.ctr.get LoopCtr.reset j) ∧
        t.mover m = { ran with ctr := (t.mover m).ctr } ∧ t.mstate m = 1 ∧
        t.rd (Reg.MOV_STAT_pc m) = (if left ≠ 0 then bitsOf i 0 11 else (pc + 1) % 2048) ∧ MoverOnly m [stat] s t) ∧
    (Runs m 3 s → waitOk i = true → ∃ t, exec (.wait m .ok) s = .next t ∧ t.mstate m = 2 ∧
      t.rd (Reg.MOV_STAT_pc m) = pc ∧ t.mover m = { ran with waited := 0 } ∧ MoverOnly m [stat] s t) ∧
    (Runs m 4 s → bitsOf i 0 54 = 0 →
      let j := bitsOf i 54 4
      ∃ t, exec (.signal m .ok) s = .next t ∧ t.inbox j = s.inbox j ||| 2 ^ m ∧ t.mover m = ran ∧
        t.mstate m = 1 ∧ t.rd (Reg.MOV_STAT_pc m) = (pc + 1) % 2048 ∧
        MoverOnly m [stat, (Reg.MOV_INBOX_inbox j).off] s t) ∧
    (Runs m 5 s → bitsOf i 11 37 = 0 →
      let cond := bitsOf i 56 2
      let k := bitsOf i 48 8
      (cond = 1 → k < 16) → (cond = 2 → k < 128) → (cond = 0 ∨ cond = 3 → k = 0) →
      ∃ t taken, exec (.jump m .ok) s = .next t ∧
        (taken = true ↔ cond = 0 ∨ (cond = 1 ∧ (s.inbox m).testBit k = true) ∨ (cond = 2 ∧ s.reqLine k = true) ∨
          (cond = 3 ∧ x.timedOut = true)) ∧
        t.rd (Reg.MOV_STAT_pc m) = (if taken then bitsOf i 0 11 else (pc + 1) % 2048) ∧ t.mstate m = 1 ∧
        t.mover m = { ran with timedOut := x.timedOut && cond != 3 } ∧
        t.inbox m = (if cond = 1 ∧ taken then s.inbox m - 2 ^ k else s.inbox m) ∧
        MoverOnly m [stat, (Reg.MOV_INBOX_inbox m).off] s t)

/-- From R209, R212, R215, R218: an activation's budget, a reserved opcode, an illegal field and held bits fault the mover
that meets them, whichever instruction it is: its state, code and pc are in MOV_STAT, its bit in MOV_FAULT_EVT, and
the fault of a system mover is entered for the health record.
The cases that the rules leave open follow the model's choices (log entry 38). -/
def Obligations.MoverFaultsEndExecution : Prop :=
  ∀ (s : State) (m op code : Nat) (c : Instr) (ecc : List (Nat × CellEcc)), m < 16 → s.mstate m = 1 → (s.mover m).run = none →
    let i := s.instrAt m
    (op = 0 ∧ c = .halt m .ok ∨ op = 1 ∧ c = .move m .ok ecc ∨ op = 2 ∧ c = .loop m .ok ∨ op = 3 ∧ c = .wait m .ok ∨
     op = 4 ∧ c = .signal m .ok ∨ op = 5 ∧ c = .jump m .ok) →
    (code = 1 ∧ bitsOf i 58 6 = op ∧ s.rd (Reg.MOV_BUDGET_budget m) ≤ (s.mover m).used ∨
     code = 5 ∧ 6 ≤ bitsOf i 58 6 ∧ (s.mover m).used < s.rd (Reg.MOV_BUDGET_budget m) ∨
     code = 5 ∧ Runs m op s ∧ (op = 0 ∧ bitsOf i 1 57 ≠ 0 ∨ op = 1 ∧ moveFields i = none ∨
       op = 2 ∧ (bitsOf i 32 24 ≠ 0 ∨ bitsOf i 11 5 ≠ 0 ∨ bitsOf i 16 16 = 0) ∨ op = 3 ∧ waitOk i = false ∨
       op = 4 ∧ bitsOf i 0 54 ≠ 0 ∨ op = 5 ∧ bitsOf i 11 37 ≠ 0) ∨
     code = 6 ∧ Runs m op s ∧ op = 1 ∧ s.fill m ≠ 0 ∧ ∃ f, moveFields i = some f ∧ f.sample = true) →
    ∃ t, exec c s = .next t ∧ t.mstate m = 3 ∧ t.rd (Reg.MOV_STAT_fault m) = code ∧
      t.rd (Reg.MOV_STAT_pc m) = s.rd (Reg.MOV_STAT_pc m) ∧ (t.reg Reg.MOV_FAULT_EVT_ev.off).getLsbD m = true ∧
      (∀ j, j ≠ m → t.mover j = s.mover j) ∧
      t.health = (if s.systemMover m then (s.fault (0x0C00 + m) m code).health else s.health) ∧
      Noticed [(Reg.MOV_STAT_pc m).off, Reg.MOV_FAULT_EVT_ev.off]
        { s with fab := { s.fab with movers := t.fab.movers }, health := t.health } t

/-- From R213 to R216: a MOVE makes its elements one after the other, flushes what it must and goes on at the next
instruction, or faults at the element that may not be accessed; a paced one issues bursts of at most 256 bytes while its
line is asserted, by the instruction that was fetched (R220), and counts every withdrawal of the line within a burst.
The cases that the rules leave open follow the model's choices (log entries 6, 38). -/
def Obligations.MovesRunElementByElement : Prop :=
  ∀ (s : State) (m : Nat) (f : MoveI) (ecc : List (Nat × CellEcc)), m < 16 →
    (∀ (n : Nat) (us : Nat → State) (t : State), moveFields (s.instrAt m) = some f → Runs m 1 s →
      (f.sample = true → s.fill m = 0) →
      let o := s.moveOverlap m f
      us 0 = s.setMover m { s.mover m with used := (s.mover m).used + 1, ir := s.instrAt m } →
      (f.paced = true → ∃ v, exec (.move m .ok ecc) s = .next v ∧ MoverOnly m [] s v ∧
        v.mover m = { s.mover m with used := (s.mover m).used + 1, ir := s.instrAt m, run := some ⟨f.count, o⟩ }) ∧
      (f.paced = false → ElementsMove m f o ecc n us →
        (n = f.count → MoveEnds m f o (us n) t → ∃ v, exec (.move m .ok ecc) s = .next v ∧ MoveEnds m f o (us n) v) ∧
        (∀ v c, n < f.count → (us n).moveElem m f o (eccAt ecc n) = (v, some c) →
          exec (.move m .ok ecc) s = .next (v.moverFault m c)))) ∧
    (∀ (r : MoveRun) (withdrawn : Nat), moveFields (s.mover m).ir = some f →
      (s.mover m).run = some r → s.mstate m = 1 →
      (s.reqLine f.req = false → exec (.pacedBurst m ecc withdrawn) s = .next s) ∧
      (s.reqLine f.req = true → ∀ (us : Nat → State) (t : State),
        let n := min r.left (256 / (f.ws / 8))
        us 0 = (if withdrawn = 0 then s else s.bump (Reg.MOV_WITHDRAW_count m) withdrawn) →
        ElementsMove m f r.overlap ecc n us →
        (n < r.left → ∃ v, exec (.pacedBurst m ecc withdrawn) s = .next v ∧ MoverOnly m [] (us n) v ∧
          v.mover m = { (us n).mover m with run := some { r with left := r.left - n } }) ∧
        (n = r.left → MoveEnds m f r.overlap (us n) t →
          ∃ v, exec (.pacedBurst m ecc withdrawn) s = .next v ∧ MoveEnds m f r.overlap (us n) v)))

/-- From R214, R215: the conversions of sample mode; one element of it, read, swapped, converted, swapped and written, a
word that could not be corrected being read as zero (R213); and
raw mode, whose holding register keeps what is left of the bit stream. What is written can be read back.
The cases that the rules leave open follow the model's choices (log entries 38, 57). -/
def Obligations.ElementsConvertAndPack : Prop :=
  (∀ ws v : Nat, ws = 16 ∨ ws = 24 ∨ ws = 32 →
    (BitVec.ofNat 48 (convElem ws 48 v)).toInt = (BitVec.ofNat ws v).toInt * 2 ^ (40 - ws) ∧
    (BitVec.ofNat 64 (convElem ws 64 v)).toInt = (BitVec.ofNat ws v).toInt * 2 ^ (40 - ws)) ∧
  (∀ ws v : Nat, convElem ws ws v = v) ∧
  (∀ v : Nat, (BitVec.ofNat 64 (convElem 48 64 v)).toInt = (BitVec.ofNat 48 v).toInt) ∧
  (∀ v : Nat, (BitVec.ofNat 48 (convElem 64 48 v)).toInt =
    min (2 ^ 47 - 1) (max (-(2 ^ 47)) (BitVec.ofNat 64 v).toInt)) ∧
  (∀ wd v : Nat, wd = 16 ∨ wd = 24 ∨ wd = 32 → ∃ q, Rounds (40 - wd) (BitVec.ofNat 48 v).toInt q ∧
    (BitVec.ofNat wd (convElem 48 wd v)).toInt = min (2 ^ (wd - 1) - 1) (max (-(2 ^ (wd - 1))) q)) ∧
  (∀ (s : State) (m : Nat) (f : MoveI) (e : CellEcc), m < 16 → f.sample = true →
    s.elemFault m f.src f.ws false = none →
    let r := (s.elemSeen m f.src f.ws).elemEcc m f.src e
    let u := r.1.arAdvance m f.src
    let v := if r.2 then 0 else s.elemGet m f.src f.ws
    (e = .ok → r = (s.elemSeen m f.src f.ws, false)) ∧ (e = .corrected → r.2 = false) ∧ (e = .allBad → r.2 = true) ∧
    (s.rd (Reg.MOV_ARCFG_space (arOf m f.src)) ≠ 0 → e = .primaryBad → r.2 = true) ∧
    (u.elemFault m f.dst f.wd true = none → s.moveElem m f false e =
      ((u.elemPut m f.dst f.wd (swapElem f.swapD f.wd
        (convElem f.ws f.wd (swapElem f.swapS f.ws v)))).arAdvance m f.dst, none))) ∧
  (∀ (s t : State) (m w : Nat) (f : MoveI), m < 16 → moveFields w = some f → f.sample = false →
    s.elemFault m f.src f.ws false = none → s.fill m < f.wd → (s.mover m).h.toNat < 2 ^ s.fill m →
    s.moveElem m f false .ok = (t, none) →
    let v := swapElem f.swapS f.ws (s.elemGet m f.src f.ws)
    let n := (s.fill m + f.ws) / f.wd
    t.fill m = (s.fill m + f.ws) % f.wd ∧
    (t.mover m).h.toNat = ((s.mover m).h.toNat + v * 2 ^ s.fill m) / 2 ^ (f.wd * n)) ∧
  (∀ (s : State) (m a w v : Nat), m < 16 → a < 8 → w % 8 = 0 →
    let sp := s.rd (Reg.MOV_ARCFG_space (arOf m a))
    (sp = 1 ∧ w = 48 ∧ (s.xTile (s.arAddr m a)).isSome = true ∨ sp = 2 ∧ w = 32 ∨ sp = 3) →
    (s.elemPut m a w v).elemGet m a w = v % 2 ^ w)

/-- From R211, R217, R218, R220: waits end with their event, or by their timeout while it has not come; movers start at
the entry and the lap that the write of MOV_CTL gives, stop and restart, and the writes from
outside reach inbox, lengths and program memory where the locks let them.
The cases that the rules leave open follow the model's choices (log entries 2, 38). -/
def Obligations.WaitsStartsAndWrites : Prop :=
  ∀ (s : State) (m : Nat) (who : Agent), m < 16 → who.wf = true →
    let i := (s.mover m).ir
    let x := s.mover m
    let stat := (Reg.MOV_STAT_pc m).off
    let ctl := (Reg.MOV_CTL_entry m).off
    let inb := (Reg.MOV_INBOX_inbox m).off
    let next := (s.rd (Reg.MOV_STAT_pc m) + 1) % 2048
    let awake (t : State) := t.mstate m = 1 ∧ t.rd (Reg.MOV_STAT_pc m) = next
    let locked := s.on Reg.COR_LOCK_locked = true ∧ s.systemMover m = true ∧ who ≠ .keeper
    let wrote (v : Word) (t : State) := t.on (Reg.MOV_CTL_start_lap m) = v.getLsbD 3 ∧
      t.rd (Reg.MOV_CTL_entry m) = bitsOf v.toNat 16 11
    let kind := bitsOf i 55 3
    let line := bitsOf i 48 7
    let mask := bitsOf i 0 16
    (s.mstate m = 2 → x.startWait = 0 →
      (kind = 0 → x.tick = true → ∃ t, exec (.waitSatisfied m) s = .next t ∧ awake t ∧ MoverOnly m [stat] s t ∧
        t.mover m = { x with tick := false, timedOut := false, used := 0 }) ∧
      (kind = 1 → s.reqLine line = true → ∃ t, exec (.waitSatisfied m) s = .next t ∧ awake t ∧
        MoverOnly m [stat] s t ∧ t.mover m = { x with timedOut := false, used := 0 }) ∧
      (kind = 2 → s.fab.tev.get false line = true → ∃ t, exec (.waitSatisfied m) s = .next t ∧ awake t ∧
        t.fab.tev.get false line = false ∧ t.mover m = { x with timedOut := false, used := 0 } ∧
        MoverOnly m [stat] { s with fab := { s.fab with tev := t.fab.tev } } t) ∧
      (kind = 3 → s.inbox m &&& mask ≠ 0 → ∃ t, exec (.waitSatisfied m) s = .next t ∧ awake t ∧
        t.inbox m = s.inbox m - (s.inbox m &&& mask) ∧ t.mover m = { x with timedOut := false, used := 0 } ∧
        MoverOnly m [stat, inb] s t) ∧
      (bitsOf i 16 16 ≠ 0 → bitsOf i 16 16 ≤ x.waited → s.waitMet m i = false →
        ∃ t, exec (.waitTimeout m) s = .next t ∧ awake t ∧
        t.mover m = { x with timedOut := true, used := 0 } ∧ MoverOnly m [stat] s t)) ∧
    (∀ v : Word, (s.mstate m = 0 ∨ s.mstate m = 3 →
      let started (w : Nat) : Mover := { x with ctr := [], h := 0, tick := false, timedOut := false, used := 0,
                                                waited := 0, run := none, badLen := [], startWait := w }
      let atLap := v.getLsbD 3
      let fresh (t : State) := t.rd (Reg.MOV_STAT_pc m) = t.rd (Reg.MOV_CTL_entry m) ∧ t.fill m = 0 ∧
        t.inbox m = 0 ∧ t.rd (Reg.MOV_STAT_fault m) = 0
      (¬locked → ∃ t, exec (.moverStart who m v) s = .next t ∧ fresh t ∧ wrote v t ∧ MoverOnly m [stat, inb, ctl] s t ∧
        t.mstate m = (if atLap then 2 else 1) ∧ t.mover m = started (if atLap then 1 else 0)) ∧
      (s.systemMover m = true → s.mstate m = 3 → 1 ≤ x.waited → s.keeperOk = true →
        ∃ t, exec (.systemMoverRestart m) s = .next t ∧ fresh t ∧ MoverOnly m [stat, inb] s t ∧
          t.mstate m = 1 ∧ t.mover m = started 0))) ∧
    (∀ v : Word, locked → exec (.moverStart who m v) s = .next s ∧ exec (.moverStop who m v) s = .next s) ∧
    (∀ v : Word, ¬locked → s.mstate m = 1 ∨ s.mstate m = 2 →
      (∃ t, exec (.moverStart who m v) s = .next t ∧ wrote v t ∧ t = { s with regs := t.regs } ∧ SameRegs [ctl] s t) ∧
      ∃ t, exec (.moverStop who m v) s = .next t ∧ t.mstate m = 0 ∧ t.fill m = 0 ∧ wrote v t ∧
        t.mover m = { x with run := none, startWait := 0, h := 0 } ∧ MoverOnly m [stat, ctl] s t) ∧
    (∀ v : Word, ¬locked → s.mstate m = 0 ∨ s.mstate m = 3 →
      ∃ t, exec (.moverStop who m v) s = .next t ∧ wrote v t ∧ t = { s with regs := t.regs } ∧ SameRegs [ctl] s t) ∧
    (x.startWait = 2 → ∃ t, exec (.moverStartAtLap m) s = .next t ∧ t.mstate m = 1 ∧
      t.mover m = { x with startWait := 0 } ∧ MoverOnly m [stat] s t) ∧
    (∀ v : Word, ∃ t, exec (.inboxWrite who m v) s = .next t ∧ t.inbox m = s.inbox m ||| v.toNat % 65536 ∧
      t = { s with regs := t.regs } ∧ SameRegs [inb] s t) ∧
    (∀ (off : Nat) (v : Word), off % 4 = 0 → off < 0x4000 → s.hostReaches = true → s.pstate ≠ 6 →
      ∃ t, exec (.programMemoryWrite .host off v) s = .next t ∧
      t = { s with resp := .ok 0, fab := { s.fab with pmem := t.fab.pmem } } ∧
      (off / 8 < s.rd Reg.MOV_LOCK_pmem_lim → t.fab = s.fab) ∧
      (s.rd Reg.MOV_LOCK_pmem_lim ≤ off / 8 →
        let old := s.fab.pmem.get 0 (off / 8)
        t.fab.pmem.get 0 (off / 8) =
          (if off % 8 = 0 then ((old >>> 32).setWidth 32 ++ v : BitVec (32 + 32)) else v ++ old.setWidth 32) ∧
        ∀ j, j ≠ off / 8 → t.fab.pmem.get 0 j = s.fab.pmem.get 0 j)) ∧
    (∀ (r : Nat) (v : Word), r < 8 → let len := v.toNat % 2 ^ 27
      (locked → exec (.moverLenWrite who m r v) s = .next s) ∧
      (¬locked → s.mstate m = 0 ∨ s.mstate m = 3 → ∃ t, exec (.moverLenWrite who m r v) s = .next t ∧
        t.rd (Reg.MOV_ARLEN_len (arOf m r)) = len ∧ (t.mover m).pend r = none ∧
        MoverOnly m [(Reg.MOV_ARLEN_len (arOf m r)).off] s t) ∧
      (¬locked → s.mstate m = 1 ∨ s.mstate m = 2 → ∃ t, exec (.moverLenWrite who m r v) s = .next t ∧
        MoverOnly m [] s t ∧
        (t.mover m).pend r = (if (s.arStep m r).natAbs < len then some len else x.pend r) ∧
        ((t.mover m).badLen.get false r = true ↔ ¬(s.arStep m r).natAbs < len)))

/-! ### Cellar and crossbar (chapter 11) -/

/-- From R223 to R226: the commands of CEL_ALLOC_CMD, each by an agent that R223 lets allocate the kind. An allocation takes the named run or the lowest free one, and a twin
that shares no bank with it, all of it cleared; a free takes it back; a resize grows or shrinks in place, or relocates a
delay line; a query reports; and each is refused with the reason of the rule.
The cases that the rules leave open follow the model's choices (log entry 25). -/
def Obligations.AllocationCommands : Prop :=
  ∀ (s : State) (who : Agent) (mirror hw ff : Bool), who.wf = true →
    let alc := Instr.allocate who mirror hw ff
    let rsz := Instr.resize who ff
    let kind := s.rd Reg.CEL_ALLOC_OWNER_kind
    let index := s.rd Reg.CEL_ALLOC_OWNER_index
    let count := s.rd Reg.CEL_ALLOC_REQ_count
    let used := s.usedRuns
    let held := s.allocHeld kind index
    let refuses (c : Instr) (r : Nat) := ∃ t, exec c s = .next t ∧ AllocRefused r s t
    let did (c : Instr) (p : State → Prop) := ∃ t, exec c s = .next t ∧ t.rd Reg.CEL_ALLOC_STATUS_state = 0 ∧
      t.rd Reg.CEL_ALLOC_STATUS_reason = 0 ∧ (t.reg Reg.CEL_EVENT_ev.off).getLsbD 0 = true ∧
      t.fab = { s.fab with allocs := t.fab.allocs } ∧ Noticed allocRegs { s with fab := t.fab } t ∧ p t
    let owns := agentKind who kind = true
    let asks := owns ∧ (hw = true → kind = 2 ∨ kind = 7)
    let busy (c : Instr) (cmd from_ : Nat) (p : State → Prop) := ∃ t, exec c s = .next t ∧
      t.rd Reg.CEL_ALLOC_STATUS_state = 1 ∧ t.fab.busy = some ⟨cmd, kind, index, from_⟩ ∧
      t = { s with regs := t.regs, fab := t.fab } ∧ SameRegs allocRegs s t ∧ p t
    let inUse := kind = 1 ∧ (s.delayNeed (lineObj index) ≠ 0 ∨ ∃ r ∈ s.fab.relocs, r.index = index) ∨
      kind = 2 ∧ (s.rackPlaced index = true ∨ s.tapNeed index ≠ 0)
    (s.fab.busy ≠ none → refuses alc 7 ∧ refuses (.free who) 7 ∧ refuses rsz 7 ∧
      refuses .query 7) ∧
    (s.fab.busy = none →
      (¬owns → refuses alc 5 ∧ refuses (.free who) 5 ∧ refuses rsz 5) ∧
      (owns → ¬asks → refuses alc 5) ∧
      (ownerOk kind index = false ∨ countOk kind count = false → (asks → refuses alc 8) ∧ (owns → refuses rsz 8)) ∧
      (owns → ownerOk kind index = false → refuses (.free who) 8) ∧
      (ownerOk kind index = false → refuses .query 8) ∧
      (ownerOk kind index = true → held = none → refuses .query 3 ∧ (owns → refuses (.free who) 3 ∧
        (countOk kind count = true → refuses rsz 3))) ∧
      (∀ a, ownerOk kind index = true → held = some a → a.first + a.count ≤ 24576 → a.twin.getD 0 < 32768 →
        did .query (fun t => t.fab = s.fab ∧ AllocShown a t)) ∧
      (∀ a, owns → ownerOk kind index = true → held = some a → (inUse → refuses (.free who) 4) ∧
        (¬inUse → did (.free who) (fun t => t.allocHeld kind index = none ∧
          ∀ x, x ∈ t.fab.allocs ↔ x ∈ s.fab.allocs ∧ ¬(x.kind = kind ∧ x.index = index)))) ∧
      (asks → ownerOk kind index = true → countOk kind count = true →
        (held ≠ none → refuses alc 2) ∧
        (held = none → ∀ r, s.placeRun ff mirror count = .inl r → refuses alc r ∧
          (r = 1 ∨ (r = 6 ∧ ff = false))) ∧
        (held = none → ∀ f tw, s.placeRun ff mirror count = .inr (f, tw) →
          runFree used f count = true ∧ (ff = true → ∀ p, p < f → runFree used p count = false) ∧
          (ff = false → f = s.rd Reg.CEL_ALLOC_REQ_first) ∧ (tw.isSome = mirror) ∧
          (∀ x, tw = some x → runFree used x count = true ∧ ∀ b ∈ banksOf f count, b ∉ banksOf x count) ∧
          busy alc 1 0 (fun t =>
            t.fab.allocs = s.fab.allocs ++ [⟨kind, index, f, count, tw, hw⟩] ∧
            AllocShown ⟨kind, index, f, count, tw, hw⟩ t ∧
            (∀ b, inRun f count b = true ∨ (∃ x, tw = some x ∧ inRun x count b = true) →
              t.fab.cellar.get 0 b = 0) ∧
            (∀ b, inRun f count b = false → (∀ x, tw = some x → inRun x count b = false) →
              t.fab.cellar.get 0 b = s.fab.cellar.get 0 b) ∧
            t.fab = { s.fab with allocs := t.fab.allocs, busy := t.fab.busy, cellar := t.fab.cellar }))) ∧
      (∀ a, held = some a → owns → ownerOk kind index = true → countOk kind count = true →
        (kind = 2 → s.rackPlaced index = true ∨ lineCap count < s.tapNeed index → refuses rsz 4) ∧
        (kind ≠ 1 → ¬(kind = 2 ∧ (s.rackPlaced index = true ∨ lineCap count < s.tapNeed index)) →
          let n := count - a.count
          let grows := runFree used (a.first + a.count) n = true ∧
            ∀ x, a.twin = some x → runFree ((a.first + a.count, n) :: used) (x + a.count) n = true
          (count ≤ a.count → did rsz (fun t =>
            t.allocHeld kind index = some { a with count := count } ∧
            ∀ k i, ¬(k = kind ∧ i = index) → t.allocHeld k i = s.allocHeld k i)) ∧
          (a.count < count → ¬grows → refuses rsz 1) ∧
          (a.count < count → grows → busy rsz 3 a.count (fun t =>
            t.allocHeld kind index = some { a with count := count } ∧
            (∀ k i, ¬(k = kind ∧ i = index) → t.allocHeld k i = s.allocHeld k i) ∧
            ∀ b, t.fab.cellar.get 0 b = (if inRun (a.first + a.count) n b = true ∨
              (∃ x, a.twin = some x ∧ inRun (x + a.count) n b = true) then 0 else s.fab.cellar.get 0 b)))) ∧
        (kind = 1 → lineCap count < s.delayNeed (lineObj index) → refuses rsz 4) ∧
        (kind = 1 → s.delayNeed (lineObj index) ≤ lineCap count → (∀ r ∈ s.fab.relocs, r.index ≠ index) →
          ∀ f tw, s.placeRun ff a.twin.isSome count = .inr (f, tw) → busy rsz 3 a.count (fun t =>
            t.fab.allocs = s.fab.allocs ∧
            t.fab.relocs = s.fab.relocs ++ [⟨1, index, f, count, tw, false, 0, false, 0⟩]))))

/-- From R222, R224 to R227, R230 to R233: a command completes when its shelves are cleared; a copied line is read at its new
run from the next boundary on; a bank changes its owner class at a handover; a piece that the path table permits is served
at its target, in the cellar to both copies of a mirrored allocation; one cut by its master's reset is completed and counted;
and every other is an error that its master takes, a host window's write a decode miss of BAR4; a bank that does not answer
is failed (R391).
The cases that the rules leave open follow the model's choices (log entries 2, 25, 38, 57, 62). -/
def Obligations.AllocationsCompleteAndPiecesAreServed : Prop :=
  (∀ (s : State) (b : AllocBusy), s.fab.busy = some b →
    let fin (t : State) := t.fab.busy = none ∧ t.rd Reg.CEL_ALLOC_STATUS_state = 0 ∧
      t.rd Reg.CEL_ALLOC_STATUS_reason = 0 ∧ (t.reg Reg.CEL_EVENT_ev.off).getLsbD 0 = true ∧
      Noticed allocRegs { s with fab := t.fab } t
    (¬(b.cmd = 3 ∧ b.kind = 1 ∧ s.run = false) → ∃ t, exec .allocComplete s = .next t ∧ fin t ∧
      t.fab = { s.fab with busy := none }) ∧
    (∀ r a, b.cmd = 3 → b.kind = 1 → s.run = false → s.fab.relocs.find? (fun x => x.index == b.index) = some r →
      s.allocHeld 1 b.index = some a → ∃ t, exec .allocComplete s = .next t ∧ fin t ∧
        t.allocHeld 1 b.index = some { a with first := r.first, count := r.count, twin := r.twin } ∧
        ∀ x ∈ t.fab.relocs, x.index ≠ b.index)) ∧
  (∀ (s : State) (index : Nat) (r : Reloc) (a : Alloc),
    s.fab.relocs.find? (fun x => x.kind == 1 && x.index == index && x.copied && decide (x.lap < s.lap)) = some r →
    s.allocHeld 1 index = some a → ∃ t, exec (.relocationSwitch 1 index) s = .next t ∧
      t.allocHeld 1 index = some { a with first := r.first, count := r.count, twin := r.twin } ∧
      (∀ x ∈ t.fab.relocs, x.index ≠ index) ∧ (∀ k i, ¬(k = 1 ∧ i = index) → t.allocHeld k i = s.allocHeld k i) ∧
      t.fab = { s.fab with allocs := t.fab.allocs, relocs := t.fab.relocs } ∧
      t = { s with regs := t.regs, fab := t.fab } ∧ SameRegs [Reg.CEL_STATUS_free.off] s t) ∧
  (∀ (s : State) (n : Nat) (v : Word), n < 68 →
    let c := v.toNat % 4
    let cur := s.rd (Reg.CEL_PBANK_owner n)
    let open' := c ≠ 3 ∧ c ≠ cur ∧ cur ≠ 2 ∧ (cur = 0 → s.bankIdle n = true)
    (¬open' → exec (.bankOwnerWrite n v) s = .next s) ∧
    (open' → ∃ t, exec (.bankOwnerWrite n v) s = .next t ∧
      t = { s with fab := { s.fab with handover := t.fab.handover } } ∧
      t.fab.handover = s.fab.handover.filter (fun h => h.bank != n) ++ [⟨n, c, s.lap⟩]) ∧
    (∀ h, s.fab.handover.find? (fun h => h.bank == n && (!s.run || decide (h.lap < s.lap))) = some h → ∃ t, exec (.bankHandover n) s = .next t ∧
      t.rd (Reg.CEL_PBANK_owner n) = h.owner % 4 ∧ (t.reg Reg.CEL_EVENT_ev.off).getLsbD 4 = true ∧
      (∀ x ∈ t.fab.handover, x.bank ≠ n) ∧
      (let b := s.rd (Reg.CEL_PBANK_logical n)
       ∀ a, t.fab.cellar.get 0 a =
         (if h.owner = 0 ∧ b < 64 ∧ inRun (384 * b) 384 a = true then 0 else s.fab.cellar.get 0 a)) ∧
      t.fab = { s.fab with handover := t.fab.handover, cellar := t.fab.cellar } ∧
      Noticed [(Reg.CEL_PBANK_owner n).off, Reg.CEL_STATUS_free.off, Reg.CEL_EVENT_ev.off]
        { s with fab := t.fab } t)) ∧
  (∀ (s : State) (master target addr : Nat) (w : Bool) (data : List Byte) (waited : Bool) (ecc : List (Nat × CellEcc))
      (cut : Option Nat), (Instr.cellarPiece master target addr w data waited ecc cut).wf = true →
    let c := Instr.cellarPiece master target addr w data waited ecc cut
    let n := data.length
    let conf := (if target = 0 then confIndex master else none).toList.map (fun i => (Reg.XBR_CONF_count i).off)
    let err := conf ++ [Reg.XBR_EVENT_ev.off, Reg.XBR_ERR_INFO_master.off, Reg.XBR_ERR_ADDR_addr.off,
                        Reg.XBR_ERR_COUNT_count.off]
    let there := (pathOf master target).isSome = true ∧ (targetSize target).any (fun k => decide (k ≤ addr)) = false ∧
      (target = 8 → s.decodes addr = true)
    let ok := (pathOf master target).any (fun p => if w then p.2 else p.1) = true ∧ s.targetOk master target addr n w = true
    let window := master = 26 ∧ target = 0
    let fault := target = 0 ∧ 10 ≤ master ∧ master ≤ 25 ∧ s.mstate (master - 10) = 1 ∧
      s.cellarFault (master - 10) addr n w = some faultAccess
    let refused (t : State) (regs : List Nat) := t.resp = .busErr ∧ TakesBusError master regs { s with resp := .busErr } t
    (there → ok → target = 0 → w = true → cut = none → ∃ t, exec c s = .next t ∧
      t = { s with regs := t.regs, fab := { s.fab with cellar := t.fab.cellar }, resp := .ok 0 } ∧ SameRegs conf s t ∧
      (∀ i, confIndex master = some i → t.rd (Reg.XBR_CONF_count i) =
        (if waited then min (s.rd (Reg.XBR_CONF_count i) + 1) (2 ^ 32 - 1) else s.rd (Reg.XBR_CONF_count i))) ∧
      (∀ b, ¬(addr ≤ b ∧ b < addr + n) → s.inTwin b = false → t.fab.cellar.get 0 b = s.fab.cellar.get 0 b) ∧
      (∀ k, k < n → s.inTwin (addr + k) = false → t.fab.cellar.get 0 (addr + k) = data.getD k 0) ∧
      (∀ k a x, k < n → a ∈ s.fab.allocs → a.twin = some x → inRun a.first a.count (addr + k) = true →
        let copy := x * 4096 + (addr + k - a.first * 4096)
        (∀ b ∈ s.fab.allocs, b ≠ a → ∀ y, b.twin = some y → inRun y b.count copy = false) →
        t.fab.cellar.get 0 copy = data.getD k 0)) ∧
    (there → ok → target = 0 → w = false → cut = none → ecc = [] → ∃ t, exec c s = .next t ∧
      t = { s with regs := t.regs, resp := t.resp, free := t.free } ∧ SameRegs conf s t ∧
      ((∀ k, k < n → s.engineByte (addr + k) = false) → t.resp = .bytes (getBytes s.fab.cellar addr n))) ∧
    (there → ok → target = 0 → w = false → cut = none → ecc = [(0, .allBad)] → ∃ t d, exec c s = .next t ∧
      t.rd Reg.CEL_DBE_COUNT_count = min (s.rd Reg.CEL_DBE_COUNT_count + 1) (2 ^ 32 - 1) ∧
      (t.reg Reg.CEL_EVENT_ev.off).getLsbD 2 = true ∧ (s.on Reg.CEL_DBE_INFO_valid = false →
        t.rd Reg.CEL_DBE_INFO_shelf = addr / 4096 ∧ t.rd Reg.CEL_DBE_INFO_master = master) ∧ t.fab = s.fab ∧
      t.resp = .marked d ∧ d.length = n ∧ ∀ k, k < n → (addr + k) / 8 = addr / 8 → d.getD k 1 = 0) ∧
    (there → ok → 5 ≤ target → target ≤ 7 → cut = none →
      let ram (u : State) := if target = 5 then u.fab.netBuf else if target = 6 then u.fab.runnerRam else u.fab.keeperRam
      (w = false → exec c s = .next { s with resp := .bytes (getBytes (ram s) addr n) }) ∧
      (w = true → ∃ t, exec c s = .next t ∧ getBytes (ram t) addr n = data ∧
        (∀ b, ¬(addr ≤ b ∧ b < addr + n) → (ram t).get 0 b = (ram s).get 0 b) ∧
        t = { s with resp := .ok 0, fab := t.fab } ∧ t.fab = { s.fab with
          netBuf := if target = 5 then t.fab.netBuf else s.fab.netBuf
          runnerRam := if target = 6 then t.fab.runnerRam else s.fab.runnerRam
          keeperRam := if target = 7 then t.fab.keeperRam else s.fab.keeperRam })) ∧
    (there → ok → target = 8 → cut = none →
      let v := BitVec.ofNat 32 (ofLe data)
      (w = true → exec c s = .next
        (if isHi true addr then pairHiWrite (agentOf master) addr v s else registerWrite (agentOf master) addr v s)) ∧
      (w = false → ∃ t x, exec c s = .next t ∧ t.resp = .bytes (leBytes n x) ∧
        x = (if isHi false addr then s.hiLatch.get 0 addr else s.shown addr).toNat ∧
        t = { s with resp := t.resp, hiLatch := t.hiLatch })) ∧
    (there → ok → cut.isSome = true → ∃ t, exec c s = .next t ∧ (t.reg Reg.XBR_EVENT_ev.off).getLsbD 3 = true ∧
      (target ≠ 8 → t.rd Reg.XBR_RESET_BURSTS_count = min (s.rd Reg.XBR_RESET_BURSTS_count + 1) (2 ^ 32 - 1) ∧
        t.resp = s.resp) ∧
      (∀ k, cut = some k → target = 5 → w = true → 16 * k ≤ addr % 16 →
        t.fab = s.fab)) ∧
    (¬there → ¬window → ∃ t, exec c s = .next t ∧ XbrError 1 master (missCode master target) addr w s t ∧ t.fab.cellar = s.fab.cellar ∧
      (s.decodePolicy master = true → Noticed err { s with resp := t.resp } t ∧
        t.resp = (if w then .ok 0 else .bytes (List.replicate n 0))) ∧
      (s.decodePolicy master = false → refused t err)) ∧
    (there → ¬ok → ¬fault → ¬(window ∧ w = true) → ∃ t, exec c s = .next t ∧ XbrError 2 master target addr w s t ∧
      t.fab.cellar = s.fab.cellar ∧ refused t err) ∧
    (¬there ∨ (¬ok ∧ w = true) → window →
      (s.windowOffset addr = none → ∃ t, exec c s = .next t ∧ t = { s with regs := t.regs } ∧ SameRegs conf s t) ∧
      ∀ off, s.windowOffset addr = some off → ∃ t, exec c s = .next t ∧
        t.resp = (if s.on Reg.HST_CFG_pol_bar4 then .ok 0 else .unsupported) ∧
        t.rd Reg.HST_MISS_COUNT_count = min (s.rd Reg.HST_MISS_COUNT_count + 1) (2 ^ 32 - 1) ∧
        (s.on Reg.HST_MISS_INFO_valid = false → t.rd Reg.HST_MISS_INFO_bar = 2 ∧
          t.rd Reg.HST_MISS_INFO_write = b2n w ∧ t.rd Reg.HST_MISS_OFF_offset = off % 2 ^ 28)) ∧
    (there → ¬ok → fault → ∃ t, exec c s = .next t ∧ t.mstate (master - 10) = 3 ∧
      t.rd (Reg.MOV_STAT_fault (master - 10)) = 3 ∧ t.fab.cellar = s.fab.cellar)) ∧
  (∀ (s : State) (master target addr : Nat) (w : Bool), master < 36 → target < 12 →
    ∃ t, exec (.crossbarTimeout master target addr w) s = .next t ∧ XbrError 0 master target addr w s t ∧
      t.resp = .busErr ∧ TakesBusError master [Reg.XBR_EVENT_ev.off, Reg.XBR_ERR_INFO_master.off,
        Reg.XBR_ERR_ADDR_addr.off, Reg.XBR_ERR_COUNT_count.off] { s.bankTimeout target addr with resp := .busErr } t ∧
      (target ≠ 0 → s.bankTimeout target addr = s) ∧
      ∀ n, target = 0 → s.physBank (addr / 0x180000) = some n → n ∈ t.health.failedBanks)

/-! ### Audio ports (chapter 12) -/

/-- From R244 to R247, R254: a port starts, acquires, enables data, unmutes, stops, stops its clocks and is lost, each in the
states in which the command acts.
The cases that the rules leave open follow the model's choices (log entries 2, 29). -/
def Obligations.PortsStartStopAndAreLost : Prop :=
  ∀ (s : State) (p : Nat), p < 32 →
    let x := s.aport p
    let st := s.pst p
    let pstat := (Reg.APT_PSTAT_state p).off
    let becomes (c : Instr) (v : Nat) (y : Port) := ∃ t, exec c s = .next t ∧ t.pst p = v ∧ t.aport p = y ∧
      PortOnly p [pstat] s t
    (st = 0 ∨ 5 ≤ st → s.portCheck p = 0 → ∃ t, exec (.portStart p) s = .next t ∧ Acquires p (s.fmtReg p) s t) ∧
    (st = 0 ∨ 5 ≤ st → s.portCheck p ≠ 0 → ∃ t, exec (.portStart p) s = .next t ∧
      t.rd (Reg.APT_PSTAT_reason p) = s.portCheck p ∧ (t.reg Reg.APT_EVENT_ev.off).getLsbD 8 = true ∧
      t.pst p = st ∧ Noticed [pstat, Reg.APT_EVENT_ev.off] s t) ∧
    (1 ≤ st → st ≤ 3 → exec (.portStart p) s = .next s) ∧
    (st = 4 → becomes (.portStart p) 4 { x with heldStart := true, heldStop := false }) ∧
    (st = 7 → ∃ t, exec (.portAcquire p) s = .next t ∧ Acquires p x.fmt s t) ∧
    (st ≠ 7 → exec (.portAcquire p) s = .next s) ∧
    (st = 6 ∨ st = 7 → s.on (Reg.APT_CTL_auto_acq p) = true →
      ∃ t, exec (.portClockReturn p) s = .next t ∧ Acquires p x.fmt s t) ∧
    (∀ c k, c = .portStop p ∧ k = false ∨ c = .portStopClocks p ∧ k = ownMaster p x.fmt →
      (st = 0 → exec c s = .next s) ∧
      (st = 1 ∨ st = 2 → becomes c 5 { x.noData with chans := [], heldStop := k, resume := false }) ∧
      (st = 3 → becomes c 4 { x with stopAt := s.lap + 2, heldStop := k, resume := false, heldStart := false }) ∧
      (st = 4 → becomes c 4 { x with heldStart := false, heldStop := x.heldStop || k }) ∧
      (st = 5 → becomes c 5 { x with heldStop := x.heldStop || k }) ∧
      (st = 6 ∨ st = 7 → becomes c (if ownMaster p x.fmt then 5 else 0) { x.noData with chans := [] })) ∧
    (st = 4 → x.stopAt + s.fLap ≤ s.lap + 1 →
      (x.heldStop = true → becomes (.stopFadeEnd p) 0 { x.noData with heldStop := false, clocks := false }) ∧
      (x.heldStop = false → x.heldStart = false → becomes (.stopFadeEnd p) 5 x.noData) ∧
      (x.heldStop = false → x.heldStart = true → s.portCheck p = 0 → ∃ t, exec (.stopFadeEnd p) s = .next t ∧ t.pst p = 1 ∧
        (t.aport p).blocks = 255 ∧ (t.aport p).okLaps = 255 ∧ (t.aport p).armed = true ∧ (t.aport p).fmt = s.fmtReg p ∧
        (t.aport p).clocks = s.portMaster p (s.fmtReg p) ∧ PortOnly p [pstat] s t) ∧
      (x.heldStop = false → x.heldStart = true → s.portCheck p ≠ 0 → ∃ t, exec (.stopFadeEnd p) s = .next t ∧ t.pst p = 5 ∧
        t.rd (Reg.APT_PSTAT_reason p) = s.portCheck p ∧ (t.reg Reg.APT_EVENT_ev.off).getLsbD 8 = true ∧
        t.aport p = { x.noData with heldStart := false } ∧ ∀ q, q ≠ p → t.aport q = s.aport q)) ∧
    (st = 1 → s.run = true → s.pstate = 2 → s.syn.change = none → s.blocksMet p = true →
      ∃ t, exec (.portDataEnable p) s = .next t ∧ t.pst p = 2 ∧ (t.reg Reg.APT_EVENT_ev.off).getLsbD 4 = true ∧
        (t.aport p).inp.data = s.inUsed p ∧ (t.aport p).out.data = s.outUsed p ∧ (t.aport p).chans = [] ∧
        t.aport p = { x with inp := (t.aport p).inp, out := (t.aport p).out, chans := [] } ∧
        (∀ q, q ≠ p → t.aport q = s.aport q) ∧ Noticed [pstat, Reg.APT_EVENT_ev.off]
          { s with port := { s.port with ports := t.port.ports } } t) ∧
    (∀ ch c v, x.chans.get .closed ch = .search c → s.msSamples (s.rd Reg.APT_GCFG_unmute_to) ≤ c → v ≠ 0 →
      sgn v = sgn (x.prev.get 0 ch) → ch < 64 → ∃ t, exec (.unmuteTimeout p ch v) s = .next t ∧
        (t.aport p).chans.get .closed ch = .fadeIn 0 ∧
        (∀ j, j ≠ ch → (t.aport p).chans.get .closed j = x.chans.get .closed j) ∧
        t.aport p = { x with chans := (t.aport p).chans } ∧ PortOnly p [] s t) ∧
    (∃ t, exec (.portClockStop p) s = .next t ∧
      (∀ q, q ∈ s.clockOf p → s.portMaster q (s.aport q).fmt = false →
        (2 ≤ s.pst q → s.pst q ≤ 5 → t.pst q = 6 ∧ (t.aport q).inp.data = false ∧ (t.aport q).out.data = false ∧
          (t.aport q).heldStart = false ∧ (t.aport q).heldStop = false ∧ (t.reg Reg.APT_EVENT_ev.off).getLsbD 0 = true) ∧
        (s.pst q = 0 ∨ 6 ≤ s.pst q → t.pst q = s.pst q ∧ t.aport q = s.aport q) ∧
        (s.pst q = 1 → t.pst q = 1 ∧ t.aport q = { s.aport q with okLaps := 0, blocks := 0, armed := false })) ∧
      (∀ q, q ∉ s.clockOf p ∨ s.portMaster q (s.aport q).fmt = true → t.aport q = s.aport q ∧ (q < 32 → t.pst q = s.pst q)) ∧
      Noticed ((List.range 32).map (fun q => (Reg.APT_PSTAT_state q).off) ++ [Reg.APT_EVENT_ev.off])
        { s with port := { s.port with ports := t.port.ports } } t)

/-- From R240 to R244: a slave side takes the count that puts its phase in 0.25 to 1.25 sample periods until its data is
enabled, and then counts frame by frame, slipping one count at a lap's first frame whose phase has left 0 to 1.5; a
master side starts its frames at their nominal instants; the frame of a start too far from the last one is discarded, and
its count has none.
The cases that the rules leave open follow the model's choices (log entries 29, 53). -/
def Obligations.FramesTakeTheirCounts : Prop :=
  ∀ (s : State) (p : Nat) (out : Bool) (time : Int), p < 32 →
    let x := s.aport p
    let d := x.side out
    let slave := s.portMaster p x.fmt = false
    let u (r : State × Option Int) := (r.1.aport p).side out
    let regs := [(Reg.APT_PHASE_ph_in p).off, (Reg.APT_SLIP_count p).off, (Reg.APT_GLITCH_count p).off,
                 Reg.APT_EVENT_ev.off]
    let r := s.assign p out time
    let kept (m : Int) := r.2 = some m ∧ (u r).count = some (m + 1)
    let slipped := r.1.rd (Reg.APT_SLIP_count p) = min (s.rd (Reg.APT_SLIP_count p) + 1) (2 ^ 32 - 1) ∧
      (r.1.reg Reg.APT_EVENT_ev.off).getLsbD 3 = true
    let phi (m : Int) := s.phaseOf out p m time
    (s.ts ≤ 4 * phi (s.acquireCount out p time) ∧ 4 * phi (s.acquireCount out p time) < 5 * s.ts) ∧
    (¬slave → kept (if out then time / s.ts - 1 else time / s.ts + portDin p)) ∧
    (slave → d.data = false → kept (s.acquireCount out p time)) ∧
    (∀ m, slave → d.data = true → d.count = some m →
      (InPhase (phi m) s.ts ∨ s.lapFirst d m = false → kept m ∧
        r.1.rd (Reg.APT_SLIP_count p) = s.rd (Reg.APT_SLIP_count p)) ∧
      (s.lapFirst d m = true → (d.since : Int) ≤ m / s.nLap → ¬InPhase (phi m) s.ts → slipped ∧
        (out = true → kept (if phi m < 0 then m - 1 else m + 1)) ∧
        (out = false → phi m < 0 → kept (m + 1)) ∧
        (out = false → 0 ≤ phi m → r.2 = none ∧ (u r).count = some m))) ∧
    (∀ q, q ≠ p → r.1.aport q = s.aport q) ∧
    Noticed regs { s with port := { s.port with ports := r.1.port.ports } } r.1 ∧
    (∀ l, d.last = some l → slave → (s.glitchTol : Int) < ((time - l - s.ts).natAbs : Int) →
      let g := s.frameStart p out time
      g.2 = none ∧ (u g).last = some time ∧
      (u g).count = (if d.data then d.count.map (· + 1) else d.count) ∧
      g.1.rd (Reg.APT_GLITCH_count p) = min (s.rd (Reg.APT_GLITCH_count p) + 1) (2 ^ 32 - 1) ∧
      (g.1.reg Reg.APT_EVENT_ev.off).getLsbD 1 = true)

/-- From R237, R240, R249 to R252: the edge of FS that the format names opens an input frame, whose words are the first bits of
their slots, most significant first, and are stored left-justified under the frame's count; an output frame carries the words
stored for its count or zeros; receivers gather channel status blocks, which a wrong check value discards, and the one that
APT_AES_REF names feeds REF3.
The cases that the rules leave open follow the model's choices (log entries 4, 29, 30). -/
def Obligations.FramesPassThroughTheFifos : Prop :=
  ∀ (s : State) (time : Int),
    (∀ (fmt : Word) (bits : List Bool) (c j : Nat), j < fmtWordW fmt → (slotWord fmt bits c).getLsbD j =
      bits.getD (fmtDelay fmt + c * fmtSlotW fmt + (fmtWordW fmt - 1 - j)) false) ∧
    (∀ (fmt : Word) (words : List Word) (c i : Nat), c < words.length → i < fmtSlotW fmt →
      (frameBits fmt words).getD (c * fmtSlotW fmt + i) false =
        (decide (i < fmtWordW fmt) && (words.getD c 0).getLsbD (fmtWordW fmt - 1 - i))) ∧
    (∀ (p : Nat) (e : FsEdge) (bits : List Bool), p < 16 → s.portFollows p = true →
      (s.inUsed p = true → opensFrame (s.aport p).fmt e = false → exec (.tdmFrameIn p time e bits) s = .next s) ∧
      (s.inUsed p = true → opensFrame (s.aport p).fmt e = true →
        let r := s.frameStart p false time
        ∃ t, exec (.tdmFrameIn p time e bits) s = .next t ∧ (r.2 = none → t = r.1) ∧
          ∀ m, r.2 = some m → 0 ≤ m → t.fifoHas false p m = true ∧
            (∀ c, c < 32 → t.fifoGet false p m c =
              if c < s.portChans p then leftJust (s.portWord p) (slotWord (s.aport p).fmt bits c) else 0) ∧
            (∀ k, (∀ c, c < 32 → k ≠ fifoAt false p m c) → t.port.fifo.get 0 k = s.port.fifo.get 0 k) ∧
            t = { r.1 with port := { r.1.port with fifo := t.port.fifo, frames := t.port.frames } }) ∧
      (s.outUsed p = true →
        let r := s.outStart p time
        ∃ t, exec (.tdmFrameOut p time) s = .next t ∧ (r.2 = none → t = r.1) ∧
          ∀ m, r.2 = some m → t.outs = r.1.outs ++ [.tdm p m (r.1.tdmWire p m)] ∧
            t.aport p = { r.1.aport p with carry := (frameBits (s.aport p).fmt (r.1.outWords p m)).getLastD false } ∧
            (∀ q, q ≠ p → t.aport q = r.1.aport q) ∧
            t = { r.1 with outs := t.outs, port := { r.1.port with ports := t.port.ports } })) ∧
    (∀ (p : Nat), p < 32 → (24 ≤ p → ∃ t, exec (.csLoad p) s = .next t ∧ PortOnly p [] s t ∧
        t.aport p = { s.aport p with csLoad := true }) ∧ (p < 24 → exec (.csLoad p) s = .next s)) ∧
    (∀ r : Nat, r < 8 → s.portFollows (24 + r) = true →
      let p := 24 + r
      let a := s.outStart p time
      ∃ t, exec (.aes3FrameOut r time) s = .next t ∧ (a.2 = none → t = a.1) ∧
        ∀ m, a.2 = some m → t.outs = a.1.outs ++ [.aes3 r m (t.txSub r m 0) (t.txSub r m 1)] ∧
          (let y := a.1.aport p
           t.aport p = if m % 192 = 0 ∧ y.csLoad = true then { y with csUse := y.csStage, csLoad := false } else y) ∧
          t = { a.1 with outs := t.outs, port := { a.1.port with ports := t.port.ports } } ∧
          ∀ ch, ch < 2 → (t.txSub r m ch).data =
            (if t.fifoHas true p m then (t.fifoGet true p m ch >>> 8).setWidth 24 else 0)) ∧
    (∀ (r ch frac : Nat) (sub : SubFrame), r < 8 → ch < 2 → s.portFollows (16 + r) = false →
      exec (.aes3SubframeIn r ch time frac sub) s = .next (if ch = 0 then s.aesEdge r time frac else s)) ∧
    (∀ (r ch frac : Nat) (sub : SubFrame), r < 8 → ch < 2 → s.portFollows (16 + r) = true →
      let p := 16 + r
      let a := if ch = 0 then s.frameStart p false time else (s, (s.aport p).inp.frame)
      let fmt := (s.aport p).fmt
      let b := s.csOf r ch
      let edge := ch = 0 ∧ r = s.rd Reg.APT_AES_REF_sel
      ∃ t u, exec (.aes3SubframeIn r ch time frac sub) s = .next u ∧ (¬edge → u = t) ∧
        (edge → u = t.slotEdge 3 (time - (s.lap : Int) * 10240).toNat frac) ∧ (t.aport p).inp.frame = a.2 ∧
        (∀ m, a.2 = some m → sub.ok = true → t.fifoGet false p m ch =
          if fmtField fmt 20 2 = 1 ∧ sub.v = true then (0 : Word)
          else ((if s.portWord p = 20 then sub.data &&& 0xFFFFF0#24 else sub.data).setWidth 32 <<< 8 : Word)) ∧
        (∀ m, a.2 = some m → sub.ok = false → t.fifoGet false p m ch = s.fifoGet false p (m - 1) ch) ∧
        (sub.ok = false → t.rd (Reg.APT_AESERR_sample r) = min (s.rd (Reg.APT_AESERR_sample r) + 1) 65535 ∧
          (t.reg Reg.APT_EVENT_ev.off).getLsbD 7 = true) ∧
        (∀ k, (∀ m, a.2 = some m → ∀ c, c < 2 → k ≠ fifoAt false p m c) →
          t.port.fifo.get 0 k = s.port.fifo.get 0 k) ∧
        (ch = 0 → sub.z = true → (t.csOf r 0).bits = some [sub.c] ∧ (t.csOf r 1).bits = some [] ∧
          t.rd (Reg.APT_PSTAT_zsync p) = 1) ∧
        (∀ l, ¬(ch = 0 ∧ sub.z = true) → b.bits = some l →
          let block := bytesOf (l ++ [sub.c]) 24
          let good := ¬((block.headD 0).getLsbD 0 = true ∧ crcc (block.take 23) ≠ block.getD 23 0)
          (l.length ≤ 192 → (t.csOf r ch).bits = some (l ++ [sub.c])) ∧
          (l.length ≠ 191 → (t.csOf r ch).latched = b.latched) ∧
          (l.length = 191 → good → (t.csOf r ch).latched = block ∧ t.rd (Reg.APT_PSTAT_cs_valid p) = 1) ∧
          (l.length = 191 → ¬good → (t.csOf r ch).latched = b.latched ∧
            t.rd (Reg.APT_AESERR_crc r) = min (s.rd (Reg.APT_AESERR_crc r) + 1) 65535 ∧
            (t.reg Reg.APT_EVENT_ev.off).getLsbD 5 = true)) ∧
        t = { s with regs := t.regs, host := t.host, outs := t.outs, port := t.port })

/-! ### Network ports and media streams (chapter 13) -/

/-- From R261, R262, R266 to R269, R273: a context is enabled where nothing refuses it, with an aligned first packet and a
buffer of its own; disabled with a fade or at once; its offset and length change when its gain has reached 0 and its
reads wrap; and it reports its loss and that of a path.
The cases that the rules leave open follow the model's choices (log entries 2, 33, 53). -/
def Obligations.StreamContextsAreCommanded : Prop :=
  (∀ s : State,
    let c := s.selCtx
    let st := s.cst c
    let x := s.ctx c
    let len := 64 * s.cr c Reg.STM_DRX_len64
    let d := s.cr c Reg.STM_DRX_d_rx
    let dropped (t : State) := t.cst c = 0 ∧ t.allocHeld 3 c = none ∧
      t.ctx c = { Ctx.reset with csStage := x.csStage, csUse := x.csUse }
    let stays (t : State) := t = { s with regs := t.regs, fab := t.fab, net := t.net } ∧
      SameRegs [Reg.CEL_STATUS_free.off] s t ∧ ∀ j, j ≠ c → t.ctx j = s.ctx j
    (st ≠ 0 → exec .streamEnable s = .next s) ∧
    (st = 0 → s.enableReason c ≠ 0 → ∃ t, exec .streamEnable s = .next t ∧ t.cst c = 0 ∧
      t.cr c Reg.STM_STATUS_reason = s.enableReason c ∧ t.ctx c = x ∧ CtxEvent c 1 s t ∧ CtxOnly c s t) ∧
    (st = 0 → s.enableReason c = 0 → ∃ u t,
      s.engineAlloc 3 c (s.cShelves c len) (s.cr c Reg.STM_CFG_mirror == 1) = some u ∧
      exec .streamEnable s = .next t ∧ t.cst c = 1 ∧ CtxEvent c 0 u t ∧ CtxOnly c u t ∧
      t.cr c Reg.STM_STATUS_k = 0 ∧ (t.ctx c).k = 0 ∧ (t.ctx c).here = [] ∧ (t.ctx c).len = len ∧
      (t.ctx c).dRx = d ∧ (t.ctx c).mRead = s.nextRead ∧ (t.ctx c).m0 % s.cP c = 0 ∧
      ((s.lap : Int) + 1) * s.nLap ≤ (t.ctx c).m0 ∧ (t.ctx c).m0 < ((s.lap : Int) + 1) * s.nLap + s.cP c ∧
      (t.ctx c).seq = ((t.ctx c).m0 % 65536).toNat) ∧
    (st = 0 ∨ st = 6 → exec .streamDisable s = .next s) ∧
    (c < 512 → st ≠ 0 → st ≠ 6 → ∃ t, exec .streamDisable s = .next t ∧ stays t ∧
      (st = 5 ∨ x.k = 0 → dropped t) ∧
      (st ≠ 5 → x.k ≠ 0 → t.cst c = 6 ∧ t.ctx c = { x with newD := some x.dRx, newLen := none } ∧ t.fab = s.fab) ∧
      ∀ p g, p < 2 → g ∈ (t.nport p).groups → g ∈ (s.nport p).groups ∧
        ∃ j, j < 512 ∧ t.cst j ≠ 0 ∧ t.cst j ≠ 6 ∧ t.cPath j p = true ∧ t.cDst j p = g) ∧
    (512 ≤ c → st ≠ 0 → st ≠ 6 → ∃ t, exec .streamDisable s = .next t ∧ stays t ∧
      (st = 5 ∨ s.run = false → dropped t) ∧
      (st ≠ 5 → s.run = true → t.cst c = 6 ∧ t.ctx c = { x with stopAt := s.lap + 2 } ∧ t.fab = s.fab)) ∧
    (512 ≤ c ∨ st = 0 ∨ 5 ≤ st → exec .streamApplyDrxLen s = .next s) ∧
    (c < 512 → 1 ≤ st → st ≤ 4 →
      let taken (y : Ctx) := y = { x with newD := if x.newD = none ∧ d = x.dRx then none else some d,
                                          newLen := if x.newLen = none ∧ len = x.len then none else some len }
      let have_ := ((s.allocHeld 3 c).map (·.count)).getD 0
      let grown := (s.freeAlloc 3 c).engineAlloc 3 c (s.cShelves c (max len x.len)) (s.cr c Reg.STM_CFG_mirror == 1)
      (s.drxOk c d len = false ∨ (have_ < s.cShelves c (max len x.len) ∧ grown = none) →
        ∃ t, exec .streamApplyDrxLen s = .next t ∧ CtxEvent c 1 s t ∧ CtxOnly c s t ∧ t.ctx c = x) ∧
      (s.drxOk c d len = true → s.cShelves c (max len x.len) ≤ have_ →
        ∃ t, exec .streamApplyDrxLen s = .next t ∧ taken (t.ctx c) ∧ CtxOnly c s t) ∧
      (∀ u, s.drxOk c d len = true → have_ < s.cShelves c (max len x.len) → grown = some u →
        ∃ t, exec .streamApplyDrxLen s = .next t ∧ taken (t.ctx c) ∧ CtxOnly c u t)) ∧
    (c < 512 → exec .streamCsLoad s = .next s) ∧
    (512 ≤ c → ∃ t, exec .streamCsLoad s = .next t ∧ t.ctx c = { x with csLoad := true } ∧ CtxOnly c s t)) ∧
  (∀ (s : State) (c : Nat), c < 512 →
    let x := s.ctx c
    (∀ d, x.newD = some d → x.force = true → x.k = 0 → ∃ t, exec (.drxTakeEffect c) s = .next t ∧
      (s.cst c ≠ 6 → t.ctx c = { x with dRx := d, newD := none, force := false } ∧ CtxOnly c s t) ∧
      (s.cst c = 6 → t.cst c = 0 ∧ t.allocHeld 3 c = none ∧
        t.ctx c = { Ctx.reset with csStage := x.csStage, csUse := x.csUse })) ∧
    (x.newD = none ∨ x.force = false ∨ x.k ≠ 0 → exec (.drxTakeEffect c) s = .next s) ∧
    (∀ len, x.newLen = some len → x.reads ≠ 0 → x.reads = x.len →
      let hi := x.here.foldl max (x.mRead - 1)
      let lost := x.here.filter (fun m => decide (m < hi - len + 1))
      ∃ t, exec (.lenTakeEffect c) s = .next t ∧ (t.ctx c).len = len ∧ (t.ctx c).newLen = none ∧ (t.ctx c).reads = 0 ∧
        (∀ m, m ∈ (t.ctx c).here ↔ m ∈ x.here ∧ hi - len < m) ∧ (t.ctx c).buf = x.buf ∧
        (lost ≠ [] → CtxEvent c 8 s t ∧
          t.cr c Reg.STM_SLIP_count = min (s.cr c Reg.STM_SLIP_count + lost.length) (2 ^ Reg.STM_SLIP_count.width - 1)) ∧
        ∀ j, j ≠ c → t.ctx j = s.ctx j) ∧
    (x.newLen = none ∨ x.reads = 0 ∨ x.reads ≠ x.len → exec (.lenTakeEffect c) s = .next s) ∧
    (1 ≤ s.cst c → s.cst c ≤ 3 → s.rd Reg.STM_GCFG_rx_timeout ≤ x.idle →
      ∃ t, exec (.streamLost c) s = .next t ∧ t.cst c = 4 ∧ t.ctx c = { x with back := false } ∧ CtxEvent c 4 s t ∧ CtxOnly c s t) ∧
    (∀ p, p < 2 → s.cr c (pathBit p) = 1 →
      s.rd Reg.STM_GCFG_rx_timeout ≤ (if p = 0 then x.idleA else x.idleB) →
      ∃ t, exec (.pathDown c p) s = .next t ∧ t.cr c (pathBit p) = 0 ∧ t.ctx c = x ∧ CtxEvent c 5 s t ∧
        CtxOnly c s t))

/-- From R263 to R266, R269, R275: a received frame that breaks a form is dropped and counted; a media packet offered
to a context counts its path, which is then up, and where it keeps the form the words whose counts lie in the window are
stored; a frame for the host goes to a posted buffer or is
dropped. A count that is read gives its words scaled by the conceal gain, which falls where the count is absent.
The cases that the rules leave open follow the model's choices (log entries 31, 32, 33). -/
def Obligations.FramesAndPacketsAreReceived : Prop :=
  (∀ (s : State) (p cyc sub align : Nat) (frame : List Byte), p < 2 →
    let c0 := Instr.networkFrameReceive p cyc sub align frame
    let l := frame.take (frame.length - 4)
    (s.netUp p = false → exec c0 s = .next s) ∧
    (s.netUp p = true → s.frameBad p frame = true → ∃ t, exec c0 s = .next t ∧ t = { s with regs := t.regs } ∧
      t.rd (Reg.NT_RX_DROP_count p) = min (s.rd (Reg.NT_RX_DROP_count p) + 1) (2 ^ 32 - 1) ∧
      SameRegs [(Reg.NT_RX_DROP_count p).off] s t) ∧
    (s.netUp p = true → s.frameBad p frame = false → isTagged l = false → ptpPayload l = none →
      let counted (t : State) :=
        t.rd (Reg.NT_RX_FRAMES_count p) = min (s.rd (Reg.NT_RX_FRAMES_count p) + 1) (2 ^ 32 - 1)
      (∀ c, isUdp l = true → s.mediaCtx p l = some c → ∃ t, exec c0 s = .next t ∧ counted t ∧
        (∀ d, d ≠ c → t.ctx d = s.ctx d) ∧
        Noticed [(Reg.NT_RX_FRAMES_count p).off, Reg.STM_EVENT_ev.off, Reg.STM_EVT_CTX_ctx.off]
          { s with net := { s.net with ctx := t.net.ctx, ctxRegs := t.net.ctxRegs } } t ∧
        (let pkts := if p = 0 then Reg.STM_PKTS_A_count else Reg.STM_PKTS_B_count
         t.cr c pkts = min (s.cr c pkts + 1) (2 ^ pkts.width - 1) ∧ t.cr c (pathBit p) = 1) ∧
        (s.formError c l = true → t.ctx c =
            (if p = 0 then { s.ctx c with idleA := 0 } else { s.ctx c with idleB := 0 }) ∧
          t.cr c Reg.STM_FORM_count = min (s.cr c Reg.STM_FORM_count + 1) (2 ^ Reg.STM_FORM_count.width - 1)) ∧
        (s.formError c l = false → s.syn.mult ≤ 2 →
          let x := s.ctx c
          let rtp := udpPayload l
          ∀ i ch, i < s.cP c → ch < s.cNch c →
            let m := s.countOfRtp c (be rtp 4 4) + i
            max x.w x.mRead ≤ m → m < max x.w x.mRead + x.len → m ∉ x.here →
              m ∈ (t.ctx c).here ∧ (t.ctx c).buf.get 0 (bufKey m ch) =
                (wordIn (s.cr c Reg.STM_CFG_enc)
                  ((rtpPayload rtp).drop ((i * s.cNch c + ch) * s.cBytes c))).1)) ∧
      ((isUdp l = false ∨ s.mediaCtx p l = none) → ¬(be l 12 2 = 0x0800 ∧ be l 23 1 = 2) →
        let r := s.rd (Reg.NT_CFG_rx_ring p)
        let dropped (t : State) :=
          t.rd (Reg.NT_RX_DROP_count p) = min (s.rd (Reg.NT_RX_DROP_count p) + 1) (2 ^ 32 - 1)
        ∃ t, exec c0 s = .next t ∧ counted t ∧ t = { s with regs := t.regs, host := t.host, outs := t.outs } ∧
          (s.forHost p l = false → dropped t ∧ t.outs = s.outs ∧ t.host = s.host) ∧
          (s.forHost p l = true → s.buffer r 6 = none → dropped t ∧ (t.reg (Reg.NT_EVENT_ev p).off).getLsbD 4 = true) ∧
          (∀ d, s.forHost p l = true → s.buffer r 6 = some d →
            (s.outs ++ [Out.hostWrite (d.word64 2) (l.take d.len)]) <+: t.outs)))) ∧
  (∀ (nch : Nat) (vz : Bool) (x : Ctx),
    let r := readCount nch vz x
    let here := x.mRead ∈ x.here
    r.2.mRead = x.mRead + 1 ∧ r.1.length = nch ∧
    (here → x.force = false → r.2.k = min (x.k + 1) 32) ∧ (¬here ∨ x.force = true → r.2.k = x.k - 1) ∧
    (∀ ch, ch < nch → r.1.getD ch 0 = gainA (BitVec.ofNat 48 (r.2.k * 2 ^ 34)) (r.2.h.get 0 ch) ∧
      (¬here → r.2.h.get 0 ch = x.h.get 0 ch) ∧
      (here → vz = false → r.2.h.get 0 ch = x.buf.get 0 (bufKey x.mRead ch))))

/-- From R194, R271, R272, R276: a transmit context's packet is formed when it is due and joins queue 1 of each port it uses,
before those of higher contexts that are due at the same instant; a host frame joins its queue; an idle port sends the oldest frame of its first queue that holds one.
The cases that the rules leave open follow the model's choices (log entries 6, 32, 33). -/
def Obligations.PacketsAndFramesAreSent : Prop :=
  (∀ (s : State) (n : Nat), n < 512 →
    let c := 512 + n
    let x := s.ctx c
    let pay := x.payloadOut (s.cr c Reg.STM_CFG_enc) (s.cNch c) (s.cP c) x.m0
    let rtp := s.rtpPacket c pay
    let frame (p : Nat) := s.udpFrame p (s.cMac c p) (s.cDst c p) (s.cr c Reg.STM_RTP_dscp)
      (s.cr c Reg.STM_UDP_src_port) (s.cr c Reg.STM_UDP_dst_port) rtp
    let ends := s.cst c = 6 ∧ ((x.stopAt : Int) - 1) * s.nLap + 32 ≤ x.m0 + s.cP c
    (s.packetDue c = false → exec (.packetTransmit n) s = .next s) ∧
    (s.packetDue c = true → ∃ t, exec (.packetTransmit n) s = .next t ∧
      (∀ p, p < 2 → (t.nport p).queues.get [] 1 = (if s.cPath c p then
          mediaJoin (s.dueTime c) c ⟨frame p, .media (s.dueTime c) c⟩ ((s.nport p).queues.get [] 1)
        else (s.nport p).queues.get [] 1) ∧ ∀ j, j ≠ 1 → (t.nport p).queues.get [] j = (s.nport p).queues.get [] j) ∧
      (∀ d, d ≠ c → t.ctx d = s.ctx d) ∧
      (s.cr c Reg.STM_CFG_enc < 3 → pay.length = s.cPayload c) ∧
      (¬ends → (t.ctx c).m0 = x.m0 + s.cP c ∧ (t.ctx c).seq = (x.seq + 1) % 65536 ∧
        t = { s with net := { s.net with ports := t.net.ports, ctx := t.net.ctx } }) ∧
      (ends → t.cst c = 0 ∧ t.allocHeld 3 c = none))) ∧
  (∀ (due : Int) (c : Nat) (f : EgFrame) (l : List EgFrame), ∃ a b, l = a ++ b ∧ mediaJoin due c f l = a ++ f :: b ∧
    (∀ g ∈ a, ∀ k, g.tag = .media due k → k ≤ c) ∧ ∀ g r, b = g :: r → ∃ k, g.tag = .media due k ∧ c < k) ∧
  (∀ (s : State) (r : Nat) (d : Desc) (data : List Byte), r < 64 → s.ringRuns r = true →
    s.on Reg.HST_STATUS_bme = true → s.oldest r 0x0C .taken = some d → data.length = chainBytes d.segs →
    let w := d.word 4
    let ports := bitsOf w 0 2
    let q := bitsOf w 2 3
    (ports = 3 ∨ 6 ≤ q → (s.ring r).descs = [d] → ∃ t, exec (.frameTx r data) s = .next t ∧
      HeadCompletes r d [] 0x43 0 0 [] s t) ∧
    (ports ≠ 3 → q < 6 → ∃ t, exec (.frameTx r data) s = .next t ∧
      (t.ring r).descs = (s.ring r).descs.map (fun x => if x.id = d.id then { d with stage := .active } else x) ∧
      (∀ j, j ≠ r → t.ring j = s.ring j) ∧
      (∀ p, p < 2 → Joins p (2 + q) (if p = ports ∨ (p = 0 ∧ ports = 2) then [⟨data, .host r d.id (bitAt w 5)⟩]
        else if ports = 2 then [⟨data, .hostCopy r d.id⟩] else []) s t) ∧
      t = { s with host := { s.host with rings := t.host.rings }, net := { s.net with ports := t.net.ports } })) ∧
  (∀ (s : State) (p cyc sub : Nat), p < 2 →
    let x := s.nport p
    (s.netUp p = false ∨ (∀ q, q < 8 → x.queues.get [] q = []) → exec (.egressFrame p cyc sub) s = .next s) ∧
    (∀ (q : Nat) (f : EgFrame) (fs : List EgFrame), s.netUp p = true → q < 8 → x.queues.get [] q = f :: fs →
      (∀ j, j < q → x.queues.get [] j = []) → ∃ t, exec (.egressFrame p cyc sub) s = .next t ∧
        (s.outs ++ [.frame p (s.onWire p f.bytes)]) <+: t.outs ∧
        t.rd (Reg.NT_TX_FRAMES_count p) = min (s.rd (Reg.NT_TX_FRAMES_count p) + 1) (2 ^ 32 - 1) ∧
        (f.tag = .plain ∨ (∃ j id, f.tag = .hostCopy j id) ∨ (∃ due k, f.tag = .media due k) →
          (t.nport p).queues.get [] q = fs ∧ (∀ j, j ≠ q → (t.nport p).queues.get [] j = x.queues.get [] j) ∧
          (∀ j, j ≠ p → t.nport j = s.nport j) ∧
          t = { s with regs := t.regs, outs := t.outs, net := { s.net with ports := t.net.ports } } ∧
          SameRegs [(Reg.NT_TX_FRAMES_count p).off, (Reg.NT_EGRESS_MAX_ns p).off] s t) ∧
        ∀ due k, f.tag = .media due k → t.rd (Reg.NT_EGRESS_MAX_ns p) = max (s.rd (Reg.NT_EGRESS_MAX_ns p))
          (min (((s.clockAt cyc : Int) - due) / 2 ^ 32).toNat (2 ^ 32 - 1))))

/-- From R254 to R256, R277, R281: link and module signals and their events, the I2C transfers of a module, the reports of
multicast groups, and the accesses to channel status tables.
The cases that the rules leave open follow the model's choices (log entries 2, 32, 33). -/
def Obligations.LinksModulesGroupsAndChannelStatus : Prop :=
  ∀ (s : State) (p : Nat), p < 2 →
    let evn := (Reg.NT_EVENT_ev p).off
    (∀ up : Bool, (s.on (Reg.NT_STATUS_link p) = up ∨ (up = true ∧ s.rd (Reg.NT_CFG_mode p) = 0) →
        exec (.linkChange p up) s = .next s) ∧
      (s.on (Reg.NT_STATUS_link p) = !up → (up = true → s.rd (Reg.NT_CFG_mode p) ≠ 0) →
        ∃ t, exec (.linkChange p up) s = .next t ∧ t.on (Reg.NT_STATUS_link p) = up ∧ (t.reg evn).getLsbD 0 = true ∧
          Noticed [(Reg.NT_STATUS_link p).off, evn] s t)) ∧
    (∀ los gone : Bool, s.on (Reg.NT_STATUS_los p) ≠ los ∨ s.on (Reg.NT_STATUS_mod_abs p) ≠ gone →
      ∃ t, exec (.sfpSignalChange p los gone) s = .next t ∧ t.on (Reg.NT_STATUS_los p) = los ∧
        t.on (Reg.NT_STATUS_mod_abs p) = gone ∧ t.on (Reg.NT_STATUS_link p) = s.on (Reg.NT_STATUS_link p) ∧
        (t.reg evn).getLsbD 1 = true ∧ Noticed [(Reg.NT_STATUS_los p).off, evn] s t) ∧
    (∀ v : Word, (v.getLsbD 24 = false ∨ s.on (Reg.NT_I2C_STAT_busy p) = true → exec (.i2cGo p v) s = .next s) ∧
      (v.getLsbD 24 = true → s.on (Reg.NT_I2C_STAT_busy p) = false → ∃ t, exec (.i2cGo p v) s = .next t ∧
        t.on (Reg.NT_I2C_STAT_busy p) = true ∧
        t.outs = s.outs ++ [.i2c p (bitsOf v.toNat 0 7) (v.getLsbD 7) (bitsOf v.toNat 8 8) (bitsOf v.toNat 16 8)] ∧
        t = { s with regs := t.regs, outs := t.outs } ∧
        SameRegs [(Reg.NT_I2C_dev p).off, (Reg.NT_I2C_STAT_busy p).off] s t)) ∧
    (∀ (b : Byte) (nack : Bool), (s.on (Reg.NT_I2C_STAT_busy p) = false → exec (.i2cDone p b nack) s = .next s) ∧
      (s.on (Reg.NT_I2C_STAT_busy p) = true → ∃ t, exec (.i2cDone p b nack) s = .next t ∧
        t.on (Reg.NT_I2C_STAT_busy p) = false ∧ t.on (Reg.NT_I2C_STAT_nack p) = nack ∧
        t.rd (Reg.NT_I2C_STAT_rdata p) = (if nack then 0 else if s.on (Reg.NT_I2C_read p) then b.toNat
          else s.rd (Reg.NT_I2C_STAT_rdata p)) ∧
        (t.reg evn).getLsbD 2 = true ∧ (nack = true → (t.reg evn).getLsbD 3 = true) ∧
        Noticed [(Reg.NT_I2C_STAT_busy p).off, evn] s t)) ∧
    (∀ c, c < 512 → ∃ t, exec (.igmpReport c) s = .next t ∧
      t = { s with net := { s.net with ports := t.net.ports } } ∧
      (c ∈ s.groupCtx p → s.cDst c p ∈ (t.nport p).groups ∧ ∃ f, Joins p 7 [⟨f, .plain⟩] s t) ∧
      (c ∉ s.groupCtx p → t.nport p = s.nport p)) ∧
    (∀ (w : Bool) (v : Byte),
      let q := s.rd Reg.APT_CS_ADDR_port
      let b := s.rd Reg.APT_CS_ADDR_byte
      let ch := s.rd Reg.APT_CS_ADDR_chan
      let blk := s.csOf (q - 16) ch
      ∃ t, exec (.csDataAccess false w v) s = .next t ∧ SameRegs [Reg.APT_CS_ADDR_byte.off] s t ∧
        (b < 24 → t.rd Reg.APT_CS_ADDR_byte = if b = 23 then 0 else b + 1) ∧
        t = { s with regs := t.regs, resp := t.resp, port := { s.port with ports := t.port.ports } } ∧
        (w = false ∨ q < 24 → ∀ j, t.aport j = s.aport j) ∧
        (w = false → q < 24 → t.resp =
          .ok (((if s.on Reg.APT_CS_ADDR_user then blk.latchedUser else blk.latched).getD b 0).setWidth 64)) ∧
        (w = false → 24 ≤ q → t.resp = .ok (((s.aport q).csStage.get 0 (24 * ch + b)).setWidth 64)) ∧
        (w = true → t.resp = .ok 0) ∧
        (w = true → 24 ≤ q → (t.aport q).csStage.get 0 (24 * ch + b) = v ∧
          (∀ k, k ≠ 24 * ch + b → (t.aport q).csStage.get 0 k = (s.aport q).csStage.get 0 k) ∧
          ∀ j, j ≠ q → t.aport j = s.aport j)) ∧
    (∀ (w : Bool) (v : Byte),
      let c := s.selCtx
      let b := s.cr c Reg.STM_CS_ADDR_byte
      let blk := (s.ctx c).cs.get CsBlock.reset (s.cr c Reg.STM_CS_ADDR_chan)
      ∃ t, exec (.csDataAccess true w v) s = .next t ∧
        (b < 24 → t.cr c Reg.STM_CS_ADDR_byte = if b = 23 then 0 else b + 1) ∧
        CtxOnly c { s with resp := t.resp } t ∧ (w = false ∨ c < 512 → t.ctx c = s.ctx c) ∧
        (w = false → t.resp = .ok ((if c < 512 then
            (if s.cr c Reg.STM_CS_ADDR_user = 1 then blk.latchedUser else blk.latched).getD b 0
          else (s.ctx c).csStage.get 0 b).setWidth 64)) ∧
        (w = true → t.resp = .ok 0) ∧
        (w = true → 512 ≤ c → t.ctx c = { s.ctx c with csStage := (s.ctx c).csStage.put 0 b v }))

/-! ### Network time and timed events (chapter 14) -/

/-- From R282 to R284, R286, R294: the local clock is read as a latched whole, set before processing start by the host or by
firmware from a valid offset, and stepped with the anchor at an epoch step, which an accepted offset schedules.
The cases that the rules leave open follow the model's choices (log entries 43, 53). -/
def Obligations.TimeIsReadSetAndStepped : Prop :=
  (∀ (s : State) (cyc : Nat),
    let t0 := s.clockAt cyc
    ∃ t, exec (.timeLatchRead cyc) s = .next t ∧ t = { s with regs := t.regs, resp := t.resp } ∧
      SameRegs [Reg.TIM_NOW_NS_ns.off, Reg.TIM_NOW_SEC_LO_sec.off, Reg.TIM_NOW_SEC_HI_sec.off,
        Reg.TIM_NOW_FNS_fns.off] s t ∧
      t.rd64 Reg.TIM_NOW_SEC_LO_sec Reg.TIM_NOW_SEC_HI_sec = t0 / 2 ^ 32 / 10 ^ 9 % 2 ^ 48 ∧
      t.rd Reg.TIM_NOW_NS_ns = t0 / 2 ^ 32 % 10 ^ 9 ∧ t.rd Reg.TIM_NOW_FNS_fns = t0 % 2 ^ 32 ∧
      t.resp = .ok (BitVec.ofNat 64 (t0 / 2 ^ 32 % 10 ^ 9))) ∧
  (∀ s : State,
    (s.run = true → ∃ t, exec .timeSet s = .next t ∧ (t.reg Reg.TIM_EVENT_ev.off).getLsbD 7 = true ∧
      Noticed [Reg.TIM_EVENT_ev.off] s t) ∧
    (s.run = false → ∃ t, exec .timeSet s = .next t ∧ t = { s with time := t.time, dpll := t.dpll } ∧
      t.time.clock = (s.rd64 Reg.TIM_SET_SEC_LO_sec Reg.TIM_SET_SEC_HI_sec * 10 ^ 9 + s.rd Reg.TIM_SET_NS_ns) * 2 ^ 32 ∧
      t.time.anchor = s.time.anchor ∧
      ∀ n, n < 2 → (t.ptp n).accepted = none ∧ (t.ptp n).t3 = none ∧ (t.ptp n).off = (s.ptp n).off)) ∧
  (∀ (s : State) (n cyc : Nat), n < 2 →
    let ready := s.run = false ∧ s.on Reg.TIM_CFG_no_autoset = false ∧ s.time.autoset = false ∧
      s.autosetFrom n = true
    (¬ready → exec (.clockAutoset n cyc) s = .next s) ∧
    (ready → s.offValid n = true ∧ s.rank n < 15 ∧ ∃ t, exec (.clockAutoset n cyc) s = .next t ∧
      t.time.autoset = true ∧
      t.time.clock = ((((s.clockAt cyc / 2 ^ 16 : Nat) : Int) + (s.ptp n).off) / 65536).toNat * 2 ^ 32 ∧
      t = { s with regs := t.regs, time := t.time, dpll := t.dpll } ∧
      SameRegs [Reg.TIM_SET_NS_ns.off, Reg.TIM_SET_SEC_LO_sec.off, Reg.TIM_SET_SEC_HI_sec.off] s t)) ∧
  (∀ (s : State) (n : Nat), n < 2 →
    let refused := s.offValid n = false ∨ s.epochBusy = true ∨ s.rateBusy = true ∨
      (s.inRing = true ∧ s.isMaster = false)
    let off := (s.ptp n).off
    let chosen (j : Int) := ∃ d : Int, 2 * (off - d * 65536) ≤ 65536 ∧ -65536 ≤ 2 * (off - d * 65536) ∧
      2 * (d * s.fs - j * 10 ^ 9) ≤ 10 ^ 9 ∧ -(10 ^ 9) ≤ 2 * (d * s.fs - j * 10 ^ 9)
    (refused → ∃ t, exec (.acceptEpoch n) s = .next t ∧ (t.reg Reg.TIM_EVENT_ev.off).getLsbD 6 = true ∧
      Noticed [Reg.TIM_EVENT_ev.off] s t) ∧
    (¬refused → s.inRing = false → ∃ t j r, exec (.acceptEpoch n) s = .next t ∧ chosen j ∧
      t.time.epoch = some ⟨s.lap + 1 + s.fLap, j, r, true⟩ ∧ t.on Reg.TIM_STATUS_epoch_pending = true ∧
      t = { s with regs := t.regs, net := { s.net with ctx := t.net.ctx }, time := { s.time with epoch := t.time.epoch } } ∧
      SameRegs [Reg.TIM_STATUS_epoch_pending.off] s t ∧
      ∀ c, (let fades := c ∈ s.net.ctx.map (·.1) ∧ 512 ≤ c ∧ (s.cst c = 1 ∨ s.cst c = 2)
            (fades → t.ctx c = { s.ctx c with stopAt := s.lap + 2 }) ∧ (¬fades → t.ctx c = s.ctx c))) ∧
    (¬refused → s.inRing = true → ∃ t j r, exec (.acceptEpoch n) s = .next t ∧ chosen j ∧
      t = { s with casc := { s.casc with acts := t.casc.acts, sendCmd := t.casc.sendCmd } } ∧
      t.casc.acts = s.casc.acts ++ [⟨.acceptEpoch j r, s.lap + s.layout.h + 1⟩] ∧
      t.casc.sendCmd = s.casc.sendCmd ++ [⟨.acceptEpoch j r, s.lap + s.layout.h + 1⟩])) ∧
  (∀ s : State, (∀ e, s.time.epoch = some e → s.lap < e.lap) → exec .epochStep s = .next s) ∧
  (∀ (s : State) (e : Epoch), s.time.epoch = some e → e.lap ≤ s.lap → ∃ t, exec .epochStep s = .next t ∧
    t.time.anchor = s.time.anchor + e.j ∧ t.time.epoch = none ∧
    t.rd64 Reg.TIM_ANCHOR_LO_k Reg.TIM_ANCHOR_HI_k = (BitVec.ofInt 64 (s.time.anchor + e.j)).toNat ∧
    t.time.clock = (((s.lap * s.nLap : Nat) + (s.time.anchor + e.j)) * (10 ^ 9 * 2 ^ 32) / s.fs).toNat ∧
    t.on Reg.TIM_STATUS_epoch_pending = false ∧ (t.reg Reg.TIM_EVENT_ev.off).getLsbD 5 = true ∧
    (∀ c, c < 512 → 1 ≤ s.cst c → s.cst c ≠ 5 → c ∈ s.net.ctx.map (·.1) →
      (t.ctx c).here = [] ∧ (t.ctx c).buf = []) ∧
    t.lap = s.lap ∧ t.tile = s.tile ∧ t.vault = s.vault ∧ t.port = s.port ∧ t.meter = s.meter ∧ t.core = s.core)

/-- From R287, R290, R291, R296, R297: timed outputs are armed and fire in the first cycle at or after their
triggers, captures are stored four deep and
read oldest first, and the instances of PTP send their messages and give a silent master up.
The cases that the rules leave open follow the model's choices (log entries 32, 42, 43). -/
def Obligations.TimedEventsAndPtpMessages : Prop :=
  (∀ (s : State) (n cyc : Nat) (v : Word), n < 8 →
    let u := s.writePlain true (Reg.TIM_TOUT_CFG_arm n).off v
    let per := s.rd (Reg.TIM_TOUT_PER_NS_ns n) * 2 ^ 32 + s.rd (Reg.TIM_TOUT_PER_FRAC_frac n)
    let w := s.rd (Reg.TIM_TOUT_WIDTH_cycles n)
    let periodic := u.on (Reg.TIM_TOUT_CFG_periodic n)
    let short := periodic = true ∧ (s.rd (Reg.TIM_TOUT_PER_NS_ns n) < 10 ∨
      (u.rd (Reg.TIM_TOUT_CFG_shape n) = 0 ∧ per * s.clkT ≤ w * (10 ^ 9 * 2 ^ 32)))
    let start := (s.rd64 (Reg.TIM_TOUT_SEC_LO_sec n) (Reg.TIM_TOUT_SEC_HI_sec n) * 10 ^ 9 +
      s.rd (Reg.TIM_TOUT_NS_ns n)) * 2 ^ 32
    (v.getLsbD 0 = false → exec (.toutArm n cyc v) s = .next s) ∧
    (v.getLsbD 0 = true → ∃ t, exec (.toutArm n cyc v) s = .next t ∧
      (∀ j, j ≠ n → t.tout j = s.tout j) ∧
      (short → t.rd (Reg.TIM_TOUT_STAT_refused n) = 1 ∧ (t.reg Reg.TIM_EVENT_ev.off).getLsbD 8 = true ∧
        t.tout n = s.tout n) ∧
      (¬short → t.rd (Reg.TIM_TOUT_STAT_refused n) = 0) ∧
      (¬short → s.clockAt cyc ≤ start → t.rd (Reg.TIM_TOUT_CFG_arm n) = 1 ∧
        t.tout n = ⟨true, start, if periodic then (per : Int) else 0, w, 0, (s.tout n).level⟩ ∧
        t = { s with regs := t.regs, time := { s.time with tout := t.time.tout } }) ∧
      (¬short → start < s.clockAt cyc → t.fab.tev.get false n = true ∧
        (t.reg Reg.TIM_TEV_fired.off).getLsbD n = true ∧
        (periodic = false → (t.tout n).armed = false ∧ t.rd (Reg.TIM_TOUT_CFG_arm n) = 0 ∧
          t.rd (Reg.TIM_TOUT_STAT_late n) = 1) ∧
        (periodic = true → (t.tout n).armed = true ∧ (s.clockAt cyc : Int) < (t.tout n).trigger ∧
          (t.tout n).trigger ≤ s.clockAt cyc + per)))) ∧
  (∀ (s : State) (n cyc : Nat), n < 8 →
    let x := s.tout n
    let pol := s.on (Reg.TIM_TOUT_CFG_pol n)
    let at_ : Int := s.clockAt (s.cycleOf x.trigger)
    (x.armed = false ∨ (s.clockAt cyc : Int) < x.trigger → exec (.toutFire n cyc) s = .next s) ∧
    (x.armed = true → x.trigger ≤ s.clockAt cyc → x.trigger ≤ at_ ∧ s.cycleOf x.trigger ≤ cyc ∧
      ∃ t, exec (.toutFire n cyc) s = .next t ∧ t.fab = { s.fab with tev := t.fab.tev } ∧
      t.fab.tev.get false n = true ∧ (t.reg Reg.TIM_TEV_fired.off).getLsbD n = true ∧
      t.rd (Reg.TIM_TOUT_STAT_late n) = 0 ∧ (∀ j, j ≠ n → t.tout j = s.tout j) ∧
      (x.period = 0 → (t.tout n).armed = false ∧ t.rd (Reg.TIM_TOUT_CFG_arm n) = 0) ∧
      (x.period ≠ 0 → (t.tout n).armed = true ∧ (t.tout n).trigger = x.trigger + x.period) ∧
      (s.on (Reg.TIM_TOUT_CFG_oe n) = true → s.rd (Reg.TIM_TOUT_CFG_shape n) = 0 →
        [Out.pulse (.tout n) (!pol) at_,
          Out.pulse (.tout n) pol (at_ + (x.width : Int) * (10 ^ 9 * 2 ^ 32) / s.clkT)] <:+ t.outs) ∧
      (s.on (Reg.TIM_TOUT_CFG_oe n) = true → s.rd (Reg.TIM_TOUT_CFG_shape n) = 1 →
        [Out.pulse (.tout n) (!x.level != pol) at_] <:+ t.outs))) ∧
  (∀ (s : State) (n cyc : Nat) (rising held : Bool), n < 8 →
    let t0 := s.clockAt cyc
    let last := s.time.lastEdge.get 0 n
    let two := 2 * (s.rd Reg.TIM_INC_LO_frac + 2 ^ 32 * s.rd Reg.TIM_INC_HI_ns)
    let l := s.time.tcap.get [] n
    let c := Instr.tcapEdge n cyc rising held
    let passes := s.on (Reg.TIM_TCAP_CFG_filt n) = false ∨ held = true
    let taken := bitAt (s.rd (Reg.TIM_TCAP_CFG_edge n)) (if rising then 0 else 1) = true ∧
      (last = 0 ∨ t0 + 1 < last ∨ last + two ≤ t0 + 1)
    (¬passes → exec c s = .next s) ∧
    (passes → ∃ t, exec c s = .next t ∧ t.time.lastEdge.get 0 n = t0 + 1 ∧
      (∀ j, j ≠ n → t.time.tcap.get [] j = s.time.tcap.get [] j) ∧
      Noticed [Reg.TIM_TEV_fired.off, (Reg.TIM_TCAP_NS_ns n).off, (Reg.TIM_TCAP_SEC_HI_depth n).off]
        { s with time := { s.time with lastEdge := t.time.lastEdge, tcap := t.time.tcap } } t ∧
      (¬taken ∨ 4 ≤ l.length → t.time.tcap.get [] n = l) ∧
      (taken → 4 ≤ l.length → (t.reg Reg.TIM_TEV_fired.off).getLsbD (8 + n) = true) ∧
      (taken → l.length < 4 → t.rd (Reg.TIM_TCAP_SEC_HI_depth n) = l.length + 1 ∧
        t.time.tcap.get [] n = l ++ [⟨t0 / 2 ^ 32 / 10 ^ 9, t0 / 2 ^ 32 % 10 ^ 9, rising⟩]))) ∧
  (∀ (s : State) (n : Nat), n < 8 →
    let l := s.time.tcap.get [] n
    ∃ t, exec (.tcapPop n) s = .next t ∧ t.resp = .ok (BitVec.ofNat 64 (captureWord l)) ∧
      t.time.tcap.get [] n = l.tail ∧ (∀ j, j ≠ n → t.time.tcap.get [] j = s.time.tcap.get [] j) ∧
      (∀ c r, l = c :: r → t.rd64 (Reg.TIM_TCAP_SEC_LO_sec n) (Reg.TIM_TCAP_SEC_HI_sec n) = c.sec % 2 ^ 48 ∧
        t.rd (Reg.TIM_TCAP_SEC_HI_depth n) = r.length % 8) ∧
      t = { s with regs := t.regs, resp := t.resp, time := { s.time with tcap := t.time.tcap } } ∧
      SameRegs [(Reg.TIM_TCAP_NS_ns n).off, (Reg.TIM_TCAP_SEC_LO_sec n).off, (Reg.TIM_TCAP_SEC_HI_sec n).off] s t) ∧
  (∀ (s : State) (n : Nat), n < 2 →
    let x := s.ptp n
    let st := s.ptpState n
    let sends (c : Instr) (y : Ptp) (p : EgTag → Prop) := ∃ t bytes tag, exec c s = .next t ∧ p tag ∧
      Joins n 0 [⟨bytes, tag⟩] s t ∧ (∀ j, j ≠ n → t.nport j = s.nport j) ∧
      t = { s with net := { s.net with ports := t.net.ports }, time := { s.time with ptp := t.time.ptp } } ∧
      t.ptp n = y ∧ ∀ j, j ≠ n → t.ptp j = s.ptp j
    let served := s.ptpServed n = true
    (st = 5 → served → sends (.ptpSyncTransmit n) { x with seqSync := (x.seqSync + 1) % 65536 } (· = .sync x.seqSync) ∧
      sends (.ptpAnnounceTransmit n) { x with seqAnn := (x.seqAnn + 1) % 65536 } (· = .plain)) ∧
    (st ≠ 5 ∨ ¬served → exec (.ptpSyncTransmit n) s = .next s ∧ exec (.ptpAnnounceTransmit n) s = .next s) ∧
    (let peer := s.on (Reg.TIM_PTP_CFG_dmech n)
     let asks := served ∧ ((peer = true ∧ st ≠ 0 ∧ st ≠ 7) ∨ (peer = false ∧ (st = 2 ∨ st = 3)))
     (asks → sends (.ptpDelayReqTransmit n) { x with seqDreq := (x.seqDreq + 1) % 65536, t3 := none, pd := none }
       (· = .delayReq x.seqDreq)) ∧
     (¬asks → exec (.ptpDelayReqTransmit n) s = .next s)) ∧
    (∀ a : Bool, ∃ t, exec (.announceTimeout n a) s = .next t ∧ (t.ptp n).active = false ∧
      (∀ j, j ≠ n → t.ptp j = s.ptp j) ∧
      (a = false ∨ st = 0 ∨ st = 5 ∨ ¬served → t.ptp n = { x with active := false } ∧
        t = { s with time := { s.time with ptp := t.time.ptp } }) ∧
      (a = true → st ≠ 0 → st ≠ 5 → served → t.offValid n = false ∧ (t.ptp n).master = none ∧
        t.ptpState n = (if s.rd (Reg.TIM_PTP_CFG_role n) = 2 then 5 else 1) ∧
        Noticed [Reg.TIM_EVENT_ev.off, (Reg.TIM_PTP_STATE_state n).off, (Reg.TIM_PTP_GM_LO_id n).off,
          (Reg.TIM_PTP_GM_HI_id n).off] { s with time := { s.time with ptp := t.time.ptp } } t)))

/-! ### References, synthesizers and the rate (chapters 15 and 16) -/

/-- From R300, R302, R305, R308, R310, R315, R316, R318 to R320: samples of the references at the edges that each takes, qualification, the tick of the
DPLL and its states, the phase step, and the frame and pulse outputs, each pulse beginning in the first cycle at or after its
instant.
The cases that the rules leave open follow the model's choices (log entries 6, 40, 41, 53). -/
def Obligations.ReferencesAreSampledAndTheDpllTicks : Prop :=
  (∀ (s : State) (n cyc sub : Nat) (falling : Bool), n < 8 →
    let x := s.slot n
    let num : Int := s.rd (Reg.DPL_REF_NUM_num n)
    let den : Int := s.rd (Reg.DPL_REF_DEN_den n)
    let at16 : Int := s.clockAt cyc / 2 ^ 28 + sub
    let lap : Int := (10 ^ 9 * 65536 * s.nLap / s.fs : Nat)
    let taken := 2 ≤ n ∧ n ≠ 3 ∧ (n = 7 ∨ falling = s.on (Reg.DPL_REF_CFG_falling n))
    (¬taken ∨ s.slotOn n = false → exec (.refSample n cyc sub falling) s = .next s) ∧
    (taken → s.slotOn n = true → ∃ t e, exec (.refSample n cyc sub falling) s = .next t ∧
      t = { s with dpll := { s.dpll with slots := t.dpll.slots } } ∧ (∀ j, j ≠ n → t.slot j = s.slot j) ∧
      t.slot n = { x with edges := x.edges + 1, lastT := some ((s.clockAt cyc : Int) + sub * 2 ^ 28),
                          arrived := x.arrived ++ if x.edges % s.everyK n = 0 then [e] else [] } ∧
      (n = 7 → s.syn.mult < 3 → s.everyK n = 3 ∧ -lap ≤ 2 * e ∧ 2 * e ≤ lap ∧
        ∃ m : Int, e = s.rd (Reg.EXL_HOP_ns s.refPort) * 65536 + s.sendOffset -
          (((s.clockAt cyc - s.time.clock) / 65536 : Nat) + sub * 4096) - m * lap) ∧
      (n < 7 → (∀ k : Nat, num ≤ 8000 * den * k ↔ s.everyK n ≤ k) ∧
        ∃ i y : Int, y = 16 * s.rd (Reg.DPL_REF_OFS_ofs n) * num + i * (16 * 10 ^ 9 * den) - at16 * num ∧
          -(16 * 10 ^ 9 * den) ≤ 2 * y ∧ 2 * y ≤ 16 * 10 ^ 9 * den ∧ e * num ≤ y * 4096 ∧ y * 4096 < (e + 1) * num))) ∧
  (∀ (s : State) (n : Nat), n < 8 →
    let x := s.slot n
    let due := x.qual = false ∧ s.slotOn n = true ∧ 1000 * s.rd Reg.DPL_QUAL_qual_s ≤ x.clean
    (¬due → exec (.refQualify n) s = .next s) ∧
    (due → ∃ t, exec (.refQualify n) s = .next t ∧ (t.slot n).qual = true ∧
      t.slot n = { x with qual := true, drifting := false, drift := 0, calm := 0 } ∧
      (∀ j, j ≠ n → t.slot j = s.slot j) ∧ (t.reg Reg.DPL_EVENT_ev.off).getLsbD 5 = true ∧
      (n < 2 → t.rd (Reg.TIM_PTP_STATE_stepped n) = 0) ∧
      Noticed ([Reg.DPL_EVENT_ev.off] ++ if n < 2 then [(Reg.TIM_PTP_STATE_stepped n).off] else [])
        { s with dpll := { s.dpll with slots := t.dpll.slots } } t)) ∧
  (∀ (s : State) (cyc : Nat),
    let slew : Int := 65536 * s.rd Reg.DPL_SLEW_slew
    let moved := if s.dpll.step < -slew then -slew else if s.dpll.step > slew then slew else s.dpll.step
    (s.syn.xo = false → exec (.dpllTick cyc) s = .next s) ∧
    (s.syn.xo = true → ∃ t, exec (.dpllTick cyc) s = .next t ∧
      t = { s with free := t.free, regs := t.regs, host := t.host, outs := t.outs, dpll := t.dpll } ∧
      (∀ off, off < 0x2000 ∨ 0x3000 ≤ off → off ∉ [Reg.HST_EVENT_ev.off, Reg.HST_EVT_DROP_count.off,
        (Reg.TIM_PTP_STATE_stepped 0).off, (Reg.TIM_PTP_STATE_stepped 1).off] → t.reg off = s.reg off) ∧
      t.dpll.tick = s.dpll.tick + 1 ∧ t.dpll.fp = s.dpll.fp ∧
      t.dpll.cumY = s.dpll.cumY + t.rdS Reg.DPL_YOUT_y ∧
      (∀ n, n < 8 → (t.slot n).arrived = []) ∧
      (t.dst ≠ 4 → s.on Reg.SYN_STATUS_gated = false →
        (t.rdS Reg.DPL_YOUT_y).natAbs * 10 ^ 6 ≤ 250 * 2 ^ 40) ∧
      (t.dst = 4 ∨ s.on Reg.SYN_STATUS_gated = true →
        t.rdS Reg.DPL_YOUT_y = s.rdS Reg.DPL_YOUT_y ∧ t.dpll.yBase = s.dpll.yBase) ∧
      (s.rdS Reg.SYN_RAMP_NOW_y ≠ 0 → s.dpll.suspend = none → t.dst = 4 ∧ t.dpll.suspend = some s.dst ∧
        t.dpll.sel = s.dpll.sel ∧ (s.dpll.rebuild = false → t.dpll.step = s.dpll.step)) ∧
      (s.rdS Reg.SYN_RAMP_NOW_y = 0 → s.dpll.suspend = none → s.dst ≠ 4 → s.rd Reg.DPL_CFG_mode = 3 →
        s.dpll.mode ≠ 3 → t.dst = 0 ∧ t.dpll.sel = none ∧
          (s.on Reg.SYN_STATUS_gated = false → t.dpll.step = s.dpll.step - moved ∧
            t.rdS Reg.DPL_YOUT_y = clampI (-yLimit) yLimit (moved * 2 ^ 24 / 10 ^ 9) ∧
            (s.dpll.step ≠ 0 → t.dpll.step = 0 → (t.reg Reg.DPL_EVENT_ev.off).getLsbD 10 = true))))) ∧
  (∀ s : State,
    let ticks := 1000 * s.rd Reg.DPL_LOCK_lock_s
    let goes (c : Instr) (due : Prop) (u : State) (st ev : Nat) := (¬due → exec c s = .next s) ∧
      (due → ∃ t, exec c s = .next t ∧ t.dst = st ∧ (t.reg Reg.DPL_EVENT_ev.off).getLsbD ev = true ∧
        (∀ f ∈ [Reg.DPL_STATUS_sel_valid, Reg.DPL_STATUS_sel, Reg.DPL_STATUS_hold_valid, Reg.DPL_STATUS_bw_eff,
          Reg.DPL_STATUS_qualified, Reg.DPL_STATUS_outvoted], t.rd f = s.rd f) ∧
        Noticed [Reg.DPL_STATUS_state.off, Reg.DPL_EVENT_ev.off] u t)
    goes .dpllLock (s.dst = 1 ∧ ticks ≤ s.dpll.lockTicks) { s with dpll := { s.dpll with unlockTicks := 0 } } 2 2 ∧
    goes .dpllUnlock (s.dst = 2 ∧ ticks ≤ s.dpll.unlockTicks) { s with dpll := { s.dpll with lockTicks := 0 } } 1 3 ∧
    (s.dst ≠ 2 ∨ s.dpll.yCnt < 1000 → exec .holdoverHistory s = .next s) ∧
    (s.dst = 2 → 1000 ≤ s.dpll.yCnt → ∃ t, exec .holdoverHistory s = .next t ∧
      t = { s with dpll := { s.dpll with history := t.dpll.history, ySum := 0, yCnt := 0 } } ∧
      t.dpll.history = ((s.dpll.tick, s.dpll.ySum / s.dpll.yCnt) :: s.dpll.history).take 8192)) ∧
  (∀ (s : State) (v : Word), ∃ t, exec (.phaseStepWrite v) s = .next t ∧
    t.dpll.step = s.dpll.step + v.toInt * 65536000 ∧
    t.rdS Reg.DPL_PSTEP_REM_ns = clampI (-(2 ^ 31)) (2 ^ 31 - 1) (t.dpll.step / 65536000) ∧
    t = { s with regs := t.regs, dpll := { s.dpll with step := t.dpll.step } } ∧
    SameRegs [Reg.DPL_PSTEP_REM_ns.off] s t) ∧
  (∀ (s : State) (n : Nat) (v : Word), n < 8 →
    let marks (off k : Nat) (q : State → Prop) := ∃ t, exec (.refConfigWrite off v) s = .next t ∧ q t ∧
      t.dpll.written.get 0 n = max k (s.dpll.written.get 0 n) ∧
      (∀ j, j ≠ n → t.dpll.written.get 0 j = s.dpll.written.get 0 j) ∧
      t = { s with regs := t.regs, dpll := { s.dpll with written := t.dpll.written } } ∧ SameRegs [off] s t
    marks (Reg.DPL_REF_CFG_rank n).off 3 (fun t => t.rank n = v.toNat % 16 ∧
      t.rd (Reg.DPL_REF_CFG_falling n) = b2n (v.getLsbD 5) ∧
      t.rd (Reg.DPL_REF_CFG_follow n) = s.rd (Reg.DPL_REF_CFG_follow n) ∧
      t.rd (Reg.DPL_REF_CFG_act_to n) = s.rd (Reg.DPL_REF_CFG_act_to n)) ∧
    marks (Reg.DPL_REF_NUM_num n).off 2 (fun t => t.rd (Reg.DPL_REF_NUM_num n) = v.toNat) ∧
    marks (Reg.DPL_REF_DEN_den n).off 2 (fun _ => True) ∧ marks (Reg.DPL_REF_OFS_ofs n).off 2 (fun _ => True)) ∧
  (∀ (s : State) (n cyc : Nat), n < 4 →
    let num := s.rd (Reg.DPL_FP_NUM_num n)
    let den := s.rd (Reg.DPL_FP_DEN_den n)
    let w := s.rd (Reg.DPL_FP_CFG_width n)
    let legal := 0 < den ∧ den ≤ num ∧ num ≤ 10 ^ 6 * den ∧ 0 < w ∧ 2 * w * num ≤ den * s.clkT
    -- instants times num, in 2^-32 ns
    let p : Int := 10 ^ 9 * 2 ^ 32 * den
    let first : Int := ((s.clockAt cyc : Int) + 10 ^ 6 * 2 ^ 32) * num
    let ofs : Int := s.rd (Reg.DPL_FP_OFS_ofs n) * 2 ^ 32 * num
    (¬legal → ∃ t, exec (.fpAlign n cyc) s = .next t ∧ (t.reg Reg.DPL_EVENT_ev.off).getLsbD 13 = true ∧
      Noticed [Reg.DPL_EVENT_ev.off] s t) ∧
    (legal → s.on (Reg.DPL_FP_CFG_en n) = false → exec (.fpAlign n cyc) s = .next s) ∧
    (legal → s.on (Reg.DPL_FP_CFG_en n) = true → ∃ t g i, exec (.fpAlign n cyc) s = .next t ∧
      t.fp n = ⟨num, den, w, g, 0⟩ ∧ first ≤ ofs + i * p ∧ ofs + (i - 1) * p < first ∧
      (g - 1) * num < ofs + i * p ∧ ofs + i * p ≤ g * num ∧ t.rd (Reg.DPL_FP_CTL_state n) = 1 ∧
      (∀ j, j ≠ n → t.fp j = s.fp j) ∧ t = { s with regs := t.regs, dpll := { s.dpll with fp := t.dpll.fp } } ∧
      SameRegs [(Reg.DPL_FP_CTL_state n).off] s t)) ∧
  (∀ (s : State) (n cyc : Nat), n < 4 →
    let x := s.fp n
    let st := s.rd (Reg.DPL_FP_CTL_state n)
    let low := s.on (Reg.DPL_FP_CFG_pol n)
    let due : Int := x.g + x.i * (10 ^ 9 * 2 ^ 32 * x.den) / x.num
    let begins : Int := s.clockAt (s.cycleOf due)
    ((st ≠ 1 ∧ st ≠ 2) ∨ (s.clockAt cyc : Int) < due → exec (.fpPulse n cyc) s = .next s) ∧
    (st = 1 ∨ st = 2 → due ≤ s.clockAt cyc → due ≤ begins ∧ s.cycleOf due ≤ cyc ∧
      ∃ t, exec (.fpPulse n cyc) s = .next t ∧
      t.fp n = { x with i := x.i + 1 } ∧ (∀ j, j ≠ n → t.fp j = s.fp j) ∧ t.rd (Reg.DPL_FP_CTL_state n) = 2 ∧
      (s.outs ++ [.pulse (.fpOut n) (!low) begins,
        .pulse (.fpOut n) low (begins + x.width * (10 ^ 9 * 2 ^ 32) / s.clkT)]) <+: t.outs ∧
      (st = 1 → (t.reg Reg.DPL_EVENT_ev.off).getLsbD 12 = true) ∧
      (st = 2 → t.reg Reg.DPL_EVENT_ev.off = s.reg Reg.DPL_EVENT_ev.off) ∧
      Noticed [Reg.DPL_EVENT_ev.off, (Reg.DPL_FP_CTL_state n).off]
        { s with dpll := { s.dpll with fp := t.dpll.fp } } t))

/-- From R322 to R326, R329, R331, R407: the effective ratio, the choice of a band, lock and settling, the ramp generator and
the reset of the dividers.
The cases that the rules leave open follow the model's choices (log entries 2, 44). -/
def Obligations.SynthesizersLockAndRampsRun : Prop :=
  (∀ s : State,
    (s.syn.xo = false → exec .ratioUpdate s = .next s) ∧
    (s.syn.xo = true → ∃ t m c, exec .ratioUpdate s = .next t ∧
      m * 2 ^ 72 ≤ (mNom s.syn.fam : Int) * (2 ^ 40 + s.rdS Reg.DPL_YOUT_y) * (2 ^ 32 + s.rdS Reg.SYN_RAMP_NOW_y) ∧
      (mNom s.syn.fam : Int) * (2 ^ 40 + s.rdS Reg.DPL_YOUT_y) * (2 ^ 32 + s.rdS Reg.SYN_RAMP_NOW_y) < (m + 1) * 2 ^ 72 ∧
      (m < 175 * 2 ^ 39 → c = 175 * 2 ^ 39) ∧ (6 * m > 625 * 2 ^ 40 → 6 * c ≤ 625 * 2 ^ 40 ∧ 625 * 2 ^ 40 < 6 * (c + 1)) ∧
      (175 * 2 ^ 39 ≤ m → 6 * m ≤ 625 * 2 ^ 40 → c = m ∧ t.reg Reg.SYN_EVENT_ev.off = s.reg Reg.SYN_EVENT_ev.off) ∧
      (m ≠ c → (t.reg Reg.SYN_EVENT_ev.off).getLsbD 3 = true) ∧
      c = (t.rd Reg.SYN_MEFF_LO_frac + 2 ^ 32 * t.rd Reg.SYN_MEFF_HI_frac + 2 ^ 40 * t.rd Reg.SYN_MEFF_HI_int : Nat) ∧
      Noticed [Reg.SYN_MEFF_LO_frac.off, Reg.SYN_MEFF_HI_frac.off, Reg.SYN_EVENT_ev.off] s t)) ∧
  (∀ (nom : Nat) (table : List (Nat × Nat)),
    (envLo nom * 2 ^ 40 * 10 ^ 7 ≤ nom * 96 * 99975 * 256 ∧ nom * 96 * 99975 * 256 < (envLo nom + 1) * 2 ^ 40 * 10 ^ 7 ∧
      nom * 104 * 100025 * 256 ≤ envHi nom * 2 ^ 40 * 10 ^ 7 ∧
      envHi nom * 2 ^ 40 * 10 ^ 7 < nom * 104 * 100025 * 256 + 2 ^ 40 * 10 ^ 7) ∧
    (∀ n, chooseBand nom table = some n ↔ BandChosen nom table n) ∧
    (chooseBand nom table = none ↔ ∀ e ∈ table, ¬BandServes nom e)) ∧
  (∀ (s : State) (b : Bool),
    let u := if (s.synth b).gated then s.reprogram b else s
    let locks := (u.synth b).prog = true ∧ u.on (lockBit b) = false
    (s.syn.xo = false → exec (.synthLock b) s = .next s) ∧
    (s.syn.xo = true → ¬locks → exec (.synthLock b) s = .next u) ∧
    (s.syn.xo = true → locks → ∃ t, exec (.synthLock b) s = .next t ∧ t.on (lockBit b) = true ∧
      t.on (lockBit (!b)) = s.on (lockBit (!b)) ∧
      t.rd Reg.SYN_STATUS_prog = (if u.rd Reg.SYN_STATUS_prog = 2 then 3 else u.rd Reg.SYN_STATUS_prog) ∧
      t.pads = { s.pads with synLock := t.on (lockBit t.activeSynth) && !t.on Reg.SYN_STATUS_gated } ∧
      t = { u with regs := t.regs, pads := t.pads, syn := { u.syn with onRoot := t.syn.onRoot },
                   time := { u.time with ticking := t.time.ticking } } ∧
      SameRegs [Reg.SYN_STATUS_prog.off] s t ∧
      (s.syn.onRoot = false → s.syn.change = none → t.syn.onRoot = true ∧ t.time.ticking = true ∧
        t.on Reg.SYN_STATUS_gated = false ∧ t.activeSynth = b ∧ t.pads.synLock = true) ∧
      (s.syn.onRoot = true ∨ s.syn.change ≠ none → t.syn.onRoot = s.syn.onRoot ∧ t.time = s.time ∧
        t.activeSynth = s.activeSynth ∧ t.on Reg.SYN_STATUS_gated = s.on Reg.SYN_STATUS_gated)) ∧
    ((s.synth b).gated = true → ∀ n, n < 64 → BandChosen (mNom s.syn.fam) (s.bandTable b) n →
      u.synth b = ⟨true, false, false⟩ ∧ u.rd (if b then Reg.SYN_STATUS_band_b else Reg.SYN_STATUS_band_a) = n)) ∧
  (∀ (s : State) (b : Bool),
    let due := s.on (lockBit b) = true ∧ (s.synth b).prog = true ∧ (s.synth b).settled = false
    let ends := s.rd Reg.COR_BOOT_state = 2 ∧ b = s.activeSynth
    (¬due → exec (.synthSettled b) s = .next s) ∧
    (due → ∃ t, exec (.synthSettled b) s = .next t ∧ t.synth b = { s.synth b with settled := true } ∧
      t.synth (!b) = s.synth (!b) ∧
      t.rd Reg.SYN_STATUS_spare_ok = b2n (t.synth (!t.activeSynth)).settled ∧
      t.rd Reg.HLT_ATTIC_synth = b2n (t.synth (!t.activeSynth)).settled ∧
      (s.syn.change = none → t.rd Reg.SYN_STATUS_prog = 0) ∧
      (¬ends → t = { s with regs := t.regs, syn := t.syn } ∧
        SameRegs [Reg.SYN_STATUS_spare_ok.off, Reg.HLT_ATTIC_synth.off] s t) ∧
      (ends → BootEnded t))) ∧
  (∀ s : State,
    let m := s.rd Reg.SYN_RAMP_CTL_nseg_m1
    let y (i : Nat) := s.rdS (Reg.SYN_RAMP_Y_y i)
    let d (i : Nat) := s.rd (Reg.SYN_RAMP_D_laps i)
    let from_ (i : Nat) := if i = 0 then s.rdS Reg.SYN_RAMP_NOW_y else y (i - 1)
    let refused := s.syn.change ≠ none ∨
      ∃ i, i ≤ m ∧ (0x0A3D70A3 < (y i).natAbs ∨ 4096 * d i < (y i - from_ i).natAbs)
    (refused → ∃ t, exec .rampStart s = .next t ∧ (t.reg Reg.SYN_EVENT_ev.off).getLsbD 7 = true ∧
      Noticed [Reg.SYN_EVENT_ev.off] s t) ∧
    (¬refused → ∃ t segs, exec .rampStart s = .next t ∧ segs.length = m + 1 ∧
      (∀ i, i ≤ m → segs[i]? = some (y i, d i)) ∧
      t.syn = { s.syn with ramp := some ⟨segs, s.rdS Reg.SYN_RAMP_NOW_y, 0⟩ } ∧ t = { s with regs := t.regs, syn := t.syn } ∧
      SameRegs [Reg.SYN_RAMP_STAT_state.off] s t ∧ t.rd Reg.SYN_RAMP_STAT_state = 1 ∧ t.rd Reg.SYN_RAMP_STAT_seg = 0)) ∧
  (∀ s : State,
    let now := s.rdS Reg.SYN_RAMP_NOW_y
    let stands (c : Instr) (ev : Bool) := ∃ t, exec c s = .next t ∧ t.syn = { s.syn with ramp := none } ∧
      t.rd Reg.SYN_RAMP_STAT_state = (if now = 0 then 0 else 2) ∧ t.rdS Reg.SYN_RAMP_NOW_y = now ∧
      if ev then (t.reg Reg.SYN_EVENT_ev.off).getLsbD 6 = true ∧
        Noticed [Reg.SYN_RAMP_STAT_state.off, Reg.SYN_EVENT_ev.off] { s with syn := t.syn } t
      else t = { s with regs := t.regs, syn := t.syn } ∧ SameRegs [Reg.SYN_RAMP_STAT_state.off] s t
    (s.syn.ramp = none → exec .rampAbort s = .next s ∧ exec .rampDone s = .next s) ∧
    (∀ r, s.syn.ramp = some r → stands .rampAbort false ∧ (r.segs = [] → stands .rampDone true) ∧
      (r.segs ≠ [] → exec .rampDone s = .next s)) ∧
    ∃ t d, exec .rampReturn s = .next t ∧ t.syn = { s.syn with ramp := some ⟨[(0, d)], now, 0⟩ } ∧
      s.rd Reg.SYN_RAMP_CTL_ret_laps ≤ d ∧ now.natAbs ≤ 4096 * d ∧
      (s.rd Reg.SYN_RAMP_CTL_ret_laps < d → 4096 * (d - 1) < now.natAbs) ∧
      t.rd Reg.SYN_RAMP_STAT_state = 1 ∧ t.rd Reg.SYN_RAMP_STAT_seg = 0 ∧
      t = { s with regs := t.regs, syn := t.syn } ∧ SameRegs [Reg.SYN_RAMP_STAT_state.off] s t) ∧
  (∀ s : State,
    (s.run = true → ∃ t, exec .syncInEdge s = .next t ∧ (t.reg Reg.SYN_EVENT_ev.off).getLsbD 8 = true ∧
      t.rd Reg.SYN_SYNC_COUNT_ignored = min (s.rd Reg.SYN_SYNC_COUNT_ignored + 1)
        (2 ^ Reg.SYN_SYNC_COUNT_ignored.width - 1) ∧
      t.rd Reg.SYN_SYNC_COUNT_accepted = s.rd Reg.SYN_SYNC_COUNT_accepted ∧
      Noticed [Reg.SYN_SYNC_COUNT_ignored.off, Reg.SYN_EVENT_ev.off] s t) ∧
    (s.run = false → s.on Reg.SYN_CFG_sync_en = true → ∃ t, exec .syncInEdge s = .next t ∧
      t.rd Reg.SYN_SYNC_COUNT_accepted = min (s.rd Reg.SYN_SYNC_COUNT_accepted + 1)
        (2 ^ Reg.SYN_SYNC_COUNT_accepted.width - 1) ∧
      t.rd Reg.SYN_SYNC_COUNT_ignored = s.rd Reg.SYN_SYNC_COUNT_ignored ∧
      t = { s with regs := t.regs, syn := { s.syn with divReset := true } } ∧
      SameRegs [Reg.SYN_SYNC_COUNT_accepted.off] s t) ∧
    (s.run = false → s.on Reg.SYN_CFG_sync_en = false → exec .syncInEdge s = .next s) ∧
    (s.syn.divReset = false → exec .dividerReset s = .next s) ∧
    (s.syn.divReset = true → ∃ t, exec .dividerReset s = .next t ∧
      t = { s with syn := { s.syn with divReset := false, resets := s.syn.resets + 1 } }))

/-- From R15, R286, R294, R325, R327, R328, R332, R333, R346: a change of the rate is refused or begun, gates the root and
restarts it; losses of lock and of XO_IN, the takeover by the spare, and the commands of a ring.
The cases that the rules leave open follow the model's choices (log entries 2, 44, 45). -/
def Obligations.RatesChangeAndTheRootIsGatedAndRestarts : Prop :=
  (∀ (s : State) (cyc : Nat),
    let fam := s.rd Reg.SYN_RATE_fam
    let mult := s.rd Reg.SYN_RATE_mult
    let refused := s.rdS Reg.SYN_RAMP_NOW_y ≠ 0 ∨ s.syn.ramp ≠ none ∨ s.syn.change ≠ none ∨ s.rateBusy = true ∨ s.epochBusy = true ∨
      (fam = s.syn.fam ∧ mult = s.syn.mult) ∨ (s.inRing = true ∧ s.isMaster = false)
    (refused → ∃ t, exec (.rateApply cyc) s = .next t ∧ t.rd Reg.SYN_RATE_CMD_reason = 3 ∧
      (t.reg Reg.SYN_EVENT_ev.off).getLsbD 9 = true ∧
      Noticed [Reg.SYN_RATE_CMD_reason.off, Reg.SYN_EVENT_ev.off] s t) ∧
    (¬refused → s.run = true → s.inRing = false → ∃ t, exec (.rateApply cyc) s = .next t ∧
      t.rd Reg.SYN_RATE_CMD_reason = 0 ∧ t.rd Reg.SYN_STATUS_prog = 1 ∧
      t.syn = { s.syn with change := some ⟨.fading, s.lap, fam, mult, fam != s.syn.fam, true, true⟩ } ∧
      (∀ p, p < 32 → s.pst p = 3 → t.pst p = 4 ∧ (t.aport p).stopAt = s.lap + 2 ∧ (t.aport p).resume = true) ∧
      (∀ p, p < 32 → s.pst p = 1 ∨ s.pst p = 2 → t.pst p = 5 ∧ (t.aport p).resume = true) ∧
      (∀ p, p < 32 → s.pst p = 0 ∨ s.pst p = 6 ∨ s.pst p = 7 → t.pst p = s.pst p) ∧
      (∀ c, (let fades := c ∈ s.net.ctx.map (·.1) ∧ 512 ≤ c ∧ (s.cst c = 1 ∨ s.cst c = 2)
            (fades → t.ctx c = { s.ctx c with stopAt := s.lap + 2 }) ∧ (¬fades → t.ctx c = s.ctx c))) ∧
      t = { s with regs := t.regs, syn := t.syn, port := { s.port with ports := t.port.ports },
                   net := { s.net with ctx := t.net.ctx } }) ∧
    (¬refused → s.run = true → s.inRing = true → ∃ t, exec (.rateApply cyc) s = .next t ∧
      t.rd Reg.SYN_RATE_CMD_reason = 0 ∧ SameRegs [Reg.SYN_RATE_CMD_reason.off] s t ∧
      t = { s with regs := t.regs, casc := { s.casc with acts := t.casc.acts, sendCmd := t.casc.sendCmd } } ∧
      t.casc.acts = s.casc.acts ++ [⟨.rate fam mult, s.lap + s.layout.h + 1⟩]) ∧
    (¬refused → s.run = false → fam = s.syn.fam → ∃ t, exec (.rateApply cyc) s = .next t ∧
      t.rd Reg.SYN_RATE_CMD_reason = 0 ∧ t.syn = { s.syn with mult := mult } ∧ t.time = s.time ∧
      (t.reg Reg.SYN_EVENT_ev.off).getLsbD 4 = true) ∧
    (¬refused → s.run = false → fam ≠ s.syn.fam → ∃ t, exec (.rateApply cyc) s = .next t ∧
      RootGated cyc s t ∧ RateInForce fam mult t ∧
      t.syn.change = some ⟨.gated, 0, fam, mult, true, false, (t.synth false).prog && (t.synth true).prog⟩ ∧
      Programmed fam false (s.bandTable false) t ∧ Programmed fam true (s.bandTable true) t)) ∧
  (∀ (s : State) (cyc : Nat) (c : RateChange), s.syn.change = some c →
    (c.step ≠ .fading ∨ s.lap < c.lap + s.fLap + 1 → exec (.rateGate cyc) s = .next s) ∧
    (c.step = .fading → c.lap + s.fLap + 1 ≤ s.lap → ∃ t, exec (.rateGate cyc) s = .next t ∧
      RootGated cyc s t ∧ RateInForce c.fam c.mult t ∧
      t.syn.change = some { c with step := .gated
                                   busy := c.busy && (!c.family || (t.synth false).prog && (t.synth true).prog) } ∧
      t.port = s.port ∧ t.net = s.net ∧ t.tile = s.tile ∧ t.vault = s.vault ∧
      (c.family = false → t.syn.a = s.syn.a ∧ t.syn.b = s.syn.b) ∧
      (c.family = true → Programmed c.fam false (s.bandTable false) t ∧ Programmed c.fam true (s.bandTable true) t))) ∧
  (∀ (s : State) (cyc : Nat), s.syn.change = none →
    exec (.rateGate cyc) s = .next s ∧ exec (.rateRestart cyc) s = .next s ∧ exec .programTimeout s = .next s) ∧
  (∀ (s : State) (cyc : Nat) (c : RateChange), s.syn.change = some c →
    let ready := (s.synth false).settled = true ∨ (s.synth true).settled = true
    (c.step = .gated ∧ ready → ∃ t, exec (.rateRestart cyc) s = .next t ∧
      t.syn.onRoot = true ∧ t.syn.change = none ∧ t.on Reg.SYN_STATUS_gated = false ∧ t.rd Reg.SYN_STATUS_prog = 0 ∧
      (t.synth t.activeSynth).settled = true ∧
      ((s.synth s.activeSynth).settled = true → t.activeSynth = s.activeSynth) ∧
      (t.reg Reg.SYN_EVENT_ev.off).getLsbD 4 = true ∧ t.lap = s.lap ∧ t.run = s.run ∧
      t.vault = { s.vault with slotReload := t.vault.slotReload, objReload := t.vault.objReload } ∧ t.tile.placed = s.tile.placed ∧
      (c.run = false → t.time = { s.time with clock := s.clockAt cyc, ticking := true } ∧ t.tile = s.tile ∧
        t.audio = s.audio ∧ t.port = s.port) ∧
      (c.run = true → s.inRing = false →
        t.time.clock = (((s.lap * s.nLap : Nat) + t.time.anchor) * (10 ^ 9 * 2 ^ 32) / s.fs).toNat ∧
        (s.clockAt cyc : Int) * s.fs ≤ ((s.lap * s.nLap : Nat) + t.time.anchor - 2 * s.nLap) * (10 ^ 9 * 2 ^ 32) ∧
        ((s.lap * s.nLap : Nat) + t.time.anchor - 1 - 2 * s.nLap) * (10 ^ 9 * 2 ^ 32) < (s.clockAt cyc : Int) * s.fs) ∧
      (c.run = true → (∀ o, s.tile.placed.has o = true →
          t.tile.cold.get false o = true ∧ t.vault.objReload.get false o = true) ∧
        (∀ p, p < 32 → s.pst p = 6 ∨ (1 ≤ s.pst p ∧ s.pst p ≤ 3) ∨ (4 ≤ s.pst p ∧ s.pst p ≤ 5 ∧ (s.aport p).resume = true) →
          t.pst p = 1) ∧
        t.dpll.rebuild = true)) ∧
    (c.step ≠ .gated ∨ ¬ready → exec (.rateRestart cyc) s = .next s) ∧
    (c.step = .gated → ¬ready → ∃ t, exec .programTimeout s = .next t ∧ (t.reg Reg.SYN_EVENT_ev.off).getLsbD 5 = true ∧
      Programmed s.syn.fam false (s.bandTable false) t ∧ Programmed s.syn.fam true (s.bandTable true) t ∧
      t = { s with regs := t.regs, host := t.host, outs := t.outs,
                   syn := { s.syn with a := t.syn.a, b := t.syn.b, change := some { c with busy := false } } }) ∧
    (c.step ≠ .gated ∨ ready → exec .programTimeout s = .next s)) ∧
  (∀ (s : State) (b : Bool) (cyc : Nat),
    let runs := b = s.activeSynth ∧ s.syn.onRoot = true
    let spare := s.on Reg.SYN_CFG_takeover_en = true ∧ (s.synth (!b)).settled = true
    let ev := (Reg.SYN_EVENT_ev.off, if b then 2 else 1)
    (s.on (lockBit b) = false → exec (.synthUnlock b cyc) s = .next s) ∧
    (s.on (lockBit b) = true → ¬runs → ∃ t, exec (.synthUnlock b cyc) s = .next t ∧ t.on (lockBit b) = false ∧
      t.synth b = { s.synth b with settled := false } ∧ t.synth (!b) = s.synth (!b) ∧
      (t.reg ev.1).getLsbD ev.2 = true ∧ t.syn.onRoot = s.syn.onRoot ∧
      (b ≠ s.activeSynth → (s.synth b).settled = true → (t.reg Reg.HLT_EVENT_ev.off).getLsbD 6 = true) ∧
      Noticed [Reg.SYN_STATUS_lock_a.off, Reg.HLT_ATTIC_synth.off, Reg.SYN_EVENT_ev.off, Reg.HLT_EVENT_ev.off]
        { s with syn := t.syn, pads := { s.pads with synLock := t.pads.synLock } } t) ∧
    (s.on (lockBit b) = true → runs → spare → ∃ t, exec (.synthUnlock b cyc) s = .next t ∧
      t.activeSynth = (!b) ∧ t.synth b = ⟨false, false, true⟩ ∧ t.synth (!b) = s.synth (!b) ∧
      t.on (lockBit b) = false ∧ (t.reg ev.1).getLsbD ev.2 = true ∧ (t.reg Reg.SYN_EVENT_ev.off).getLsbD 0 = true ∧
      t.rd Reg.SYN_STATUS_spare_ok = 0 ∧ t.pads.synLock = (s.on (lockBit (!b)) && !s.on Reg.SYN_STATUS_gated) ∧
      (s.run = true → t.syn.zeroLap = s.lap + 1) ∧ (∀ e ∈ t.port.outNext, ∀ v ∈ e.2, v = 0) ∧
      t.time = s.time ∧ t.lap = s.lap ∧ t.tile = s.tile ∧ t.audio = s.audio ∧ t.vault = s.vault ∧ t.net = s.net ∧
      t.syn.ramp = s.syn.ramp) ∧
    (s.on (lockBit b) = true → runs → ¬spare → ∃ t, exec (.synthUnlock b cyc) s = .next t ∧
      (t.reg ev.1).getLsbD ev.2 = true ∧
      (s.syn.change = none → RootFails s.syn.fam s.syn.mult cyc s.run s t) ∧
      (∀ c, s.syn.change = some c → RootFails c.fam c.mult cyc c.run s t))) ∧
  (∀ (s : State) (cyc : Nat), ∃ t, exec (.xoInLoss cyc) s = .next t ∧ t.syn.xo = false ∧
    t.on Reg.SYN_STATUS_lock_a = false ∧ t.on Reg.SYN_STATUS_lock_b = false ∧ t.pads.synLock = false ∧
    (s.syn.onRoot = false → t.time = s.time ∧ t.port = s.port) ∧
    (s.syn.onRoot = true → (s.syn.change = none → RootFails s.syn.fam s.syn.mult cyc s.run s t) ∧
      ∀ c, s.syn.change = some c → RootFails c.fam c.mult cyc c.run s t)) ∧
  (∀ s : State,
    let waits := s.syn.change ≠ none ∨ s.rd Reg.COR_BOOT_state = 2
    (s.syn.xo = true → exec .xoInReturn s = .next s) ∧
    (s.syn.xo = false → ¬waits → exec .xoInReturn s = .next { s with syn := { s.syn with xo := true } }) ∧
    (s.syn.xo = false → waits → ∃ t, exec .xoInReturn s = .next t ∧
      Programmed s.syn.fam false (s.bandTable false) t ∧ Programmed s.syn.fam true (s.bandTable true) t ∧
      t = { s with regs := t.regs, host := t.host, outs := t.outs,
                   syn := { s.syn with
                     xo := true, a := t.syn.a, b := t.syn.b
                     change := s.syn.change.map (fun c =>
                       { c with busy := c.busy && ((t.synth false).prog && (t.synth true).prog) }) } })) ∧
  (∀ s : State,
    let later := s.casc.acts.filter (fun a => decide (s.lap < a.lap))
    (later = s.casc.acts → exec .ringCommandAction s = .next s) ∧
    (∀ a, s.casc.acts.filter (fun a => decide (a.lap ≤ s.lap)) = [a] →
      ∃ t, exec .ringCommandAction s = .next t ∧ t.casc.acts = later ∧
        (∀ j r, a.cmd = .acceptEpoch j r → t.time.epoch = some ⟨s.lap + 1 + s.fLap, j, r, s.isMaster⟩ ∧
          t.on Reg.TIM_STATUS_epoch_pending = true) ∧
        (∀ fam mult, a.cmd = .rate fam mult → t.rd Reg.SYN_STATUS_prog = 1 ∧
          t.syn.change = some ⟨.fading, s.lap, fam, mult, fam != s.syn.fam, true, true⟩) ∧
        (a.cmd = .measure → ∀ p, p < 2 → t.cport p = { s.cport p with
          measuring := (s.cport p).measuring || (s.cport p).trained })))

/-! ### The cascade ring (chapter 17) -/

/-- From R336 to R340, R346, R347: the self-test, the bypass, links and their delays, lanes, and the loss of the master.
The cases that the rules leave open follow the model's choices (log entries 2, 9, 39, 64). -/
def Obligations.TheRingIsEnteredAndLeft : Prop :=
  (∀ s : State,
    (s.cstate ≠ 0 → s.cstate ≠ 5 → exec .cascadeEnable s = .next s) ∧
    (s.cstate = 0 ∨ s.cstate = 5 → ∃ t, exec .cascadeEnable s = .next t ∧ t.cstate = 1 ∧
      t.casc = { CascSt.reset with pos := s.rd Reg.EXL_CFG_pos, layoutMute := s.casc.layoutMute } ∧
      (∀ p, p < 2 → t.on (Reg.EXL_PORT_protected p) = true ∧ t.rd (Reg.EXL_PORT_failed_lane p) = 3) ∧
      t = { s with regs := t.regs, casc := t.casc } ∧
      t.on Reg.HLT_ATTIC_lane_e = true ∧ t.on Reg.HLT_ATTIC_lane_w = true ∧
      SameRegs [Reg.EXL_STATUS_state.off, (Reg.EXL_PORT_lock 0).off, (Reg.EXL_PORT_lock 1).off, Reg.HLT_ATTIC_lane_e.off] s t)) ∧
  (∀ (s : State) (pass : Bool),
    (s.cstate ≠ 1 → exec (.selfTestDone pass) s = .next s) ∧
    (s.cstate = 1 → ∃ t, exec (.selfTestDone pass) s = .next t ∧ SameRegs [Reg.EXL_STATUS_state.off] s t ∧
      t = { s with regs := t.regs, pads := t.pads } ∧ (pass = true → t.cstate = 2 ∧ t.pads = s.pads) ∧
      (pass = false → t.cstate = 5 ∧ t.pads = { s.pads with thruLow := false } ∧ t.on Reg.EXL_STATUS_thru = false))) ∧
  (∀ s : State,
    (s.cstate ≠ 2 → exec .cascadeInsert s = .next s) ∧
    (s.cstate = 2 → ∃ t, exec .cascadeInsert s = .next t ∧ t.cstate = 3 ∧ SameRegs [Reg.EXL_STATUS_state.off] s t ∧
      t = { s with regs := t.regs, casc := { s.casc with pinPend := some (true, s.lap) } }) ∧
    (s.cstate ≠ 3 → s.cstate ≠ 4 → exec .cascadeWithdraw s = .next s) ∧
    (s.cstate = 3 ∨ s.cstate = 4 → exec .cascadeWithdraw s =
      .next { s with casc := { s.casc with pinPend := some (false, s.lap) } }) ∧
    (s.cstate = 0 → exec .cascadeDisable s = .next s) ∧
    (s.cstate ≠ 0 → ∃ t, exec .cascadeDisable s = .next t ∧ StandsAlone 0 s t) ∧
    (s.casc.pinPend = none → exec .bypassSwitch s = .next s) ∧
    (∀ low lap, s.casc.pinPend = some (low, lap) →
      (s.run = true → s.lap ≤ lap → exec .bypassSwitch s = .next s) ∧
      (s.run = false ∨ lap < s.lap → low = false → ∃ t, exec .bypassSwitch s = .next t ∧ StandsAlone 2 s t) ∧
      (s.run = false ∨ lap < s.lap → low = true → ∃ t, exec .bypassSwitch s = .next t ∧
        t.pads = { s.pads with thruLow := true } ∧ t.on Reg.EXL_STATUS_thru = true ∧ t.cstate = s.cstate ∧
        LinkBroken 0 s t ∧ LinkBroken 1 s t ∧
        t.casc = { s.casc with pinPend := none, ports := t.casc.ports } ∧
        (∀ q, q < 8 → (s.linkUp 0 = true → t.hopsVia 0 q = none) ∧ (s.linkUp 1 = true → t.hopsVia 1 q = none)) ∧
        CascNotice (linkRegs 0 ++ linkRegs 1) { s with pads := t.pads } t)) ∧
    (¬(s.inRing = true ∧ s.isMaster = true) → exec .cascadeMeasure s = .next s) ∧
    (s.inRing = true → s.isMaster = true → ∃ t, exec .cascadeMeasure s = .next t ∧
      t = { s with casc := { s.casc with acts := t.casc.acts, sendCmd := t.casc.sendCmd } } ∧
      t.casc.acts = s.casc.acts ++ [⟨.measure, s.lap + s.layout.h + 1⟩] ∧
      t.casc.sendCmd = s.casc.sendCmd ++ [⟨.measure, s.lap + s.layout.h + 1⟩])) ∧
  (∀ (s : State) (p nbr : Nat) (map : List CascHop), p < 2 → nbr < 8 → map.length = 8 →
    let reached (q : Nat) := q ≠ s.casc.pos ∧ ∃ e, map[q]? = some e ∧ (e.east.isSome = true ∨ e.west.isSome = true)
    (s.cstate ≠ 3 → s.cstate ≠ 4 → exec (.linkTrained p nbr map) s = .next s) ∧
    (s.cstate = 3 ∨ s.cstate = 4 → ∃ t, exec (.linkTrained p nbr map) s = .next t ∧
      t.linkUp p = false ∧ (t.cport p).trained = true ∧ (t.cport p).measured = false ∧ (t.cport p).measuring = true ∧
      (t.cport p).failed = [] ∧ t.rd (Reg.EXL_PORT_lock p) = 7 ∧ t.on (Reg.EXL_PORT_protected p) = true ∧
      t.neighbour p = some nbr ∧ t.cport (1 - p) = s.cport (1 - p) ∧
      (s.linkUp p = true → (t.reg Reg.EXL_EVENT_ev.off).getLsbD 1 = true ∧
        (t.reg Reg.EXL_EVENT_ev.off).getLsbD 3 = true) ∧
      (∀ q e, map[q]? = some e → (∀ h, e.east = some h → h < 8 → t.hopsVia 0 q = some h) ∧
        (∀ h, e.west = some h → h < 8 → t.hopsVia 1 q = some h) ∧ (e.east = none → t.hopsVia 0 q = none) ∧
        (e.west = none → t.hopsVia 1 q = none)) ∧
      (∃ l : List Nat, l.Nodup ∧ (∀ q, q ∈ l ↔ reached q) ∧ t.rd Reg.EXL_STATUS_members = l.length + 1) ∧
      (t.on Reg.EXL_STATUS_topo = true ↔
        ∃ q e, reached q ∧ map[q]? = some e ∧ (e.east = none ∨ e.west = none)) ∧
      (s.layout.h < t.rd Reg.EXL_STATUS_h_need → (t.reg Reg.EXL_EVENT_ev.off).getLsbD 4 = true) ∧
      t = { s with regs := t.regs, outs := t.outs, host := t.host, casc := { s.casc with ports := t.casc.ports } })) ∧
  (∀ (s : State) (p : Nat) (l : List (Nat × Nat)), p < 2 → l.length = 16 →
    let x := s.cport p
    let sum := l.foldl (fun a e => a + (e.1 - e.2)) 0
    let hop := min ((sum + 16) / 32) 65535
    (¬(x.trained = true ∧ x.measuring = true) → exec (.hopMeasureDone p l) s = .next s) ∧
    (x.trained = true → x.measuring = true → ∃ t, exec (.hopMeasureDone p l) s = .next t ∧
      t.rd (Reg.EXL_HOP_ns p) = hop ∧ t.cport p = { x with measured := true, measuring := false } ∧
      t.cport (1 - p) = s.cport (1 - p) ∧
      (16000 < hop → t.linkUp p = false ∧ (t.reg Reg.EXL_EVENT_ev.off).getLsbD 11 = true ∧ t.cstate = s.cstate ∧
        (s.linkUp p = true → (t.reg Reg.EXL_EVENT_ev.off).getLsbD 3 = true ∧ ∀ q, q < 8 → t.hopsVia p q = none)) ∧
      (hop ≤ 16000 → t.linkUp p = true ∧
        (s.linkUp p = false → (t.reg Reg.EXL_EVENT_ev.off).getLsbD 2 = true ∧
          (t.reg Reg.EXL_EVENT_ev.off).getLsbD 3 = true) ∧
        (s.linkUp p = false → s.cstate = 3 → s.pads.thruLow = true → t.inRing = true ∧
          (s.on Reg.EXL_CFG_master = true → s.casc.pos < 8 → t.isMaster = true)) ∧
        (s.linkUp p = true → t.cstate = s.cstate)) ∧
      (let joins := hop ≤ 16000 ∧ s.linkUp p = false ∧ s.cstate = 3 ∧ s.pads.thruLow = true
       (¬joins ∨ (s.allocHeld 6 0).isSome = true → t.fab = s.fab) ∧
       (joins → s.allocHeld 6 0 = none → (t.fab = s.fab ∧ firstFit s.usedRuns Config.linkShelves = none) ∨
         ∃ a, t.fab.allocs = s.fab.allocs ++ [a] ∧ a.kind = 6 ∧ a.index = 0 ∧ a.count = Config.linkShelves ∧
           firstFit s.usedRuns Config.linkShelves = some a.first ∧ a.twin = none)) ∧
      t = { s with fab := t.fab, regs := t.regs, outs := t.outs, host := t.host
                   casc := { s.casc with ports := t.casc.ports } })) ∧
  (∀ (s : State) (p lane : Nat), p < 2 → lane < 3 →
    let x := s.cport p
    let locked := (s.rd (Reg.EXL_PORT_lock p)).testBit lane
    (locked = false → exec (.laneLockLoss p lane) s = .next s) ∧
    (locked = true → ∃ t, exec (.laneLockLoss p lane) s = .next t ∧ (t.cport p).dropLap = s.lap + 1 ∧
      (t.rd (Reg.EXL_PORT_lock p)).testBit lane = false ∧ (t.cport p).failed.get false lane = true ∧
      (x.failed.get false lane = false → t.on (Reg.EXL_PORT_protected p) = false ∧
        t.rd (Reg.EXL_PORT_failed_lane p) = lane ∧ (t.reg Reg.EXL_EVENT_ev.off).getLsbD 0 = true ∧
        t.on (if p = 0 then Reg.HLT_ATTIC_lane_e else Reg.HLT_ATTIC_lane_w) = false ∧
        (t.reg Reg.HLT_EVENT_ev.off).getLsbD 6 = true ∧
        (s.health.faults.length < 3 → t.health.faults = s.health.faults ++ [⟨s.lap, 0x0800, p, lane⟩])) ∧
      (x.failed = [] → t.linkUp p = s.linkUp p) ∧
      (x.failed ≠ [] → x.failed.get false lane = false → t.linkUp p = false ∧ (t.cport p).trained = false ∧
        (s.linkUp p = true → (t.reg Reg.EXL_EVENT_ev.off).getLsbD 1 = true)) ∧
      t.cport (1 - p) = s.cport (1 - p) ∧
      CascNotice (linkRegs p ++ [Reg.HLT_ATTIC_lane_e.off, Reg.HLT_EVENT_ev.off]) { s with health := t.health } t)) ∧
  (∀ s : State,
    let lost := s.inRing = true ∧ s.isMaster = false ∧ s.on Reg.EXL_STATUS_master_ok = true ∧ s.casc.heard + 16 ≤ s.lap
    (¬lost → exec .masterTimeout s = .next s) ∧
    (lost → ∃ t, exec .masterTimeout s = .next t ∧ t.vault.forwards = [] ∧
      t.vault = { s.vault with forwards := [] } ∧ t.lap = s.lap ∧ t.time = s.time ∧ t.audio = s.audio ∧
      (s.vault.forwards ≠ [] → t.rd Reg.VLT_COMMIT_STATUS_code = 0x28 ∧
        (t.reg Reg.VLT_EVENT_ev.off).getLsbD 1 = true) ∧
      (s.on Reg.EXL_CFG_backup = false → t.on Reg.EXL_STATUS_master_ok = false ∧ t.casc = s.casc) ∧
      (s.on Reg.EXL_CFG_backup = true → s.casc.pos < 8 → t.isMaster = true ∧
        t.rd Reg.EXL_STATUS_master_pos = s.casc.pos ∧ (t.reg Reg.EXL_EVENT_ev.off).getLsbD 9 = true ∧
        t.casc = { s.casc with sendBatons := t.casc.sendBatons } ∧
        t.casc.sendBatons.map (fun b => (b.mask, b.lap)) = s.vault.arms.map (fun a => (a.mask, a.lap)))))

/-- From R336, R341 to R346 and R365: a frame carries this engine's items and what the opposite port received; a received frame is
checked, its items are taken from the nearer direction and passed on, its control message is obeyed, and an engine that has
not started takes its clock from the marker.
The cases that the rules leave open follow the model's choices (log entries 6, 39, 54). -/
def Obligations.CascadeFramesAreSentAndReceived : Prop :=
  (∀ s : State,
    (¬(s.run = true ∧ s.inRing = true) → exec .cascFrameSend s = .next s) ∧
    (s.run = true → s.inRing = true → ∃ t, exec .cascFrameSend s = .next t ∧ ∃ f : Nat → CascFrame,
      t.outs = s.outs ++ ([0, 1].filter s.linkUp).map (fun p => Out.casc p (f p)) ∧
      (∀ p, p < 2 →
        let r := (s.cport (1 - p)).relay
        (f p).pos = s.casc.pos ∧ (f p).lap = s.lap ∧ (f p).time = s.time.clock ∧
        (f p).parts = s.casc.partOut.map (fun e => ⟨s.casc.pos, e.1, e.2⟩) ++ r.parts ∧
        (f p).chans = s.casc.chanOut.map (fun e => ⟨e.1, e.2⟩) ++ r.chans ∧
        (f p).ctrl.layout = (s.reg Reg.GRF_LAYOUT_LIVE_in_ins.off).toNat ∧ (f p).ctrl.chown = s.chownSum ∧
        (s.isMaster = false → (f p).ctrl.master = r.master ∧ (f p).batons = r.batons) ∧
        (s.isMaster = true → (∃ l, (f p).batons = l ++ r.batons ∧ l.length ≤ 8 ∧
            (∀ b ∈ l, b ∈ s.casc.sendBatons ∧ (b.op = .arm → s.lap + 2 ≤ b.lap)) ∧
            ∀ b ∈ s.casc.sendBatons, (b.op = .arm → s.lap + 2 ≤ b.lap) → b ∈ l ∨ (l.length = 8 ∧ b ∈ t.casc.sendBatons)) ∧
          ∃ m, (f p).ctrl.master = some m ∧ m.pos = s.casc.pos ∧ m.anchor = s.time.anchor ∧ m.gen = s.vault.gen ∧
            m.piece = s.lap % 16 ∧ m.cmd = s.casc.sendCmd ∧ m.startLap = s.lap + s.layout.h + 1 ∧ m.gens.length = 4 ∧
            ∀ i, i < 4 → m.gens[i]? = some (s.vault.gGen.get 0 (4 * (s.lap % 16) + i)))) ∧
      t.casc.partOut = [] ∧ t.casc.chanOut = [] ∧ t.casc.sendCmd = [] ∧
      (∀ p, p < 2 → t.cport p = { s.cport p with relay := Relay.none }) ∧
      t = { s with outs := t.outs, casc := t.casc })) ∧
  (∀ (s : State) (p : Nat) (f : CascFrame) (crcBad : List Nat), p < 2 →
    let bad := (List.range 3).filter (fun i => crcBad.contains i)
    let missing := (List.range 3).filter (fun i => crcBad.contains i || (s.cport p).failed.get false i)
    let gone := s.run = true ∧ (s.cport p).dropLap = s.lap + 1
    let lost := 2 ≤ missing.length ∨ gone
    let tables := f.ctrl.chown = s.chownSum
    (¬(s.inRing = true ∧ s.linkUp p = true) → exec (.cascFrameReceive p f crcBad) s = .next s) ∧
    (s.inRing = true → s.linkUp p = true → (∀ i, (s.cport p).crcRun.get 0 i < 3) →
      ∃ t, exec (.cascFrameReceive p f crcBad) s = .next t ∧
      t = { s with regs := t.regs, outs := t.outs, audio := t.audio, vault := t.vault, host := t.host, casc := t.casc
                   time := t.time, dpll := t.dpll } ∧
      (gone → t = s) ∧
      (¬gone → bad ≠ [] → (t.reg Reg.EXL_EVENT_ev.off).getLsbD 6 = true) ∧
      (¬gone → (t.cport p).gotLap = s.lap + 1 ∧ t.rd (Reg.EXL_CRC_count p) =
        (if bad.length = 1 then min (s.rd (Reg.EXL_CRC_count p) + 1) (2 ^ 32 - 1) else s.rd (Reg.EXL_CRC_count p)) ∧
        ∀ i, i < 3 → (t.cport p).crcRun.get 0 i = if crcBad.contains i then (s.cport p).crcRun.get 0 i + 1 else 0) ∧
      (lost ∨ (s.run = true ∧ f.lap ≠ s.lap) → t.audio = s.audio ∧ t.vault = s.vault ∧
        t.casc = { s.casc with ports := t.casc.ports } ∧ (t.cport p).got = (s.cport p).got) ∧
      (¬lost → s.run = true → f.lap ≠ s.lap → (t.reg Reg.EXL_EVENT_ev.off).getLsbD 10 = true) ∧
      (¬lost → s.run = true → f.lap = s.lap →
        (¬tables → (t.reg Reg.EXL_EVENT_ev.off).getLsbD 8 = true) ∧
        (t.cport p).got.parts = f.parts.filter (fun i => s.passesOn p i.origin) ∧
        (t.cport p).got.chans = f.chans.filter (fun i => decide (i.chan < s.ringChans) &&
          (match s.chanOwner i.chan with
            | none => false
            | some q => s.passesOn p q)) ∧
        ((∀ k ∈ f.parts, k.origin < 8 ∧ k.bus < 256) →
          f.parts.Pairwise (fun a b => (a.origin, a.bus) ≠ (b.origin, b.bus)) →
          ∀ k ∈ f.parts, ∀ h j v, s.takenFrom p k.origin = true → s.hopsVia p k.origin = some h → k.bus < s.nBus →
            j < s.nLap → k.vals[j]? = some v → t.audio.ePart.get 0 (ePartKey (s.lap - h) k.origin k.bus j) = v) ∧
        (f.chans.Pairwise (fun a b => a.chan ≠ b.chan) →
          ∀ k ∈ f.chans, ∀ q h, k.chan < s.ringChans → s.chanOwner k.chan = some q → (q = f.pos → tables) →
            s.takenFrom p q = true → s.hopsVia p q = some h →
            t.casc.chanHist.get [] (chanKey (s.lap + s.layout.h - h) k.chan) = k.vals.take s.nLap) ∧
        (¬tables → ∀ lap ch, ch < 2048 → s.chanOwner ch = some f.pos →
          t.casc.chanHist.get [] (chanKey lap ch) = s.casc.chanHist.get [] (chanKey lap ch)) ∧
        (s.isMaster = true → f.ctrl.refused = [] → t.vault.requests = s.vault.requests ++ f.ctrl.forwards) ∧
        (s.isMaster = false → t.casc.sendForwards = s.casc.sendForwards ++ f.ctrl.forwards ∧
          ∀ m, f.ctrl.master = some m → t.casc.heard = s.lap + 1 ∧
            (s.portToward m.pos = some p → m.pos < 8 → t.rd Reg.EXL_STATUS_master_pos = m.pos ∧
              t.on Reg.EXL_STATUS_master_ok = true ∧ t.casc.ringAnchor = some (m.anchor, m.startLap) ∧
              (∀ c ∈ m.cmd, c ∈ t.casc.acts) ∧
              (s.casc.ringAnchor ≠ none → s.rd Reg.EXL_STATUS_master_pos ≠ m.pos →
                (t.reg Reg.EXL_EVENT_ev.off).getLsbD 9 = true)))) ∧
      (¬lost → s.run = false → t.audio = s.audio ∧ ∀ m, s.isMaster = false → f.ctrl.master = some m → m.pos < 8 →
        t.rd Reg.EXL_STATUS_master_pos = m.pos ∧ t.casc.ringAnchor = some (m.anchor, m.startLap) ∧
        t.casc.heard = s.lap + 1) ∧
      (let sets := ¬lost ∧ s.run = false ∧ t.isMaster = false ∧ s.on Reg.TIM_CFG_no_autoset = false ∧
         s.casc.clockSet = false ∧ ∃ k, k < 9 ∧ bitAt (s.rd (Reg.SCH_SVC_affinity 2)) k = true ∧ s.runnerRuns k = true
       (sets → t.time.clock = f.time + s.sendOffset.toNat * 65536 + s.rd (Reg.EXL_HOP_ns p) * 2 ^ 32 ∧
         t.casc.clockSet = true) ∧
       (¬sets → t.time = s.time ∧ t.dpll = s.dpll ∧ t.casc.clockSet = s.casc.clockSet)))) ∧
  (∀ (s : State) (p : Nat), p < 2 →
    let absent := s.run = true ∧ s.inRing = true ∧ s.linkUp p = true ∧ (s.cport p).gotLap ≠ s.lap + 1 ∧ (s.cport p).dropLap ≠ s.lap + 1
    (¬absent → exec (.cascFrameLate p) s = .next s) ∧
    (absent → ∃ t, exec (.cascFrameLate p) s = .next t ∧
      t.cport p = { s.cport p with dropLap := s.lap + 1, crcRun := [] } ∧ t.cport (1 - p) = s.cport (1 - p) ∧
      t.rd (Reg.EXL_LATE_count p) = min (s.rd (Reg.EXL_LATE_count p) + 1) (2 ^ 32 - 1) ∧
      (t.reg Reg.EXL_EVENT_ev.off).getLsbD 5 = true ∧
      Noticed [Reg.EXL_EVENT_ev.off, (Reg.EXL_LATE_count p).off] { s with casc := { s.casc with ports := t.casc.ports } } t))

/-! ### The scheduler, the cores and trust (chapter 18) -/

/-- From R359 to R366: every operation of the scheduler, the delay list and the window of the statistics.
The cases that the rules leave open follow the model's choices (log entries 9, 49). -/
def Obligations.RunnersTakeAndFinishTasks : Prop :=
  (∀ (s : State) (t j : Nat), s.longestBlocked t = some j ↔
    j < 9 ∧ (s.runner j).inTake.isSome = true ∧ s.serves j t = true ∧
      ∀ i, i < 9 → (s.runner i).inTake.isSome = true → s.serves i t = true →
        (s.runner j).inTake.getD 0 < (s.runner i).inTake.getD 0 ∨
          ((s.runner j).inTake.getD 0 = (s.runner i).inTake.getD 0 ∧ j ≤ i)) ∧
  (∀ (s : State) (cyc k t cls d l : Nat), k < 9 → t < 4096 → cls < 16 → l < 256 → ¬Issues k s →
    ∀ c ∈ [Instr.setup cyc k t cls, .release cyc k t, .ready cyc k t, .delay cyc k t d, .cancel cyc k t,
      .take cyc k, .done cyc k t, .grab cyc k l, .drop cyc k l], exec c s = .next s) ∧
  (∀ (s : State) (cyc k t cls : Nat), k < 9 → t < 4096 → cls < 16 → Issues k s →
    let x := s.task t
    let c := Instr.setup cyc k t cls
    let r := Instr.release cyc k t
    (x.st = .unused → OpDone cyc k c s (fun u => TaskBecomes t { x with st := .idle, cls := cls } s u ∧
      u.rd Reg.SCH_STATUS_tasks = (s.rd Reg.SCH_STATUS_tasks + 1) % 2 ^ 13)) ∧
    (x.st = .idle → OpDone cyc k c s (fun u => TaskBecomes t { x with cls := cls } s u)) ∧
    (x.st ≠ .unused → x.st ≠ .idle → OpRefused cyc k c s) ∧
    (x.st = .idle → OpDone cyc k r s (fun u => TaskBecomes t Task.unused s u ∧
      u.rd Reg.SCH_STATUS_tasks = s.rd Reg.SCH_STATUS_tasks - 1)) ∧
    (x.st ≠ .idle → OpRefused cyc k r s)) ∧
  (∀ (s : State) (cyc k t : Nat), k < 9 → t < 4096 → Issues k s → (∀ q, t ∉ s.queue q) →
    let x := s.task t
    let now := max s.sched.cycle cyc
    let c := Instr.ready cyc k t
    (x.st = .unused → OpRefused cyc k c s) ∧
    (x.st = .idle → x.cancelAt ≠ now + 1 → OpDone cyc k c s (BecomesReady t x s)) ∧
    (x.st = .idle → x.cancelAt = now + 1 → OpDone cyc k c s (fun u => u.sched.tasks = s.sched.tasks ∧
      u.rd Reg.SCH_CANCEL_ARR_count = min (s.rd Reg.SCH_CANCEL_ARR_count + 1) (2 ^ 32 - 1) ∧
      (u.reg Reg.SCH_EVENT_ev.off).getLsbD 2 = true)) ∧
    (x.st = .delayed → OpDone cyc k c s (fun u => BecomesReady t x s u ∧
      u.sched.delays = s.sched.delays.erase t)) ∧
    (x.st = .running → OpDone cyc k c s (TaskBecomes t { x with again := true } s)) ∧
    (x.st = .running → x.again = true → OpDone cyc k (.done cyc k t) s
      (BecomesReady t { x with again := false, doneAt := now + 1 } s)) ∧
    (x.st = .running → x.again = false → OpDone cyc k (.done cyc k t) s
      (TaskBecomes t { x with st := .idle, doneAt := now + 1 } s)) ∧
    (x.st ≠ .running → OpRefused cyc k (.done cyc k t) s)) ∧
  (∀ (s : State) (cyc k t : Nat), k < 9 → t < 4096 → Issues k s → (s.task t).st = .ready →
    OpDone cyc k (.ready cyc k t) s (fun u => u.sched = { s.sched with cycle := max s.sched.cycle cyc })) ∧
  (∀ (s : State) (cyc k t d : Nat), k < 9 → t < 4096 → Issues k s →
    let x := s.task t
    let c := Instr.delay cyc k t d
    let free := x.st = .idle ∧ x.doneAt ≠ max s.sched.cycle cyc + 1
    (¬(free ∧ 1 ≤ d ∧ d ≤ 65535) → OpRefused cyc k c s) ∧
    (free → 1 ≤ d → d ≤ 65535 → t ∉ s.sched.delays → OpDone cyc k c s (fun u =>
      TaskBecomes t { x with st := .delayed, due := s.lap + d } s u ∧
      ∃ a b, s.sched.delays = a ++ b ∧ u.sched.delays = a ++ t :: b ∧ (∀ y ∈ a, (s.task y).due ≤ s.lap + d) ∧
        ∀ y r, b = y :: r → s.lap + d < (s.task y).due))) ∧
  (∀ (s : State) (cyc k t : Nat), k < 9 → t < 4096 → Issues k s →
    let x := s.task t
    let now := max s.sched.cycle cyc
    let same := x.readyAt = now + 1
    let arrived := same ∧ x.doneAt ≠ now + 1
    let counts (u : State) := u.rd Reg.SCH_CANCEL_ARR_count = min (s.rd Reg.SCH_CANCEL_ARR_count + 1) (2 ^ 32 - 1) ∧
      (u.reg Reg.SCH_EVENT_ev.off).getLsbD 2 = true
    let quiet (u : State) := u.rd Reg.SCH_CANCEL_ARR_count = s.rd Reg.SCH_CANCEL_ARR_count
    let c := Instr.cancel cyc k t
    (x.st = .unused → OpRefused cyc k c s) ∧
    (x.st = .idle → ∃ u, exec c s = .next u ∧ (u.runner k).refused = true ∧ SchedOnly s u ∧ u.sched.cycle = now ∧ quiet u ∧
      TaskBecomes t { x with cancelAt := now + 1, due := if x.cancelAt = now + 1 then x.due else 0 } s u) ∧
    (x.st = .ready → OpDone cyc k c s (fun u =>
      TaskBecomes t { x with st := .idle, again := false, due := 0, cancelAt := now + 1 } s u ∧
      u.queue x.prio = (s.queue x.prio).erase t ∧ (arrived → counts u) ∧ (¬arrived → quiet u))) ∧
    (x.st = .delayed → OpDone cyc k c s (fun u =>
      TaskBecomes t { x with st := .idle, again := false, cancelAt := now + 1 } s u ∧
      u.sched.delays = s.sched.delays.erase t ∧ quiet u)) ∧
    (x.st = .running → ¬(same ∧ x.again = false) → OpDone cyc k c s (fun u =>
      TaskBecomes t { x with again := false, cancelAt := now + 1 } s u ∧ quiet u)) ∧
    (x.st = .running → same → x.again = false → OpDone cyc k c s (fun u =>
      TaskBecomes t { x with st := .idle, due := 0, cancelAt := now + 1 } s u ∧ (arrived → counts u) ∧
      (¬arrived → quiet u) ∧ (u.runner x.runner).inTake = some now))) ∧
  (∀ (s : State) (cyc k : Nat), k < 9 → Issues k s →
    let now := max s.sched.cycle cyc
    let none_ := ∀ p, p < 64 → ∀ y ∈ s.queue p, s.serves k y = false
    (∀ p a x b, p < 64 → s.queue p = a ++ x :: b → s.serves k x = true → (s.task x).prio = p →
      (∀ y ∈ a, s.serves k y = false) → (∀ q, q < p → ∀ y ∈ s.queue q, s.serves k y = false) →
      OpDone cyc k (.take cyc k) s (fun u => TaskBecomes x { s.task x with st := .running, runner := k } s u ∧
        u.queue p = a ++ b ∧ (∀ q, q ≠ p → u.queue q = s.queue q) ∧ (u.runner k).inTake = none)) ∧
    (none_ → (s.schedAt cyc).laterTaker k = none → OpDone cyc k (.take cyc k) s (fun u =>
      (u.runner k).inTake = some now ∧ u.sched = { s.sched with cycle := now } ∧
      (u.rd Reg.SCH_STATUS_blocked).testBit k = true)) ∧
    (∀ j, none_ → (s.schedAt cyc).laterTaker k = some j → OpDone cyc k (.take cyc k) s (fun u =>
      let x := (s.runner j).took
      k < j ∧ (s.task x).st = .running ∧ (s.task x).runner = j ∧ s.serves k x = true ∧
        TaskBecomes x { s.task x with runner := k } s u ∧ (u.runner j).inTake = some now ∧ (u.runner k).inTake = none ∧
        (u.runner k).took = x))) ∧
  (∀ (s : State) (cyc k l : Nat), k < 9 → l < 256 → Issues k s →
    let x := s.lock l
    let now := max s.sched.cycle cyc
    let others (u : State) := ∀ j, j ≠ l → u.lock j = s.lock j
    (x.holder = none → OpDone cyc k (.grab cyc k l) s (fun u => u.lock l = ⟨some k, [], false⟩ ∧ others u ∧
      (u.runner k).inGrab = none)) ∧
    (x.holder ≠ none → OpDone cyc k (.grab cyc k l) s (fun u => u.lock l = { x with waiters := x.waiters ++ [k] } ∧
      others u ∧ (u.runner k).inGrab = some now)) ∧
    (x.holder ≠ some k → OpRefused cyc k (.drop cyc k l) s) ∧
    (x.holder = some k → x.waiters = [] → OpDone cyc k (.drop cyc k l) s (fun u =>
      u.lock l = Lock.free ∧ others u)) ∧
    (∀ j r, x.holder = some k → x.waiters = j :: r → OpDone cyc k (.drop cyc k l) s (fun u =>
      u.lock l = ⟨some j, r, false⟩ ∧ others u ∧ (u.runner j).inGrab = none))) ∧
  (∀ (s : State) (cyc : Nat), Tbl.wf Task.unused s.sched.tasks = true → s.sched.delays.Nodup → (∀ t ∈ s.sched.delays, (s.task t).st = .delayed) →
    ∃ u, exec (.delayDue cyc) s = .next u ∧ SchedOnly s u ∧ u.sched.cycle = max s.sched.cycle cyc ∧
      u.sched.delays = s.sched.delays.filter (fun t => decide (s.lap < (s.task t).due)) ∧
      (∀ t ∈ s.sched.delays, (s.task t).due ≤ s.lap →
        ((u.task t).st = .ready ∨ (u.task t).st = .running) ∧ (u.task t).cls = (s.task t).cls) ∧
      (∀ t ∈ s.sched.delays, s.lap < (s.task t).due → u.task t = s.task t) ∧
      ((∀ e ∈ s.sched.tasks, e.2.st = .idle → e.2.cancelAt ≠ cyc + 1) →
        u.rd Reg.SCH_CANCEL_ARR_count = s.rd Reg.SCH_CANCEL_ARR_count)) ∧
  (∀ (s : State) (cyc : Nat),
    let due := s.run = true ∧ s.sched.winLap + s.rd Reg.SCH_CFG_window ≤ s.lap
    let n := cyc - s.sched.winCycle
    (¬due → exec (.statsWindowEnd cyc) s = .next s) ∧
    (due → ∃ u, exec (.statsWindowEnd cyc) s = .next u ∧ u.sched.latched = s.sched.stat ∧
      u.sched = { s.sched with cycle := max s.sched.cycle cyc, latched := s.sched.stat, stat := u.sched.stat,
                               winLap := s.lap, winCycle := cyc } ∧
      (∀ p, u.pstat p = { PrioStat.zero with depth := (s.queue p).length }) ∧
      (∀ k, k < 9 → u.rd (Reg.SCH_BUSY_busy k) =
        if s.runnerRuns k then busyFrac ((s.runner k).unblock cyc).blockedSum n else 0) ∧
      u.rd64 Reg.SCH_STAT_LAP_LO_lap Reg.SCH_STAT_LAP_HI_lap = s.lap % 2 ^ 64 ∧
      (u.reg Reg.SCH_EVENT_ev.off).getLsbD 0 = true ∧
      Noticed ([Reg.SCH_EVENT_ev.off, Reg.SCH_STAT_LAP_LO_lap.off, Reg.SCH_STAT_LAP_HI_lap.off] ++
          (List.range 9).map (fun k => (Reg.SCH_BUSY_busy k).off))
        { s with sched := u.sched, core := { s.core with runners := u.core.runners } } u))

/-- From R354 to R358, R397: an image is checked in order and loaded, the anti-rollback counter advances, a faulted runner is
replaced by the spare, retested or retired, and the keeper's own errors are recorded.
The cases that the rules leave open follow the model's choices (log entries 20, 21, 22, 23, 24). -/
def Obligations.ImagesRunnersAndTheKeeper : Prop :=
  (∀ (i : ImageSrc) (f : Fuses),
    let head := i.magic = 0x3639454B ∧ i.hdrVer = 1 ∧ 1 ≤ i.nsec ∧ i.nsec ≤ 4
    let key := i.image.keySlot < 4 ∧ f.keys.has i.image.keySlot = true ∧
      f.keys.get 0 i.image.keySlot = i.keyHash ∧ f.revoked.get false i.image.keySlot = false
    let secs := i.sections.take i.nsec
    let whole := (∀ x ∈ secs, ∃ l, sectionLimit x.kind = some l ∧ x.length ≤ l ∧ x.offset + x.length ≤ i.size ∧
        (x.kind = 3 → x.length % 8 = 0)) ∧ (secs.map (·.kind)).Nodup ∧ ∃ x ∈ secs, x.kind = 2
    (i.answers = false → i.reason f = 1) ∧ (i.answers = true → ¬head → i.reason f = 2) ∧
    (i.answers = true → head → ¬key → i.reason f = 3) ∧
    (i.answers = true → head → key → i.sigOk = false → i.reason f = 4) ∧
    (i.answers = true → head → key → i.sigOk = true → i.image.sv < f.sv → i.reason f = 6) ∧
    (i.answers = true → head → key → i.sigOk = true → f.sv ≤ i.image.sv → ¬whole → i.reason f = 7) ∧
    (i.answers = true → head → key → i.sigOk = true → f.sv ≤ i.image.sv → whole →
      ((∀ x ∈ secs, x.hashOk = true) → i.reason f = 0) ∧ ((∃ x ∈ secs, x.hashOk = false) → i.reason f = 5))) ∧
  (∀ (s : State) (img : ImageSrc) (cal : Bands),
    let area := s.allocOf 7 (s.rd Reg.COR_RECOV_SRC_index)
    (area = none ∨ s.rd Reg.COR_BOOT_state ≠ 4 → ∃ t, exec (.bootFromCellar img cal) s = .next t ∧
      (t.reg Reg.COR_EVENT_ev.off).getLsbD 5 = true ∧ Noticed [Reg.COR_EVENT_ev.off] s t) ∧
    (∀ a, area = some a → s.rd Reg.COR_BOOT_state = 4 →
      let i := { img with size := min img.size (a.count * 4096) }
      (i.reason s.core.fuses ≠ 0 → ∃ t, exec (.bootFromCellar img cal) s = .next t ∧
        t.rd Reg.COR_BOOT_reason = i.reason s.core.fuses ∧ t.rd Reg.COR_BOOT_state = 4 ∧
        t = { s with regs := t.regs } ∧ SameRegs [Reg.COR_BOOT_reason.off] s t) ∧
      (i.reason s.core.fuses = 0 → ∃ t, exec (.bootFromCellar img cal) s = .next t ∧ ImageLoaded i 2 t ∧
        t.core.fuses = s.core.fuses ∧ (s.syn.onRoot = true → BootEnded t) ∧
        (s.syn.onRoot = false → t.rd Reg.COR_BOOT_state = 2 ∧ t.syn.fam = s.rd Reg.SYN_RATE_fam ∧
          t.syn.mult = s.rd Reg.SYN_RATE_mult)))) ∧
  (∀ (s : State) (vddFuse : Nat),
    let sv := s.rd Reg.COR_SV_image
    let refused := s.rd Reg.COR_BOOT_state = 4 ∨ sv ≤ s.core.fuses.sv ∨ vddFuse < 1750
    (refused → ∃ t, exec (.svAdvance vddFuse) s = .next t ∧ (t.reg Reg.COR_EVENT_ev.off).getLsbD 5 = true ∧
      Noticed [Reg.COR_EVENT_ev.off] s t) ∧
    (¬refused → exec (.svAdvance vddFuse) s =
      .next { s with core := { s.core with burn := s.core.burn ++ [.sv sv] } })) ∧
  (∀ (s : State) (k ms : Nat), k < 9 →
    (∃ t, exec (.runnerCheckIn k ms) s = .next t ∧ t.runner k = { s.runner k with checkIn := ms } ∧
      (∀ j, j ≠ k → t.runner j = s.runner j) ∧ t.core.ms = max s.core.ms ms ∧
      t = { s with core := { s.core with runners := t.core.runners, ms := t.core.ms } }) ∧
    (ms < (s.runner k).checkIn + 2 → exec (.runnerWatchdogExpire k ms) s = .next s) ∧
    ((s.runner k).checkIn + 2 ≤ ms →
      ∃ t, exec (.runnerWatchdogExpire k ms) s = .next t ∧ exec (.runnerFault k ms) s = .next t)) ∧
  (∀ (s : State) (k ms : Nat), k < 9 →
    let r := s.runner k
    let rest (l : Nat) := (s.lock l).waiters.filter (· != k)
    (s.runnerRuns k = false → exec (.runnerFault k ms) s = .next s) ∧
    (s.runnerRuns k = true → ∃ t, exec (.runnerFault k ms) s = .next t ∧ t.runnerRuns k = false ∧
      (t.runner k).halted = true ∧ (t.runner k).inTake = none ∧ (t.runner k).inGrab = none ∧
      (t.runner k).faults = (ms :: r.faults).filter (fun n => decide (ms < n + 60000)) ∧
      t = { s with regs := t.regs, outs := t.outs, host := t.host, sched := t.sched, core := t.core, health := t.health } ∧
      t.core.fuses = s.core.fuses ∧
      (s.keeperOk = false → t = { s with core := t.core } ∧ (t.runner k).covered = false) ∧
      (s.keeperOk = true → t.runnerState k = 0 ∧ (t.reg Reg.COR_EVENT_ev.off).getLsbD 2 = true ∧
        t.rd Reg.COR_RFAULTS_count = min (s.rd Reg.COR_RFAULTS_count + 1) (2 ^ 32 - 1) ∧
        t.health.runnerFaults = s.health.runnerFaults + 1 ∧
        (s.health.faults.length < 3 → t.health.faults = s.health.faults ++ [⟨s.lap, 0x1102, k, 0⟩]) ∧
        (Tbl.wf Lock.free s.sched.locks = true → ∀ l, (s.lock l).holder = some k →
          (rest l = [] → t.lock l = ⟨none, [], true⟩) ∧ (∀ j q, rest l = j :: q → t.lock l = ⟨some j, q, true⟩ ∧
            (t.runner j).inGrab = none)) ∧
        (Tbl.wf Task.unused s.sched.tasks = true → ∀ x, (s.task x).st = .running → (s.task x).runner = k →
          (t.task x).st = .ready ∨ ((t.task x).st = .running ∧ (t.task x).runner ≠ k)) ∧
        (∀ q d, q < 64 → d ∈ (t.ring q).descs → d.type = 0x14 → d.stage ≠ .taken ∧ d.stage ≠ .active) ∧
        ((∀ j, j < 9 → s.runnerState j ≠ 2) → (t.runner k).covered = false ∧
          ∀ c, c < 16 → t.rd (Reg.SCH_SVC_affinity c) = s.rd (Reg.SCH_SVC_affinity c)) ∧
        (∀ j, j < 9 → s.runnerState j = 2 → (∀ i, i < j → s.runnerState i ≠ 2) →
          (t.runner k).covered = true ∧ t.runnerRuns j = true ∧ t.rd Reg.HLT_ATTIC_runner = 0 ∧
          (t.reg Reg.HLT_EVENT_ev.off).getLsbD 6 = true ∧ (j = 8 → t.rd Reg.COR_RUNNER_spare_for = k) ∧
          ∀ c n, c < 16 → n < 9 → (t.rd (Reg.SCH_SVC_affinity c)).testBit n =
            let a := s.rd (Reg.SCH_SVC_affinity c)
            if a.testBit k then (n == j || (n != k && a.testBit n)) else a.testBit n)))) ∧
  (∀ (s : State) (k : Nat) (pass : Bool), k < 9 →
    let r := s.runner k
    let retires := pass = false ∨ 3 ≤ r.faults.length
    let c := Instr.runnerRetestDone k pass
    let others (t : State) := ∀ j, j < 9 → j ≠ k → t.runnerState j = s.runnerState j ∧
      ((s.runner j).inTake = none → t.runner j = s.runner j)
    (r.halted = false ∨ s.keeperOk = false → exec c s = .next s) ∧
    (r.halted = true → s.keeperOk = true → retires → ∃ t, exec c s = .next t ∧ t.runnerState k = 3 ∧
      t.runnerRuns k = false ∧ (t.reg Reg.COR_EVENT_ev.off).getLsbD 3 = true ∧ others t ∧
      (r.covered = true → t.sched = s.sched) ∧
      (∀ y, (t.task y) = s.task y ∨ ((s.task y).st = .ready ∧ (t.task y).st = .running ∧
        (s.runner (t.task y).runner).inTake.isSome = true)) ∧
      (r.covered = true → ∀ i, i < 16 → t.rd (Reg.SCH_SVC_affinity i) = s.rd (Reg.SCH_SVC_affinity i)) ∧
      (r.covered = false → ∀ i n, i < 16 → n < 9 → (t.rd (Reg.SCH_SVC_affinity i)).testBit n =
        let a := s.rd (Reg.SCH_SVC_affinity i)
        if a = 2 ^ k then (n != k && s.runnerRuns n) else n != k && a.testBit n)) ∧
    (r.halted = true → s.keeperOk = true → ¬retires → ∃ t, exec c s = .next t ∧ others t ∧
      t.runner k = { Runner.reset with faults := r.faults, checkIn := s.core.ms } ∧
      t = { s with regs := t.regs, core := { s.core with runners := t.core.runners } } ∧
      (r.covered = true → t.runnerState k = 2 ∧ t.rd Reg.HLT_ATTIC_runner = 1) ∧
      (r.covered = false → t.runnerRuns k = true))) ∧
  (∀ (s : State) (addr ms : Nat),
    (∃ t, exec (.keeperBusError addr) s = .next t ∧ (t.reg Reg.COR_EVENT_ev.off).getLsbD 6 = true ∧
      FaultNoted 0x1106 0 addr s t ∧ Noticed [Reg.COR_EVENT_ev.off] { s with health := t.health } t) ∧
    exec (.keeperCheckIn ms) s = .next { s with core := { s.core with keeperIn := ms, ms := max s.core.ms ms } } ∧
    (s.keeperOk = false ∨ ms < s.core.keeperIn + 10 → exec (.keeperWatchdogExpire ms) s = .next s) ∧
    (s.keeperOk = true → s.core.keeperIn + 10 ≤ ms → ∃ t, exec (.keeperWatchdogExpire ms) s = .next t ∧
      t.keeperOk = false ∧ (t.reg Reg.HLT_EVENT_ev.off).getLsbD 9 = true ∧
      Noticed [Reg.HLT_STATUS_keeper_ok.off, Reg.HLT_EVENT_ev.off] s t))

/-! ### Endurance and pins (chapters 20 and 22) -/

/-- From R390 to R392, R394 to R396, R398, R400, R401, R433: tiles are retired, banks substituted and tested, columns repaired;
the scrubber, the sensors, the life used and the health record; and the edges of the GPIO pins.
The cases that the rules leave open follow the model's choices (log entries 2, 3, 9, 50). -/
def Obligations.PartsWearAndSparesServe : Prop :=
  (∀ (s : State) (n : Nat), n < 36 → s.spare (n / 9) ≠ some n →
    let refused := s.keeperOk = false ∨ s.on Reg.HLT_STATUS_subst = true ∨ s.canRetire n = false
    (refused → ∃ t, exec (.retireTile n) s = .next t ∧ (t.reg Reg.HLT_EVENT_ev.off).getLsbD 10 = true ∧
      Noticed [Reg.HLT_EVENT_ev.off] s t) ∧
    (¬refused → s.tileActive n = true ∧ ∃ t, exec (.retireTile n) s = .next t ∧ (t.tileAt n).halted = true ∧
      (t.heat (n / 9)).takeover = some n ∧ (∀ m, m ≠ n → t.tileAt m = s.tileAt m) ∧
      t = { s with regs := t.regs, outs := t.outs, host := t.host, tile := t.tile, audio := t.audio })) ∧
  (∀ (s : State) (n slack : Nat), n < 40 → slack < 256 → s.spare (n / 9) ≠ some n →
    let low := slack < s.rd Reg.HLT_THR_margin_thr
    let retires := s.on Reg.HLT_CFG_auto_tile = true ∧ s.keeperOk = true ∧ n < 36 ∧ s.canRetire n = true
    ∃ t, exec (.marginLow n slack) s = .next t ∧ t.rd (Reg.HLT_MARGIN_now n) = slack ∧
      t.rd (Reg.HLT_MARGIN_min n) = min slack (s.rd (Reg.HLT_MARGIN_min n)) ∧
      t.health = { s.health with slackRec := t.health.slackRec } ∧
      t.health.slackRec.get 255 n = min slack (s.health.slackRec.get 255 n) ∧
      (low → (t.reg Reg.HLT_EVENT_ev.off).getLsbD 2 = true) ∧
      (¬low → t = { s with regs := t.regs, health := t.health } ∧ SameRegs [(Reg.HLT_MARGIN_now n).off] s t) ∧
      (low → ¬retires → Noticed [(Reg.HLT_MARGIN_now n).off, Reg.HLT_EVENT_ev.off] { s with health := t.health } t) ∧
      (low → retires → (t.tileAt n).halted = true ∧ (t.heat (n / 9)).takeover = some n)) ∧
  (∀ (s : State) (o : Nat), o < 68 →
    let starts (c : Instr) := ∃ t p, exec c s = .next t ∧ p < 68 ∧
      s.rd (Reg.CEL_PBANK_logical p) = 127 ∧ s.rd (Reg.CEL_PBANK_owner p) = 0 ∧
      t.health = { s.health with subst := some ⟨o, p, s.rd (Reg.CEL_PBANK_logical o), s.lap + 1, false⟩ } ∧
      t.on Reg.HLT_STATUS_subst = true ∧ t.rd Reg.HLT_STATUS_subst_bank = o ∧
      t = { s with regs := t.regs, health := t.health } ∧ SameRegs [Reg.HLT_STATUS_subst.off] s t
    let can := s.rd (Reg.CEL_PBANK_logical o) < 64 ∧
      ∃ p, p < 68 ∧ s.rd (Reg.CEL_PBANK_logical p) = 127 ∧ s.rd (Reg.CEL_PBANK_owner p) = 0
    let refused := s.keeperOk = false ∨ s.on Reg.HLT_STATUS_subst = true ∨ ¬can
    let due := s.on Reg.HLT_CFG_auto_bank = true ∧ s.keeperOk = true ∧
      (o ∈ s.health.failedBanks ∨ 16 * s.rd Reg.HLT_THR_bank_ce < (s.health.bankCe.get [] o).length)
    (refused → ∃ t, exec (.substituteBank o true) s = .next t ∧ (t.reg Reg.HLT_EVENT_ev.off).getLsbD 10 = true ∧
      Noticed [Reg.HLT_EVENT_ev.off] s t) ∧
    (¬refused → starts (.substituteBank o true)) ∧
    (¬(due ∧ can) → exec (.substituteBank o false) s = .next s) ∧
    (due → can → s.health.subst = none → starts (.substituteBank o false)) ∧
    (∀ x, due → can → s.health.subst = some x →
      (o ∈ s.health.substQueue ∨ x.o = o → exec (.substituteBank o false) s = .next s) ∧
      (o ∉ s.health.substQueue → x.o ≠ o → exec (.substituteBank o false) s =
        .next { s with health := { s.health with substQueue := s.health.substQueue ++ [o] } }))) ∧
  (∀ s : State,
    (s.health.subst = none → exec .bankSubstSwitch s = .next s) ∧
    ∀ x, s.health.subst = some x →
      (s.lap ≤ x.from_ ∨ s.keeperOk = false → exec .bankSubstSwitch s = .next s) ∧
      (x.from_ < s.lap → s.keeperOk = true → x.o < 68 → x.s < 68 → x.b < 64 → x.o ≠ x.s → ∃ t, exec .bankSubstSwitch s = .next t ∧
        t.rd (Reg.CEL_PBANK_logical x.s) = x.b ∧ t.rd (Reg.CEL_PBANK_logical x.o) = 127 ∧
        t.rd (Reg.CEL_PBANK_owner x.o) = 1 ∧ (t.reg Reg.HLT_EVENT_ev.off).getLsbD 3 = true ∧
        (t.reg Reg.CEL_EVENT_ev.off).getLsbD 4 = true ∧
        (∀ n, n < 68 → n ≠ x.o → n ≠ x.s → t.reg (Reg.CEL_PBANK_logical n).off = s.reg (Reg.CEL_PBANK_logical n).off) ∧
        t.rd Reg.HLT_ATTIC_banks = t.spareBanks.length % 8 ∧ x.o ∈ t.health.testing ∧
        t = { s with regs := t.regs, outs := t.outs, host := t.host, health := t.health } ∧
        (s.health.substQueue = [] → t.health.subst = none ∧ t.on Reg.HLT_STATUS_subst = false ∧
          t.rd Reg.HLT_STATUS_subst_bank = 127) ∧
        ∀ o q, s.health.substQueue = o :: q → t.health.substQueue = q ∧ (t.health.subst.isSome = true ↔ t.canSubst o = true))) ∧
  (∀ (s : State) (n : Nat) (pass : Bool), n < 68 →
    (n ∉ s.health.testing ∨ s.keeperOk = false → exec (.bankTestDone n pass) s = .next s) ∧
    (n ∈ s.health.testing → s.keeperOk = true → ∃ t, exec (.bankTestDone n pass) s = .next t ∧
      t.rd (Reg.CEL_PBANK_owner n) = (if pass then 0 else 2) ∧ n ∉ t.health.testing ∧
      (pass = true → n ∉ t.health.failedBanks) ∧ (pass = false → t.health.failedBanks = s.health.failedBanks) ∧
      t.rd Reg.HLT_ATTIC_banks = t.spareBanks.length % 8 ∧
      (t.reg Reg.CEL_EVENT_ev.off).getLsbD 4 = true ∧
      (pass = false ∨ 64 ≤ s.rd (Reg.CEL_PBANK_logical n) → t.fab = s.fab) ∧
      Noticed [(Reg.CEL_PBANK_owner n).off, Reg.CEL_STATUS_free.off, Reg.CEL_STATUS_run.off, Reg.CEL_EVENT_ev.off,
        Reg.HLT_ATTIC_banks.off, Reg.HLT_EVENT_ev.off] { s with fab := t.fab, health := t.health } t)) ∧
  (∀ (s : State) (ce : Nat) (left : Bool) (vdd : Nat),
    let pending := (s.core.burn.filter (· == KeeperBurn.repair)).length
    let due := s.on Reg.HLT_CFG_auto_repair = true ∧ s.keeperOk = true ∧ s.rd Reg.HLT_THR_col_ce ≤ ce ∧ left = true ∧
      1750 ≤ vdd ∧ vdd ≤ 1890 ∧ s.core.fuses.repairs + pending < 512
    (¬due → exec (.fieldRepair ce left vdd) s = .next s) ∧
    (due → ∃ t, exec (.fieldRepair ce left vdd) s = .next t ∧ t.on Reg.HLT_STATUS_repair_pending = true ∧
      (t.reg Reg.HLT_EVENT_ev.off).getLsbD 5 = true ∧ FaultNoted 0x1205 0 0 s t ∧
      Noticed [Reg.HLT_STATUS_repair_pending.off, Reg.HLT_EVENT_ev.off]
        { s with core := { s.core with burn := s.core.burn ++ [.repair] }, health := t.health } t)) ∧
  (∀ s : State,
    (∃ t, exec .scrubPassEnd s = .next t ∧ t.rd Reg.HLT_SCRUB_progress = 0 ∧
      t.rd Reg.HLT_SCRUB_PASSES_count = min (s.rd Reg.HLT_SCRUB_PASSES_count + 1) (2 ^ 32 - 1) ∧
      t = { s with regs := t.regs, health := { s.health with scrubLate := false } } ∧
      SameRegs [Reg.HLT_SCRUB_progress.off, Reg.HLT_SCRUB_PASSES_count.off] s t) ∧
    (∃ t, exec .scrubLate s = .next t ∧ t.health = { s.health with scrubLate := true } ∧
      (t.reg Reg.HLT_EVENT_ev.off).getLsbD 7 = true ∧
      Noticed [Reg.HLT_EVENT_ev.off] { s with health := t.health } t)) ∧
  (∀ (s : State) (l : List Int) (m : Int), l.length = 8 → m ∈ l → (∀ x ∈ l, x ≤ m) → -(2 ^ 15) ≤ m → m < 2 ^ 15 →
    ∃ t, exec (.temperatureSample l) s = .next t ∧ t.rdS Reg.HLT_TEMP_now = m ∧
      t.rdS Reg.HLT_TEMP_peak = max m (s.rdS Reg.HLT_TEMP_peak) ∧
      t.health = { s.health with tempPeakRec := max m s.health.tempPeakRec } ∧
      (1600 ≤ m → (t.reg Reg.HLT_EVENT_ev.off).getLsbD 0 = true) ∧
      (1680 ≤ m → (t.reg Reg.HLT_EVENT_ev.off).getLsbD 1 = true) ∧
      (m < 1600 → t.reg Reg.HLT_EVENT_ev.off = s.reg Reg.HLT_EVENT_ev.off) ∧
      Noticed [Reg.HLT_TEMP_now.off, Reg.HLT_EVENT_ev.off] { s with health := t.health } t) ∧
  (∀ (s : State) (temp : Int),
    (s.pstate < 2 → exec (.lifeUsedUpdate temp) s =
      .next { s with health := { s.health with seconds := s.health.seconds + 1 } }) ∧
    (2 ≤ s.pstate → ∃ t, exec (.lifeUsedUpdate temp) s = .next t ∧
      t.health = { s.health with seconds := s.health.seconds + 1, life := s.health.life + lifeWeight temp } ∧
      t.rd64 Reg.HLT_LIFE_LO_sec Reg.HLT_LIFE_HI_sec = (t.health.life / 2 ^ 32 +
        s.rd64 Reg.HLT_LIFE_BASE_LO_sec Reg.HLT_LIFE_BASE_HI_sec) % 2 ^ 64 ∧
      t = { s with regs := t.regs, health := t.health } ∧
      SameRegs [Reg.HLT_LIFE_LO_sec.off, Reg.HLT_LIFE_HI_sec.off] s t)) ∧
  (∀ s : State,
    let b := s.buffer (s.rd Reg.HLT_CFG_ring) 8
    (s.on Reg.HLT_CFG_rec_en = false → exec .healthRecord s = .next s) ∧
    (s.on Reg.HLT_CFG_rec_en = true → ∃ t, exec .healthRecord s = .next t ∧
      t.health = { s.health with seq := s.health.seq + 1, recLap := s.lap, ceRec := [], ueRec := 0, slackRec := [],
                                 passed := [], mism := [], runnerFaults := 0, faults := [], faultsLost := 0,
                                 tempPeakRec := s.rdS Reg.HLT_TEMP_now } ∧
      (b = none → t.rd Reg.HLT_REC_LOST_count = min (s.rd Reg.HLT_REC_LOST_count + 1) (2 ^ 32 - 1) ∧
        (t.reg Reg.HLT_EVENT_ev.off).getLsbD 8 = true ∧
        Noticed [Reg.HLT_REC_LOST_count.off, Reg.HLT_EVENT_ev.off] { s with health := t.health } t) ∧
      ∀ d, b = some d → ∃ bytes : List Byte, bytes.length = 256 ∧
        bytes.take 12 = leBytes 8 s.lap ++ leBytes 4 s.health.seq ∧
        (s.outs ++ [Out.hostWrite (d.word64 2) (bytes.take d.len)]) <+: t.outs ∧
        HostOut { s with health := t.health } t)) ∧
  (∀ (s : State) (n : Nat) (level : Bool), n < 16 →
    let input := (s.rd Reg.PAD_GPIO_DIR_dir).testBit n = false
    let changes := s.pads.gpioIn.testBit n ≠ level
    let selects := edgeSelected (bitsOf (s.rd Reg.PAD_GPIO_EDGE_edge) (2 * n) 2) level = true
    ∃ t, exec (.gpioEdge n level) s = .next t ∧ t.pads = { s.pads with gpioIn := t.pads.gpioIn } ∧
      (∀ j, j < 16 → t.pads.gpioIn.testBit j = (if j = n then level else s.pads.gpioIn.testBit j)) ∧
      (∀ j, j < 16 → (t.rd Reg.PAD_GPIO_IN_in).testBit j = (if (s.rd Reg.PAD_GPIO_DIR_dir).testBit j
        then (s.rd Reg.PAD_GPIO_OUT_out).testBit j else t.pads.gpioIn.testBit j)) ∧
      (input → changes → selects → s.pstate ≠ 6 → (t.reg Reg.PAD_EVENT_ev.off).getLsbD n = true) ∧
      (¬(input ∧ changes ∧ selects ∧ s.pstate ≠ 6) → t.reg Reg.PAD_EVENT_ev.off = s.reg Reg.PAD_EVENT_ev.off) ∧
      Noticed [Reg.PAD_GPIO_IN_in.off, Reg.PAD_EVENT_ev.off] { s with pads := t.pads } t)

/-! ### The sealed level meter (chapter 19) -/

/-- From R370 to R376, R384: power, reset and start of the meter, its samples, and the record of a period.
The cases that the rules leave open follow the model's choices (log entries 3, 6, 51, 52). -/
def Obligations.TheMeterMeasuresAndLogs : Prop :=
  (∀ s : State,
    let sealedPin := s.meter.sealSt == .sealed
    let cfg := s.meter.fuses.cfgs.getLast?.getD ⟨1, 3, 0, 0⟩
    let starts (t : State) := t.meter.running = true ∧ t.meter.cold = false ∧ t.meter.rstLow = false ∧ t.meter.power = true ∧ t.meter.cfg = cfg ∧
      t.meter.samples = 0 ∧ t.meter.ch0 = Gather.reset ∧ t.meter.ch1 = Gather.reset ∧ t.meter.fuses = s.meter.fuses ∧
      t.meter.sealSt = s.meter.sealSt ∧ MeterOnly s t
    (s.meter.power = true → exec .slmPowerOn s = .next { s with pads := { s.pads with mtrSealed := sealedPin } }) ∧
    (s.meter.power = false → s.meter.rstLow = true → exec .slmPowerOn s =
      .next { s with meter := { s.meter with power := true, cold := true, seq := 0, lastHash := [], log := [] }
                     pads := { s.pads with mtrSealed := sealedPin } }) ∧
    (s.meter.power = false → s.meter.rstLow = false → ∃ t m, exec .slmPowerOn s = .next t ∧ starts t ∧ t.pads.mtrSealed = sealedPin ∧
      m.seq = 0 ∧ m.lastHash = [] ∧ m.log = [] ∧ m.samples = 0 ∧ Logged 3 [0] m t.meter) ∧
    (s.meter.running = false → exec .slmReset s = .next { s with meter := { s.meter with rstLow := true } }) ∧
    (s.meter.running = true → ∃ t, exec .slmReset s = .next t ∧ t.meter.running = false ∧ t.meter.samples = 0 ∧
      t.meter.rstLow = true ∧ t.meter.cold = s.meter.cold ∧ t.meter.power = s.meter.power ∧ t.meter.log = s.meter.log ∧ t.meter.seq = s.meter.seq ∧ t.meter.lastHash = s.meter.lastHash ∧
      t.meter.fuses = s.meter.fuses ∧ t.meter.sealSt = s.meter.sealSt ∧ t.meter.staged = [] ∧ t.meter.burn = false ∧
      t.pads.mtrBusy = false ∧ t.pads.mtrSealed = s.pads.mtrSealed ∧ MeterOnly s t) ∧
    (¬(s.meter.power = true ∧ s.meter.running = false) → exec .slmResetRelease s =
      .next { s with meter := { s.meter with rstLow := false } }) ∧
    (s.meter.power = true → s.meter.running = false → ∃ t m, exec .slmResetRelease s = .next t ∧ starts t ∧
      m.seq = s.meter.seq ∧ m.lastHash = s.meter.lastHash ∧ m.log = s.meter.log ∧ m.samples = 0 ∧
      Logged 3 [if s.meter.cold then 0 else 1] m t.meter) ∧
    (∃ t, exec .slmPowerRemove s = .next t ∧ t.meter.power = false ∧ t.meter.running = false ∧ t.meter.log = [] ∧
      t.meter.cold = false ∧ t.meter.rstLow = s.meter.rstLow ∧
      t.meter.fuses = s.meter.fuses ∧ t.meter.sealSt = s.meter.sealSt ∧ t.meter.mirror = s.meter.mirror ∧
      t.pads.mtrBusy = false ∧ t.pads.mtrSealed = false ∧ MeterOnly s t)) ∧
  (∀ (s : State) (w0 w1 : Word),
    let m := s.meter
    let takes (on : Bool) (w : Word) (g h : Gather) := (on = false → h = g) ∧ (on = true → ∃ pA pC : Int,
      h.sumA = g.sumA + pA.natAbs * pA.natAbs ∧ h.sumC = g.sumC + pC.natAbs * pC.natAbs ∧
      h.peakC = max g.peakC pC.natAbs ∧ h.last = some w.toNat ∧ g.maxF ≤ h.maxF ∧ g.maxS ≤ h.maxS ∧
      h.same = (if g.last = some w.toNat then g.same + 1 else 1) ∧
      (h.overload = true ↔ g.overload = true ∨ w = 0x80000000#32 ∨ w = 0x7FFFFFFF#32) ∧
      (h.noSignal = true ↔ g.noSignal = true ∨ 48000 ≤ h.same) ∧
      h.secs = if (m.samples + 1) % 48000 = 0 then ((g.secSum + pA.natAbs * pA.natAbs) :: g.secs).take 900 else g.secs)
    (m.running = false → exec (.meterSample w0 w1) s = .next s) ∧
    (m.running = true → ∃ t, exec (.meterSample w0 w1) s = .next t ∧ t.meter.samples = m.samples + 1 ∧
      takes (m.cfg.en.testBit 0) w0 m.ch0 t.meter.ch0 ∧ takes (m.cfg.en.testBit 1) w1 m.ch1 t.meter.ch1 ∧
      t = { s with free := t.free,
                   meter := { m with samples := t.meter.samples, ch0 := t.meter.ch0, ch1 := t.meter.ch1 } })) ∧
  (∀ s : State,
    let m := s.meter
    let due := m.running = true ∧ 0 < m.samples ∧ m.samples = m.periodStart + 48000 * m.cfg.t
    (¬due → exec .meterPeriodEnd s = .next s) ∧
    (due → ∃ t u payload, exec .meterPeriodEnd s = .next t ∧ Records 1 payload s u ∧ payload.length = 30 ∧
      payload.take 4 = leBytes 4 m.cfg.t ∧
      (m.cfg.en.testBit 0 = false → (payload.drop 4).take 12 = List.replicate 12 0xFF) ∧
      (m.cfg.en.testBit 1 = false → (payload.drop 16).take 12 = List.replicate 12 0xFF) ∧
      t = { u with meter := t.meter } ∧
      t.meter = { u.meter with cfg := t.meter.cfg, cfgSlot := t.meter.cfgSlot, nextCfg := none,
                               periodStart := m.samples, ch0 := m.ch0.newPeriod m.cfg.cal0 t.meter.cfg.cal0,
                               ch1 := m.ch1.newPeriod m.cfg.cal1 t.meter.cfg.cal1 } ∧
      (t.meter.cfg, t.meter.cfgSlot) = m.nextCfg.getD (m.cfg, m.cfgSlot) ∧
      (s.mirrorOn = true → (t.reg Reg.SLM_EVENT_ev.off).getLsbD 0 = true)))

/-- From R378 to R383, R385: the Meter Port's reads and writes, the commit of a configuration, the seal and its breaking, each
counted in fuses and recorded.
The cases that the rules leave open follow the model's choices (log entries 6, 51, 52). -/
def Obligations.TheMeterPortAndTheSeal : Prop :=
  (∀ (s : State) (n : Nat), n ≤ 64 →
    let m := s.meter
    let reads (c : Instr) (bytes : List Byte) := (m.running = false → exec c s = .next s) ∧
      (m.running = true → exec c s = .next { s with meter := { m with out := bytes, busyColl := false },
                                                     pads := { s.pads with mtrBusy := m.burn } })
    reads (.readStatus n) ((leBytes 8 (m.seq - 1) ++ leBytes 8 m.samples ++ leBytes 4 m.stateWord ++
      leBytes 4 m.fuses.events ++ leBytes 1 m.result ++ List.replicate 7 0 ++ padTo 32 m.lastHash).take n) ∧
    (m.sealSt = .blank → reads (.readKey n) (List.replicate n 0)) ∧
    (∀ x y, m.sealSt ≠ .blank → m.fuses.keys.getLast? = some (x, y) →
      reads (.readKey n) ((beBytes 32 x ++ beBytes 32 y).take n)) ∧
    reads (.readCfg n) ((leBytes 4 m.cfg.t ++ leBytes 4 m.cfg.en ++ leBytes 4 m.cfg.cal0 ++ leBytes 4 m.cfg.cal1 ++
      List.replicate 16 0 ++ padTo 32 m.staged).take n)) ∧
  (∀ (s : State) (off n : Nat) (coll : Option Nat), off % 4 = 0 → off < 0x400000 → n ≤ 0x400000 →
    let m := s.meter
    let byte (i : Nat) := (m.log.get [] ((off + i) % 0x400000 / 128)).getD ((off + i) % 128) 0
    (m.running = false → ∃ t, exec (.readLog off n coll) s = .next t ∧ t = { s with free := t.free }) ∧
    (m.running = true → ∃ t, exec (.readLog off n coll) s = .next t ∧ t.meter.out.length = n ∧
      t = { s with free := t.free, meter := { m with out := t.meter.out, busyColl := coll.isSome },
                   pads := { s.pads with mtrBusy := m.burn } } ∧
      (∀ i, i < n → (∀ k, coll = some k → i / 4 ≠ k) → t.meter.out[i]? = some (byte i)) ∧
      (coll = none → t.free = s.free))) ∧
  (∀ (s : State) (sec : Word) (data : List Byte),
    (∀ c ∈ [Instr.setTime sec, .stageCfg data, .commitCfg sec, .sealCmd sec, .unsealCmd sec],
      (s.meter.running = false → exec c s = .next s) ∧
      (s.meter.running = true → s.meter.burn = true → (c = .stageCfg data → 32 ≤ data.length) →
        exec c s = .next { s with meter := { s.meter with result := 2 } })) ∧
    (data.length < 32 → exec (.stageCfg data) s = .next s) ∧
    (s.meter.running = true → s.meter.burn = false →
      (32 ≤ data.length → exec (.stageCfg data) s =
        .next { s with meter := { s.meter with staged := data.take 32, result := 0 } }) ∧
      ∃ t, exec (.setTime sec) s = .next t ∧
        Records 5 (leBytes 4 sec.toNat) { s with meter := { s.meter with result := 0 } } t)) ∧
  (∀ (s : State) (arg : Word), s.meter.running = true → s.meter.burn = false →
    let m := s.meter
    let refused (c : Instr) := exec c s = .next { s with meter := { m with result := 1 } }
    let w (i : Nat) := ofLe ((m.staged.drop (4 * i)).take 4)
    let legal := m.staged.length = 32 ∧ 1 ≤ w 0 ∧ w 0 ≤ 3600 ∧ w 1 < 4 ∧ ∀ b ∈ m.staged.drop 16, b = 0
    let bar := arg ≠ 0x43464731#32 ∨ m.sealSt = .sealed ∨ m.fuses.events = 64 ∨ m.fuses.cfgs.length = 16 ∨ ¬legal
    let keyBar := arg ≠ 0x5345414C#32 ∨ m.sealSt = .sealed ∨ m.fuses.cfgs = [] ∨ m.fuses.events = 64 ∨
      m.fuses.keys.length = 16
    let openBar := arg ≠ 0x4F50454E#32 ∨ m.sealSt ≠ .sealed ∨ m.fuses.events = 64
    let takes (c : Instr) (cause : Byte) (f : SlmFuses → Prop) (st : Seal) (next : Option (MeterCfg × Nat)) :=
      ∃ t fuses, exec c s = .next t ∧ f fuses ∧ fuses.events = m.fuses.events + 1 ∧
        Records 4 [cause] { s with meter := { m with fuses := fuses, sealSt := st, nextCfg := next, burn := true,
                                                     result := 0 } } t ∧
        t.pads.mtrBusy = true ∧ t.pads.mtrSealed = (m.power && st == .sealed)
    (bar → refused (.commitCfg arg)) ∧
    (¬bar → takes (.commitCfg arg) 1 (fun f => f.cfgs = m.fuses.cfgs ++ [⟨w 0, w 1, w 2, w 3⟩] ∧ f.keys = m.fuses.keys)
      m.sealSt (some (⟨w 0, w 1, w 2, w 3⟩, m.fuses.cfgs.length))) ∧
    (keyBar → refused (.sealCmd arg)) ∧
    (¬keyBar → takes (.sealCmd arg) 2 (fun f => f.cfgs = m.fuses.cfgs ∧ ∃ k, f.keys = m.fuses.keys ++ [k])
      .sealed m.nextCfg) ∧
    (openBar → refused (.unsealCmd arg)) ∧
    (¬openBar → takes (.unsealCmd arg) 3 (fun f => f.cfgs = m.fuses.cfgs ∧ f.keys = m.fuses.keys) .broken m.nextCfg)) ∧
  (∀ s : State, exec .fuseBurnDone s =
    .next { s with meter := { s.meter with burn := false }, pads := { s.pads with mtrBusy := false } })

/-- From R384, R402, R405 to R407, R423: POR_N and the loss of the rails reset the whole main engine but not the meter, a burn they
cut leaves its fuse open; the release runs the start-up order; PERST_N resets the host interface; a chip reset is a
reset that keeps the PCIe side, held behind a fuse burn.
The cases that the rules leave open follow the model's choices (log entries 5, 6, 20, 48). -/
def Obligations.TheEngineResetsAndBoots : Prop :=
  (∀ (s : State) (main : Bool) (i : Instr), i = .porNAssert ∧ main = s.power.main ∨ i = .mainPowerRemove ∧ main = false →
    ∃ f k, exec i s = .next { State.reset with
        pending := s.pending
        free := k
        outs := s.outs
        meter := s.meter
        core := { CoreSt.reset with fuses := f }
        syn := { SynthSt.reset with xo := s.syn.xo }
        power := { PowerSt.reset with main := main, perstLow := s.power.perstLow }
        pads := { PadSt.reset with mtrBusy := s.pads.mtrBusy, mtrSealed := s.pads.mtrSealed, gpioIn := s.pads.gpioIn } } ∧
      (s.core.burn = [] → f = s.core.fuses ∧ k = s.free) ∧
      (∀ v l, s.core.burn = .sv v :: l → f = { s.core.fuses with sv := f.sv } ∧ s.core.fuses.sv ≤ f.sv ∧
        f.sv ≤ max s.core.fuses.sv v) ∧
      (∀ l, s.core.burn = .repair :: l → f = { s.core.fuses with repairs := f.repairs } ∧
        s.core.fuses.repairs ≤ f.repairs ∧ f.repairs ≤ s.core.fuses.repairs + 1)) ∧
  (∀ (s : State) (src : BootSrc) (speed width : Nat), 1 ≤ speed → speed ≤ 4 → width = 1 ∨ width = 2 ∨ width = 4 →
    (s.power.porLow = false → exec (.porNRelease src speed width) s = .next s) ∧
    (s.power.porLow = true → ∃ t, exec (.porNRelease src speed width) s = .next t ∧
      Boots src s.core.fuses s.host.ids t ∧ MirrorCopied s t ∧
      t.power = { s.power with porLow := false, main := true } ∧
      (s.power.perstLow = false → t.rd Reg.HST_STATUS_speed = speed ∧ t.rd Reg.HST_STATUS_width = width) ∧
      t.rd Reg.PAD_GPIO_IN_in = s.pads.gpioIn % 2 ^ 16 ∧
      t = { s with regs := t.regs, outs := t.outs, host := t.host, meter := t.meter, power := t.power
                   core := { s.core with image := t.core.image, slot := t.core.slot }
                   fab := { s.fab with runnerRam := t.fab.runnerRam, pmem := t.fab.pmem
                                       keeperRam := t.fab.keeperRam, keeperPatch := t.fab.keeperPatch }
                   syn := { s.syn with fam := t.syn.fam, mult := t.syn.mult, a := t.syn.a, b := t.syn.b
                                       change := t.syn.change } } ∧
      (s.syn.change = none → t.syn.change = none)) ∧
    (s.power.perstLow = false → exec (.perstNRelease speed width) s = .next s) ∧
    (s.power.perstLow = true → ∃ t, exec (.perstNRelease speed width) s = .next t ∧
      t = { s with regs := t.regs, power := { s.power with perstLow := false } } ∧
      SameRegs [Reg.HST_STATUS_speed.off] s t ∧
      (s.power.porLow = true → t.regs = s.regs) ∧
      (s.power.porLow = false → t.rd Reg.HST_STATUS_speed = speed ∧ t.rd Reg.HST_STATUS_width = width))) ∧
  (∀ s : State, ∃ t, exec .perstNAssert s = .next t ∧ t.power = { s.power with perstLow := true } ∧
    t.rd Reg.GLB_RESET_CAUSE_perst = 1 ∧ t.rd Reg.HST_STATUS_speed = 0 ∧ t.rd Reg.HST_STATUS_width = 0 ∧
    t.on Reg.HST_STATUS_bme = false ∧ t.on Reg.HST_STATUS_mse = false ∧
    t.host.msix = [] ∧ t.host.msixEn = false ∧ t.host.doorbell = [] ∧ (∀ r, (t.ring r).descs = []) ∧
    (∀ off, 0xC000 ≤ off → off < 0xD000 → off ≠ Reg.HST_STATUS_speed.off → t.reg off = resetVal off) ∧
    (∀ a, a ∈ t.fab.allocs ↔ a ∈ s.fab.allocs ∧ a.kind ≠ 4) ∧
    t = { s with regs := t.regs, hiLatch := t.hiLatch, loHold := t.loHold, host := t.host, fab := t.fab, power := t.power } ∧
    ∀ off, off < 0xC000 ∨ 0xD000 ≤ off → off ∉ [Reg.GLB_RESET_CAUSE_perst.off, Reg.CEL_STATUS_free.off] →
      t.reg off = s.reg off) ∧
  (∀ (s : State) (src : BootSrc),
    (s.power.porLow = true → exec (.chipReset src) s = .next s) ∧
    (s.power.porLow = false → s.core.burn ≠ [] →
      exec (.chipReset src) s = .next { s with core := { s.core with heldReset := some src } }) ∧
    (s.power.porLow = false → s.core.burn = [] → ∃ t, exec (.chipReset src) s = .next t ∧ ChipResets src s t)) ∧
  (∀ s : State, (s.core.burn = [] → exec .keeperFuseBurnDone s = .next s) ∧
    ∀ b l, s.core.burn = b :: l → ∃ u t, exec .keeperFuseBurnDone s = .next t ∧
      (∀ v, b = .sv v →
        u.core = { s.core with burn := l, fuses := { s.core.fuses with sv := max s.core.fuses.sv v } } ∧
        u.rd Reg.COR_SV_fuse = max s.core.fuses.sv v % 2 ^ Reg.COR_SV_fuse.width ∧
        (u.reg Reg.COR_EVENT_ev.off).getLsbD 4 = true ∧
        Noticed [Reg.COR_SV_fuse.off, Reg.COR_EVENT_ev.off] { s with core := u.core } u) ∧
      (b = .repair →
        u.core = { s.core with burn := l, fuses := { s.core.fuses with repairs := s.core.fuses.repairs + 1 } } ∧
        u.rd Reg.HLT_REPAIR_used = (s.core.fuses.repairs + 1) % 2 ^ Reg.HLT_REPAIR_used.width ∧
        u = { s with core := u.core, regs := u.regs } ∧ SameRegs [Reg.HLT_REPAIR_used.off] s u) ∧
      (s.core.heldReset = none ∨ l ≠ [] → t = u) ∧
      (∀ src, s.core.heldReset = some src → l = [] → ChipResets src u t))

/-- From R59, R286, R345, R405, R408 to R415, R438: processing starts when the start condition holds; the power states are
entered and left by their laps, and every other power command is refused with its reason.
The cases that the rules leave open follow the model's choices (log entries 2, 47, 48). -/
def Obligations.ProcessingStartsAndPowerStatesChange : Prop :=
  (∀ (s : State) (cyc : Nat) (failed : List Nat), (∀ n ∈ failed, n < 36) →
    let c := Instr.startProcessing cyc failed
    let a := Instr.autoStart cyc failed
    let bar3 := s.rd Reg.SYN_STATUS_prog ≠ 0 ∨ s.syn.ramp ≠ none
    let cond := s.pstate = 1 ∧ (s.syn.a.settled = true ∨ s.syn.b.settled = true) ∧
      (s.rd Reg.DPL_STATUS_state = 2 ∨ s.rd Reg.DPL_CFG_mode = 2 ∨ s.rd Reg.DPL_CFG_mode = 3)
    let store := s.engineAlloc 5 0 2112 (s.on Reg.VLT_CFG_store_mirror)
    let refused (i : Instr) (k : Nat) := ∃ t, exec i s = .next t ∧ PowerRefused k s t
    let starts (i : Instr) := (store = none → refused i 6) ∧
      ∀ u, store = some u → ∃ t, exec i s = .next t ∧ ProcessingStarts cyc failed s u t
    (s.keeperOk = false → refused c 7) ∧ (s.keeperOk = true → s.power.trans ≠ none → refused c 2) ∧
    (s.keeperOk = true → s.power.trans = none → bar3 → refused c 3) ∧
    (s.keeperOk = true → s.power.trans = none → ¬bar3 → (¬cond → refused c 5) ∧ (cond → starts c)) ∧
    (s.on Reg.GLB_CFG_auto_start = true ∧ cond ∧ ¬bar3 → starts a) ∧
    (¬(s.on Reg.GLB_CFG_auto_start = true ∧ cond ∧ ¬bar3) → exec a s = .next s)) ∧
  (∀ s : State,
    let bar3 := s.rd Reg.SYN_STATUS_prog ≠ 0 ∨ s.syn.ramp ≠ none
    let refused (i : Instr) (k : Nat) := ∃ t, exec i s = .next t ∧ PowerRefused k s t
    let free := s.keeperOk = true ∧ s.power.trans = none
    let rings := ∃ r, r < 64 ∧ s.ringOn r = true
    (∀ i, i = .enterQuiet ∨ i = .enterKeep ∨ i = .returnToRun ∨ i = .powerCmdReserved 6 ∨ i = .powerCmdReserved 7 →
      (s.keeperOk = false → refused i 7) ∧ (s.keeperOk = true → s.power.trans ≠ none → refused i 2) ∧
      (free → i = .enterQuiet ∧ s.pstate ≠ 2 ∨ i = .enterKeep ∧ s.pstate ≠ 2 ∧ s.pstate ≠ 4 ∨
        i = .returnToRun ∧ s.pstate ≠ 4 ∧ s.pstate ≠ 6 ∨ i = .powerCmdReserved 6 ∨ i = .powerCmdReserved 7 → refused i 1) ∧
      (free → bar3 → i = .enterQuiet ∧ s.pstate = 2 ∨ i = .enterKeep ∧ (s.pstate = 2 ∨ s.pstate = 4) ∨
        i = .returnToRun ∧ (s.pstate = 4 ∨ s.pstate = 6) → refused i 3)) ∧
    (free → ¬bar3 →
      (s.pstate = 2 → ∃ t, exec .enterQuiet s = .next t ∧ QuietBegins (.toQuiet s.lap) s t) ∧
      (s.pstate = 2 ∨ s.pstate = 4 → rings → refused .enterKeep 4) ∧
      (s.pstate = 2 → ¬rings → ∃ t, exec .enterKeep s = .next t ∧ QuietBegins (.toKeep s.lap false) s t) ∧
      (∀ i tr v, (i = .enterKeep ∧ s.pstate = 4 ∧ ¬rings ∧ tr = .toKeep s.lap true ∧ v = 3) ∨
          (i = .returnToRun ∧ s.pstate = 4 ∧ tr = .fromQuiet s.lap ∧ v = 5) ∨
          (i = .returnToRun ∧ s.pstate = 6 ∧ tr = .fromKeep ∧ v = 7) →
        ∃ t, exec i s = .next t ∧ t.pstate = v ∧ SameRegs [Reg.GLB_PWR_STATUS_state.off] s t ∧
          t = { s with regs := t.regs, power := { s.power with trans := some tr } }))) ∧
  (∀ s : State,
    (∀ a, s.power.trans = some (.toQuiet a) →
      (s.lap < a + s.fLap + 1 → exec .quietGate s = .next s) ∧
      (a + s.fLap + 1 ≤ s.lap → ∃ t, exec .quietGate s = .next t ∧ TilesGated s t ∧ t.pstate = 4 ∧
        t.power.trans = none ∧ (t.reg Reg.GLB_EVENT_ev.off).getLsbD 1 = true ∧
        (∀ m, m < 16 → t.mstate m = if m ∈ t.power.stopped then 0 else s.mstate m) ∧
        (∀ n, n < 36 → s.tstate n ≠ 6 → t.tstate n = 7 ∧ t.tileAt n =
          { Tile.reset with sread := s.lap % 2, tgen := (s.tileAt n).tgen, halted := (s.tileAt n).halted,
                            haltLap := (s.tileAt n).haltLap }) ∧
        t = { s with regs := t.regs, outs := t.outs, host := t.host, fab := t.fab
                     tile := { s.tile with heats := t.tile.heats, tiles := t.tile.tiles }
                     power := { s.power with gated := true, stopped := t.power.stopped, trans := none } })) ∧
    (∀ a q, s.power.trans = some (.toKeep a q) →
      let due := a + (if q then 0 else s.fLap) + 1
      (s.lap < due → exec .quietGate s = .next s) ∧
      (due ≤ s.lap → ∃ t, exec .quietGate s = .next t ∧ t.pstate = 6 ∧ t.power.trans = none ∧
        (q = false → t.power.gated = true) ∧
        (t.reg Reg.GLB_EVENT_ev.off).getLsbD 1 = true ∧ PinsFollow { s.pads with thruLow := false } t ∧
        t.audio = { AudioSt.reset with layout := s.audio.layout } ∧
        (∀ k, k < 9 → t.runnerState k = if s.runnerState k = 3 then 3 else 0) ∧
        t.core = { s.core with runners := [] } ∧
        t.fab = { FabricSt.reset with keeperRam := s.fab.keeperRam, keeperPatch := s.fab.keeperPatch } ∧ t.net = NetSt.reset ∧ t.port = PortSt.reset ∧
        t.casc = CascSt.reset ∧ t.sched = SchedSt.reset ∧ t.vault = VaultSt.reset ∧ t.tile.tiles = [] ∧
        t.tile.placed = s.tile.placed ∧ t.host.msix = s.host.msix ∧
        t.time = { s.time with ptp := [] } ∧ t.lap = s.lap ∧ t.syn = s.syn ∧ t.dpll = s.dpll ∧ t.meter = s.meter ∧
        (∀ off, 0x4000 ≤ off ∧ off < 0x18000 ∨ 0x1B000 ≤ off ∧ off < 0x1C000 →
          off ∉ [Reg.HST_STATUS_speed.off, Reg.HST_EVENT_ev.off, Reg.HST_EVT_DROP_count.off] → t.reg off = resetVal off) ∧
        (∀ off, off < 0x4000 → off ∉ [Reg.GLB_PWR_STATUS_state.off, Reg.GLB_EVENT_ev.off,
          (Reg.TIM_PTP_STATE_state 0).off, (Reg.TIM_PTP_STATE_state 1).off] → t.reg off = s.reg off))) ∧
    ((∀ a, s.power.trans ≠ some (.toQuiet a)) → (∀ a q, s.power.trans ≠ some (.toKeep a q)) →
      exec .quietGate s = .next s)) ∧
  (∀ s : State,
    (∀ b, s.power.trans = some (.fromQuiet b) →
      (s.power.gated = false ∨ s.lap < b + 1 → exec .tileUngate s = .next s) ∧
      (s.power.gated = true → b + 1 ≤ s.lap → ∃ t, exec .tileUngate s = .next t ∧
        (∀ n, n < 36 → s.tstate n = 7 → t.tstate n = if s.tileSlot n = none then 3 else 2) ∧
        (∀ k, k < 32 → t.vault.slotReload.get false k = true) ∧
        (∀ o, s.tile.placed.has o = true → t.tile.cold.get false o = true ∧ t.vault.objReload.get false o = true) ∧
        (∀ m ∈ s.power.stopped, m < 16 → t.mstate m = 1 ∧ t.rd (Reg.MOV_STAT_pc m) = s.rd (Reg.MOV_CTL_entry m)) ∧
        t = { s with regs := t.regs, tile := t.tile, audio := t.audio, vault := t.vault, fab := t.fab
                     power := { s.power with gated := false, stopped := [] } }) ∧
      (s.power.gated = true ∨ s.lap < b + 5 → exec .runResume s = .next s) ∧
      (s.power.gated = false → b + 5 ≤ s.lap → ∃ t, exec .runResume s = .next t ∧ t.pstate = 2 ∧
        (t.reg Reg.GLB_EVENT_ev.off).getLsbD 1 = true ∧
        t.power = { s.power with trans := none, recZeroTo := some (b + 5) } ∧
        (∀ p, p < 32 → s.pst p = 5 ∧ (s.aport p).resume = true → t.pst p = 1 ∨ t.pst p = 2) ∧
        (∀ p, p < 32 → s.pst p = 5 ∧ (s.aport p).resume = true → s.run = true → s.syn.change = none → t.pst p = 2) ∧
        (∀ p, p < 32 → ¬(s.pst p = 5 ∧ (s.aport p).resume = true) → s.pst p ≠ 1 → t.pst p = s.pst p) ∧
        (∀ x, x ∈ s.net.ctx.map (·.1) → 512 ≤ x → s.cst x = 1 ∨ s.cst x = 2 → t.ctx x = { s.ctx x with stopAt := 0 }) ∧
        t = { s with regs := t.regs, outs := t.outs, host := t.host, port := { s.port with ports := t.port.ports }
                     net := { s.net with ctx := t.net.ctx }, power := t.power })) ∧
    ((∀ b, s.power.trans ≠ some (.fromQuiet b)) → exec .tileUngate s = .next s ∧ exec .runResume s = .next s)) ∧
  (∀ (s : State) (img : ImageSrc) (failed : List Nat), (∀ n ∈ failed, n < 36) →
    (s.power.trans ≠ some .fromKeep → exec (.keepResume img failed) s = .next s) ∧
    (s.power.trans = some .fromKeep → img.reason s.core.fuses ≠ 0 → ∃ t, exec (.keepResume img failed) s = .next t ∧
      t.pstate = 0 ∧ t.rd Reg.COR_BOOT_state = 4 ∧ t.rd Reg.COR_BOOT_reason = img.reason s.core.fuses ∧
      (t.reg Reg.COR_EVENT_ev.off).getLsbD 1 = true ∧
      PinsFollow s.pads t ∧ Noticed [Reg.GLB_PWR_STATUS_state.off, Reg.COR_BOOT_state.off, Reg.COR_EVENT_ev.off]
        { s with power := { s.power with trans := none }, pads := t.pads } t) ∧
    (s.power.trans = some .fromKeep → img.reason s.core.fuses = 0 → ∃ u t, exec (.keepResume img failed) s = .next t ∧
      ImageLoaded img s.core.slot u ∧ u.pstate = 2 ∧ (∀ k, k < 8 → u.runnerRuns k = true) ∧ u.runnerState 8 = 2 ∧
      PinsFollow s.pads u ∧
      u = { s with regs := u.regs, outs := u.outs, host := u.host, pads := u.pads
                   core := { s.core with image := u.core.image, slot := u.core.slot, runners := u.core.runners }
                   fab := { s.fab with runnerRam := u.fab.runnerRam, pmem := u.fab.pmem
                                       keeperRam := u.fab.keeperRam, keeperPatch := u.fab.keeperPatch }
                   time := { s.time with ptp := u.time.ptp }
                   power := { s.power with trans := none } } ∧
      (t.reg Reg.GLB_EVENT_ev.off).getLsbD 1 = true ∧
      ∀ v, u.engineAlloc 5 0 2112 (u.on Reg.VLT_CFG_store_mirror) = some v → AudioStarts failed u v t ∧
        (s.run = true → t.lap = s.lap ∧ t.time = u.time)))

/-- From R6 to R11, R184, R185, R195, R206, R228, R233, R261, R281, R298, R352, R398, R413, R435: accesses to the registers of
BAR0: what a read answers, what a write leaves in each field, the pairs, the misses and the refusals.
The cases that the rules leave open follow the model's choices (log entries 2, 4, 27, 28). -/
def Obligations.RegistersAreReadAndWritten : Prop :=
  (∀ (s : State) (off size : Nat) (write : Bool), 0 < size → off + size ≤ 0x100000 →
    let fine := size = 4 ∧ off % 4 = 0 ∨ size = 8 ∧ off % 8 = 0 ∧ 0xD000 ≤ off ∧ off < 0xD408
    (s.hostReaches = true → ¬fine → exec (.unsupportedAccess off size write) s = .next { s with resp := .unsupported }) ∧
    (s.hostReaches = false ∨ fine → exec (.unsupportedAccess off size write) s = .next s)) ∧
  (∀ (s : State) (off : Nat), off % 4 = 0 → off < 0x100000 →
    let c := Instr.pairLoRead off
    let here := s.hostReaches = true ∧ inMsix off = false ∧ ownRead off = false
    (¬here → exec c s = .next s) ∧
    (here → s.decodes off = false → ∃ t, exec c s = .next t ∧ DecodeMissed 0 off false s t) ∧
    (here → s.decodes off = true → isLo false off = true → exec c s = .next { s with
      resp := .ok ((s.shown off).setWidth 64), hiLatch := s.hiLatch.insert (off + 4) (s.shown (off + 4)) }) ∧
    (here → s.decodes off = true → isLo false off = false → isHi false off = true →
      exec c s = .next { s with resp := .ok ((s.hiLatch.get 0 off).setWidth 64) }) ∧
    (here → s.decodes off = true → isLo false off = false → isHi false off = false →
      exec c s = .next { s with resp := .ok ((s.shown off).setWidth 64) })) ∧
  (∀ (s u t v : State) (off : Nat), off % 4 = 0 → off + 4 < 0x100000 → isLo false off = true → s.hostReaches = true →
    ownRead off = false → ownRead (off + 4) = false → inMsix off = false → inMsix (off + 4) = false →
    s.decodes off = true → isLo false (off + 4) = false → exec (.pairLoRead off) s = .next u → t.hiLatch = u.hiLatch →
    t.hostReaches = true → t.decodes (off + 4) = true → exec (.pairLoRead (off + 4)) t = .next v →
    u.resp = .ok ((s.shown off).setWidth 64) ∧ v.resp = .ok ((s.shown (off + 4)).setWidth 64)) ∧
  (∀ (s : State) (who : Agent) (off : Nat) (val : Word), who.wf = true → off % 4 = 0 → off < 0x100000 →
    ∀ c, c = Instr.registerWrite who off val ∨ (c = .pairHiWrite who off val ∧ isHi true off = true) →
    let err := [Reg.XBR_EVENT_ev.off, Reg.XBR_ERR_INFO_master.off, Reg.XBR_ERR_ADDR_addr.off, Reg.XBR_ERR_COUNT_count.off]
    (who = .host → s.hostReaches = false → exec c s = .next s) ∧
    (who = .host → s.hostReaches = true → s.decodes off = false → ∃ t, exec c s = .next t ∧ DecodeMissed 0 off true s t) ∧
    (∀ k, who = .runner k →
      (s.runnerRuns k = false → exec c s = .next s) ∧
      (s.runnerRuns k = true → runnerBarred off = true → ∃ t, exec c s = .next t ∧
        XbrError 2 (1 + k) 8 off true s t ∧ TakesBusError (1 + k) err s t) ∧
      (s.runnerRuns k = true → runnerBarred off = false → s.decodes off = false → ∃ t, exec c s = .next t ∧
        XbrError 1 (1 + k) 8 off true s t ∧
        (s.decodePolicy (1 + k) = true → Noticed err s t) ∧
        (s.decodePolicy (1 + k) = false → TakesBusError (1 + k) err s t))) ∧
    (who = .keeper →
      (s.power.main = false ∨ s.power.porLow = true → exec c s = .next s) ∧
      (s.power.main = true → s.power.porLow = false → s.decodes off = false → ∃ t, exec c s = .next t ∧
        XbrError 1 0 8 off true s t ∧ (s.decodePolicy 0 = true → Noticed err s t) ∧
        (s.decodePolicy 0 = false → TakesBusError 0 err s t)))) ∧
  (∀ (s : State) (who : Agent) (off : Nat) (val : Word), who.wf = true → off % 4 = 0 → off < 0x100000 →
    WriteReaches who off s →
    let c := Instr.registerWrite who off val
    let resp := if who = .host then .ok 0 else s.resp
    let elsewhere := inMsix off = true ∨ inPmem off = true ∨ isHi true off = true ∨
      ∃ b, commandBit off = some b ∧ val.getLsbD b = true
    (elsewhere → exec c s = .next s) ∧
    let enable := who ≠ .host ∧ (evRegOfEn off).isSome = true
    (¬elsewhere → isLo true off = true → ¬WriteIgnored off s →
      exec c s = .next { s with loHold := s.loHold.insert (off + 4) val, resp := resp }) ∧
    (¬elsewhere → WriteIgnored off s → exec c s = .next { s with resp := resp }) ∧
    (∀ e, ¬elsewhere → who ≠ .host → evRegOfEn off = some e → ∃ t, exec c s = .next t ∧ EnableTaken who off e val s t) ∧
    (¬elsewhere → isLo true off = false → ¬WriteIgnored off s → ¬enable → ∃ t, exec c s = .next t ∧ t.resp = resp ∧
      (off ≠ 0x3100 → off ≠ 0x3180 → ¬(0x3200 ≤ off ∧ off < 0x3300 ∧ off % 0x20 = 0) →
        FieldsTake off (s.takesLocked who off) val s t) ∧
      (∀ n, n < 2 → off = 0x3100 + 0x80 * n → s.rd (Reg.TIM_PTP_CFG_role n) ≠ 0 →
        ∀ d i f, regAt off = some (d, i) → f ∈ d.fields → f.lo ≠ 0 →
          bitsOf (t.reg off).toNat f.lo f.width = bitsOf (s.reg off).toNat f.lo f.width) ∧
      (∀ n, n < 2 → off = 0x3100 + 0x80 * n → s.rd (Reg.TIM_PTP_CFG_role n) = 0 → FieldsTake off true val s t) ∧
      (isCtxReg off = true → t = { s with net := { s.net with ctxRegs := t.net.ctxRegs }, resp := resp } ∧
        ∀ k, k ≠ s.selCtx * 0x100 + (off - 0x6000) → t.net.ctxRegs.get 0 k = s.net.ctxRegs.get 0 k) ∧
      (isCtxReg off = false → ¬ActsOn off → t = { s with regs := t.regs, resp := resp } ∧ SameRegs [off] s t) ∧
      (∀ n, n < 8 → off = 0x3200 + 0x20 * n → (t.tout n).armed = false ∧ t.on (Reg.TIM_TOUT_CFG_arm n) = false) ∧
      (∀ n, n < 4 → off = 0x2300 + 0x20 * n →
        (t.on (Reg.DPL_FP_CFG_en n) = false → t.rd (Reg.DPL_FP_CTL_state n) = 0) ∧
        (t.on (Reg.DPL_FP_CFG_en n) = true → t.rd (Reg.DPL_FP_CTL_state n) =
          if s.rd (Reg.DPL_FP_CTL_state n) = 0 then 3 else s.rd (Reg.DPL_FP_CTL_state n))) ∧
      (∀ p, p < 2 → off = 0x4000 + 0x1000 * p → t.rd (Reg.NT_CFG_mode p) = 0 → t.on (Reg.NT_STATUS_link p) = false) ∧
      (off = 0x4000 ∨ off = 0x5000 ∨ (0x8020 ≤ off ∧ off < 0x8030) → PinsFollow s.pads t) ∧
      (0x1B080 ≤ off ∧ off < 0x1B0C0 → SameRegs [off, Reg.SCH_STATUS_blocked.off] s t ∧
        t = { s with regs := t.regs, resp := resp
                     sched := { s.sched with tasks := t.sched.tasks, queues := t.sched.queues, stat := t.sched.stat }
                     core := { s.core with runners := t.core.runners } } ∧
        ∀ n, t.task n = s.task n ∨ ∃ k p, n ∈ s.queue p ∧ (s.runner k).inTake.isSome = true ∧
          t.task n = { s.task n with st := .running, runner := k }) ∧
      (off = 0x1F000 ∨ off = 0x1F004 → t.rd Reg.PAD_GPIO_IN_in = t.gpioLevels))) ∧
  (∀ (s : State) (who : Agent) (off : Nat) (val : Word), who.wf = true → off % 4 = 0 → off < 0x100000 →
    (isHi true off = false → exec (.pairHiWrite who off val) s = .next s) ∧
    (isHi true off = true → WriteReaches who off s → WriteIgnored off s →
      exec (.pairHiWrite who off val) s =
        .next { s with resp := if who = .host then .ok 0 else s.resp }) ∧
    (isHi true off = true → WriteReaches who off s → s.ignores off = false → s.ignores (off - 4) = false →
      ∃ t, exec (.pairHiWrite who off val) s = .next t ∧ t.loHold = s.loHold.erase off ∧
      t.resp = (if who = .host then .ok 0 else s.resp) ∧
      (∀ p, p < 2 → off = 0x4030 + 0x1000 * p → s.loHold.has off = true →
        ∀ k, (t.nport p).mcast.get 0 k = if k = s.rd (Reg.NT_MCAST_SEL_entry p)
          then (s.loHold.get 0 off).toNat + 2 ^ 32 * (val.toNat % 2 ^ 17 + s.mcastSel p / 2 ^ 49 * 2 ^ 17)
          else (s.nport p).mcast.get 0 k) ∧
      (off ≠ 0x4030 → off ≠ 0x5030 → ¬WriteIgnored off s →
        FieldsTake off (s.takesLocked who off) val s t ∧
        (s.loHold.has off = true → FieldsTake (off - 4) (s.takesLocked who (off - 4)) (s.loHold.get 0 off) s t) ∧
        (s.loHold.has off = false → t.stored (off - 4) = s.stored (off - 4)) ∧
        (isCtxReg off = false → ¬ActsOn off →
          t = { s with regs := t.regs, loHold := t.loHold, resp := t.resp } ∧ SameRegs [off, off - 4] s t)))) ∧
  (∀ (s : State) (off : Nat) (val : Word), off % 4 = 0 → off < 0x100000 →
    let c := Instr.eventEnableWrite off val
    (evRegOfEn off = none ∨ s.hostReaches = false → exec c s = .next s) ∧
    (∀ e, evRegOfEn off = some e → s.hostReaches = true →
      (s.decodes off = false → ∃ t, exec c s = .next t ∧ DecodeMissed 0 off true s t) ∧
      (s.decodes off = true → ∃ t, exec c s = .next t ∧ EnableTaken .host off e val s t)))

/-- From R177, R179, R180, R182 to R184, R194, R226, R227, R229, R231, R367, R384, R406, R413: accesses to the MSI-X table, through the
windows of BAR4 and to configuration space, and the service calls.
The cases that the rules leave open follow the model's choices (log entries 6, 13, 24, 26, 28, 57, 61). -/
def Obligations.WindowsConfigurationAndServices : Prop :=
  (∀ (s : State) (off size : Nat) (write : Bool) (val : BitVec 64), off < 0x408 → size = 4 ∨ size = 8 → off % size = 0 →
    let c := Instr.msixTableAccess off size write val
    let v := off / 16
    let e := s.host.msix.get MsixEntry.reset v
    (s.hostReaches = false → exec c s = .next s) ∧
    (s.hostReaches = true → s.pstate = 6 → ∃ t, exec c s = .next t ∧ DecodeMissed 0 (0xD000 + off) write s t) ∧
    (s.hostReaches = true → s.pstate ≠ 6 →
      (size = 8 → write = true → ∃ u t, exec (.msixTableAccess off 4 true val) s = .next u ∧
        exec (.msixTableAccess (off + 4) 4 true (val >>> 32)) u = .next t ∧ exec c s = .next t) ∧
      (size = 8 → write = false → ∃ a b, exec (.msixTableAccess off 4 false val) s = .next { s with resp := .ok a } ∧
        exec (.msixTableAccess (off + 4) 4 false val) s = .next { s with resp := .ok b } ∧
        exec c s = .next { s with resp := .ok (BitVec.ofNat 64 (a.toNat + 2 ^ 32 * b.toNat)) }) ∧
      (size = 4 → write = false → ∃ w : Word, exec c s = .next { s with resp := .ok (w.setWidth 64) } ∧
        (off < 0x400 → w = (if off % 16 = 0 then e.addrLo else if off % 16 = 4 then e.addrHi
          else if off % 16 = 8 then e.data else e.ctl)) ∧
        (0x400 ≤ off → ∀ k, k < 32 → w.getLsbD k = s.host.pba.get false (32 * ((off - 0x400) / 4) + k))) ∧
      (size = 4 → write = true → 0x400 ≤ off → exec c s = .next { s with resp := .ok 0 }) ∧
      (size = 4 → write = true → off < 0x400 → ∃ t, exec c s = .next t ∧
        t = { s with host := t.host, outs := t.outs, resp := .ok 0 } ∧
        t.host = { s.host with msix := t.host.msix, pba := t.host.pba } ∧
        t.host.msix.get MsixEntry.reset v = (if off % 16 = 0 then { e with addrLo := val.setWidth 32 }
          else if off % 16 = 4 then { e with addrHi := val.setWidth 32 }
          else if off % 16 = 8 then { e with data := val.setWidth 32 }
          else { e with ctl := val.setWidth 32 &&& 1 }) ∧
        (∀ x, x ≠ v → t.host.msix.get MsixEntry.reset x = s.host.msix.get MsixEntry.reset x) ∧
        (s.on Reg.HST_STATUS_bme = true → s.host.msixEn = true → s.host.msixMask = false →
          ∀ x, (t.host.msix.get MsixEntry.reset x).ctl.getLsbD 0 = false → t.host.pba.get false x = false)))) ∧
  (∀ (s : State) (o w : Nat), s.windowAt o = some w ↔
    (w < 8 ∧ s.on (Reg.HST_WIN_CTL_en w) = true ∧ s.winBase w ≤ o ∧ o < s.winBase w + s.winSize w) ∧
    ∀ v, v < w → ¬(s.on (Reg.HST_WIN_CTL_en v) = true ∧ s.winBase v ≤ o ∧ o < s.winBase v + s.winSize v)) ∧
  (∀ (s : State) (off size : Nat) (write : Bool) (data : List Byte) (ecc : List (Nat × CellEcc)) (waits : Nat),
    (Instr.bar4Access off size write data ecc waits).wf = true →
    let c := Instr.bar4Access off size write data ecc waits
    let conf := [(Reg.XBR_CONF_count 4).off]
    let counted (t : State) := t.rd (Reg.XBR_CONF_count 4) =
      if waits = 0 then s.rd (Reg.XBR_CONF_count 4) else min (s.rd (Reg.XBR_CONF_count 4) + waits) (2 ^ 32 - 1)
    let missed := ∃ t, exec c s = .next t ∧ DecodeMissed 2 off write s t
    (s.hostReaches = false → exec c s = .next s) ∧
    (s.hostReaches = true → s.windowAt off = none → missed) ∧
    (∀ w, s.hostReaches = true → s.windowAt off = some w →
      let region := s.rd (Reg.HST_WIN_CTL_region w)
      let a := s.rd (Reg.HST_WIN_TGT_tgt w) * 4096 + (off - s.winBase w)
      let z := a + size - 1
      let may := region = 0 ∧ s.on (Reg.HST_WIN_CTL_wr w) = true ∧ s.cellarOk 26 a true = true ∧ s.cellarOk 26 z true = true
      let out := s.pstate = 6 ∨ (region = 0 ∧ 0x6000000 ≤ z) ∨ (region = 1 ∧ 0x80000 ≤ z) ∨ (region = 2 ∧ 0x800000 ≤ z) ∨
        region = 3 ∨ s.windowAt (off + size - 1) ≠ some w
      let pooled := s.cellarOk 26 a false = true ∧ s.cellarOk 26 z false = true
      (out ∨ (write = true ∧ ¬may) → missed) ∧
      (¬out → write = true → may → ∃ t, exec c s = .next t ∧
        t = { s with regs := t.regs, fab := { s.fab with cellar := t.fab.cellar }, resp := .ok 0 } ∧ SameRegs conf s t ∧
        counted t ∧ (∀ b, ¬(a ≤ b ∧ b < a + size) → s.inTwin b = false → t.fab.cellar.get 0 b = s.fab.cellar.get 0 b) ∧
        (∀ k, k < size → s.inTwin (a + k) = false → t.fab.cellar.get 0 (a + k) = data.getD k 0)) ∧
      (¬out → write = false → region = 0 → ¬pooled → ∃ t, exec c s = .next t ∧ XbrError 2 26 0 a false s t ∧
        t.resp = .unsupported ∧ Noticed [Reg.XBR_EVENT_ev.off, Reg.XBR_ERR_INFO_master.off, Reg.XBR_ERR_ADDR_addr.off,
          Reg.XBR_ERR_COUNT_count.off] { s with resp := .unsupported } t) ∧
      (¬out → write = false → region = 0 → pooled →
        ∃ t l, exec c s = .next t ∧ (t.resp = .bytes l ∨ t.resp = .marked l) ∧ counted t ∧
          t = { s with regs := t.regs, outs := t.outs, host := t.host, health := t.health
                       free := s.free + b2n ((List.range size).any (fun k => s.engineByte (a + k))), resp := t.resp } ∧
          l.length = size ∧ (ecc = [] → t.resp = .bytes l ∧ SameRegs conf s t ∧ t.health = s.health) ∧
          (∀ k, k < size → s.engineByte (a + k) = false → (∀ e ∈ ecc, e.1 ≠ (a + k) / 8 - a / 8 ∨ e.2 = .ok ∨ e.2 = .corrected) →
            l.getD k 0 = s.fab.cellar.get 0 (a + k)) ∧
          ∀ k, k < size → ((a + k) / 8 - a / 8, CellEcc.allBad) ∈ ecc → t.resp = .marked l ∧ l.getD k 1 = 0) ∧
      (¬out → write = false → region = 1 →
        exec c s = .next { s with resp := .bytes ((List.range size).map (fun k => s.host.snapArea.get 0 (a + k))) }) ∧
      (¬out → write = false → region = 2 → ∃ l, exec c s = .next { s with resp := .bytes l } ∧ l.length = size ∧
        ∀ k, k < size → l.getD k 0 =
          (let b := a + k
           if b < 0x400000 then (s.meter.mirror.get [] (b / 128)).getD (b % 128) 0
           else if b < 0x400040 then s.meter.mirrorStatus.getD (b - 0x400000) 0
           else if b < 0x400080 then s.meter.mirrorKey.getD (b - 0x400040) 0
           else s.meter.mirrorCfg.getD (b - 0x400080) 0)))) ∧
  (∀ s : State,
    let up := s.hostReaches = true ∧ s.rd Reg.HST_STATUS_speed ≠ 0
    (∀ q, ¬up → exec (.configRequest q) s = .next s) ∧
    (∀ q, up → s.host.ids = none → exec (.configRequest q) s = .next { s with resp := .retry }) ∧
    (∀ v sv sid, up → s.host.ids = some (v, sv, sid) →
      exec (.configRequest .readIds) s = .next { s with
        resp := .ok (BitVec.ofNat 64 (v + 0x9648 * 2 ^ 16 + sv * 2 ^ 32 + sid * 2 ^ 48)) } ∧
      (∀ on, ∃ t, exec (.configRequest (.memorySpace on)) s = .next t ∧ t.on Reg.HST_STATUS_mse = on ∧
        t = { s with regs := t.regs, resp := .ok 0 } ∧ SameRegs [Reg.HST_STATUS_mse.off] s t) ∧
      (∀ en mask, ∃ t, exec (.configRequest (.msixControl en mask)) s = .next t ∧
        t = { s with host := { s.host with msixEn := en, msixMask := mask, pba := t.host.pba }
                     outs := t.outs, resp := .ok 0 } ∧
        (en = false ∨ mask = true → t.outs = s.outs) ∧
        (s.on Reg.HST_STATUS_bme = true → en = true → mask = false →
          ∀ x, (s.host.msix.get MsixEntry.reset x).ctl.getLsbD 0 = false → t.host.pba.get false x = false)) ∧
      (∀ e ∈ [(CfgField.classCode, 0x040100), (.maxPayloadSupported, 2), (.completionTimeoutRanges, 0),
          (.completionTimeoutDisable, 0), (.aspmSupport, 2), (.extendedTag, 1), (.tenBitTag, 0), (.functionLevelReset, 1),
          (.msixTableSize, 63), (.interruptPin, 0)],
        exec (.configRequest (.field e.1)) s = .next { s with resp := .ok (BitVec.ofNat 64 e.2) }) ∧
      (∀ e, exec (.configRequest (.capability e)) s = .next { s with resp := .ok (if e ∈ [.powerManagement, .pciExpress,
        .msix, .advancedErrorReporting] then 1 else 0) }) ∧
      (∀ n v, n < 6 → ∃ t, exec (.configRequest (.barWrite n v)) s = .next t ∧ t.host.bar.get 0 n = v ∧
        (∀ j, j ≠ n → t.host.bar.get 0 j = s.host.bar.get 0 j) ∧
        t = { s with host := { s.host with bar := t.host.bar }, resp := .ok 0 }) ∧
      (∀ n, n < 6 → ∃ w : Word, exec (.configRequest (.barRead n)) s = .next { s with resp := .ok (w.setWidth 64) } ∧
        (n % 2 = 1 → w = s.host.bar.get 0 n) ∧
        (n % 2 = 0 → w.toNat % 16 = (if n = 4 then 12 else 4) ∧ ∀ k, 4 ≤ k → k < 32 →
          w.getLsbD k = ((s.host.bar.get 0 n).getLsbD k && decide ((if n = 0 then 20 else if n = 2 then 16 else 28) ≤ k)))) ∧
      ∃ x k, exec (.configRequest .other) s = .next { s with resp := .ok x, free := k })) ∧
  (∀ (s : State) (r : Nat) (req : List Byte), r < 64 →
    let up := s.ringRuns r = true ∧ s.on Reg.HST_STATUS_bme = true ∧ s.served = true
    (¬up ∨ s.oldest r 0x14 .taken = none → exec (.svcCall r req) s = .next s) ∧
    (∀ d, up → s.oldest r 0x14 .taken = some d →
      let n := req.length
      let v := d.word 4 % 65536
      let ok := v = 0x0001 ∧ n = 0 ∨ v = 0x0010 ∧ n = 4 ∨ v = 0x0020 ∧ n = 4 ∨ v = 0x0030 ∧ n = 8 ∨ v = 0x00F0 ∧ n ≤ 4096
      (n ≠ chainBytes d.segs → exec (.svcCall r req) s = .next s) ∧
      (n = chainBytes d.segs → ok → ∃ t, exec (.svcCall r req) s = .next t ∧
        t = { s with host := { s.host with rings := t.host.rings } } ∧ (∀ q, q ≠ r → t.ring q = s.ring q) ∧
        (t.ring r).descs = (s.ring r).descs.map (fun x => if x.id = d.id then { d with stage := .active, data := req } else x) ∧
        t.ring r = { s.ring r with descs := (t.ring r).descs }) ∧
      (n = chainBytes d.segs → ¬ok → ∀ rest, AtHead r 0x14 d rest s →
        ∃ t, exec (.svcCall r req) s = .next t ∧ CallRejected r d rest s t))) ∧
  (∀ (s : State) (r : Nat) (i : Instr) (v : Nat), r < 64 →
    (i = .getIdent r ∧ v = 0x01 ∨ i = .ptpState r ∧ v = 0x10 ∨ i = .mcastList r ∧ v = 0x20 ∨
      (∃ x, i = .sfpRead r x ∧ v = 0x30 ∧ ∀ l, x = some l → l.length = 256) ∨ i = .echo r ∧ v = 0xF0) →
    s.served = false ∨ s.on Reg.HST_STATUS_bme = false ∨ s.callOf r v = none → exec i s = .next s) ∧
  (∀ (s : State) (r : Nat) (d : Desc) (rest : List Desc), r < 64 →
    (CallWaits r 0x01 d rest s → ∃ t, exec (.getIdent r) s = .next t ∧ CallAnswered r d rest 0
      (leBytes 4 (s.rd Reg.COR_FW_VER_ver) ++ leBytes 4 (s.rd Reg.COR_SV_image) ++ leBytes 4 (s.rd Reg.COR_SV_fuse) ++
        leBytes 4 s.core.slot ++ beBytes 48 ((s.core.image.map (·.hash)).getD 0)) s t) ∧
    (CallWaits r 0xF0 d rest s → ∃ t, exec (.echo r) s = .next t ∧ CallAnswered r d rest 0 d.data s t) ∧
    (CallWaits r 0x10 d rest s →
      let n := ofLe (d.data.take 4)
      (2 ≤ n → ∃ t, exec (.ptpState r) s = .next t ∧ CallRejected r d rest s t) ∧
      (n < 2 → ∃ t b, exec (.ptpState r) s = .next t ∧ CallAnswered r d rest 0 b s t ∧ b.length = 64 ∧
        ofLe (b.take 4) = s.ptpState n ∧
        ofLe ((b.drop 4).take 8) = s.rd64 (Reg.TIM_PTP_GM_LO_id n) (Reg.TIM_PTP_GM_HI_id n) ∧
        (BitVec.ofNat 64 (ofLe ((b.drop 20).take 8))) = BitVec.ofInt 64 ((s.ptp n).mpd / 65536) ∧
        (BitVec.ofNat 64 (ofLe ((b.drop 28).take 8))) = BitVec.ofInt 64 ((s.ptp n).off / 65536) ∧
        (∀ k, 39 ≤ k → b.getD k 0 = 0))) ∧
    (CallWaits r 0x20 d rest s →
      let p := ofLe (d.data.take 4)
      (2 ≤ p → ∃ t, exec (.mcastList r) s = .next t ∧ CallRejected r d rest s t) ∧
      (p < 2 → ∃ (t : State) (l : List (Nat × Nat)), exec (.mcastList r) s = .next t ∧ l.length ≤ 1024 ∧ l.Nodup ∧
        (∀ e ∈ l, e.1 ∈ (s.nport p).groups ∧ ∃ c ∈ s.groupCtx p, e = (s.cDst c p, s.cSrc c p)) ∧
        CallAnswered r d rest 0 (leBytes 4 l.length ++ l.flatMap (fun e => leBytes 4 e.1 ++ leBytes 4 e.2)) s t)) ∧
    (CallWaits r 0x30 d rest s → ∀ x : Option (List Byte), (∀ l, x = some l → l.length = 256) →
      let p := ofLe (d.data.take 4)
      let page := ofLe ((d.data.drop 4).take 4)
      let absent := s.on (Reg.NT_STATUS_mod_abs p) = true ∨ s.on (Reg.NT_I2C_STAT_busy p) = true
      (2 ≤ p ∨ 2 ≤ page → ∃ t, exec (.sfpRead r x) s = .next t ∧ CallRejected r d rest s t) ∧
      (p < 2 → page < 2 → absent → ∃ t, exec (.sfpRead r x) s = .next t ∧ CallAnswered r d rest 2 [] s t) ∧
      (p < 2 → page < 2 → ¬absent → s.rd Reg.HST_EVT_CFG_ring ≠ r → ∃ u t, exec (.sfpRead r x) s = .next t ∧
        CallAnswered r d rest (if x = none then 2 else 0) (x.getD []) u t ∧
        (t.reg (Reg.NT_EVENT_ev p).off).getLsbD 2 = true ∧
        (x = none → (t.reg (Reg.NT_EVENT_ev p).off).getLsbD 3 = true) ∧
        (∀ e ∈ (List.range (if x = none then 1 else 256)).map (fun k => Out.i2c p (0x50 + page) true k 0), e ∈ u.outs) ∧
        t.on (Reg.NT_I2C_STAT_nack p) = x.isNone ∧
        Noticed [(Reg.NT_I2C_dev p).off, (Reg.NT_I2C_STAT_nack p).off, (Reg.NT_EVENT_ev p).off] s u)))

/-- The block takes the command at the front of its queue and answers what the command does on the state with the
queue's rest; with no command waiting it idles (log 1); a well-formed command always answers a next state, and one that
names a unit the engine does not have, a fault (log 8). -/
def Obligations.TheFrontCommandActs : Prop :=
  (∀ (s : State) (c : Instr) (rest : List Instr), s.pending = c :: rest → step s = exec c { s with pending := rest }) ∧
  (∀ s : State, s.pending = [] → step s = .next s) ∧
  (∀ (s : State) (c : Instr), c.wf = false → exec c s = .fault .illFormed) ∧
  (∀ (s : State) (c : Instr), c.wf = true → ∃ t, exec c s = .next t)

/-- From R17, R182, R286, R352, R384, R401, R404, R405, R407, R416, R420, R435: what the reset of the whole engine leaves: every
register at its reset value, lap 0, no processing, no image, no ring, no tile that runs, no meter supply; and the
memories in their canonical form (that they read zero is the model's choice, log 4). -/
def Obligations.ResetLeavesTheTabledValues : Prop :=
  let z := State.reset
  (∀ off, z.reg off = resetVal off) ∧ z.pending = [] ∧ z.outs = [] ∧ z.lap = 0 ∧ z.run = false ∧ z.pstate = 0 ∧
  z.power.porLow = true ∧ z.power.trans = none ∧ z.core.image = none ∧ z.core.burn = [] ∧
  z.on Reg.COR_LOCK_locked = false ∧ z.on Reg.GLB_RESET_CAUSE_por = true ∧ z.keeperOk = true ∧
  (∀ k, z.runnerRuns k = false) ∧ (∀ r, r < 64 → z.ringOn r = false ∧ (z.ring r).descs = [] ∧ z.doorbell r = 0) ∧
  (∀ p, p < 32 → z.pst p = 0) ∧ (∀ m, m < 16 → z.mstate m = 0) ∧ z.fab.allocs = [] ∧
  z.host.ids = none ∧ z.syn.onRoot = false ∧ z.meter.power = false ∧ z.meter.running = false ∧
  z.pads.thruLow = false ∧ z.pads.synLock = false ∧ z.tile.placed = [] ∧ (∀ n, z.tileAt n = Tile.reset) ∧
  Memory.wf z = true ∧ Burnt z.core.fuses z.meter.fuses z

/-- Every step keeps the canonical form of the memories, so that equal memories are equal data. -/
def Obligations.EveryStepKeepsTheMemoriesCanonical : Prop :=
  ∀ s t : State, Memory.wf s = true → step s = .next t → Memory.wf t = true

/-- From R356, R379, R392, R405: no step of any command, a reset or a loss of supply among them, takes back a fuse that is
burnt: the anti-rollback counter and the repairs only rise, keys and revocations stand, and the meter's configurations,
keys and seal events only grow.
The cases that the rules leave open follow the model's choices (log entries 20, 48). -/
def Obligations.NoStepTakesBackAFuse : Prop :=
  ∀ (f : Fuses) (g : SlmFuses) (s t : State), Burnt f g s → step s = .next t → Burnt f g t

/-- From R16, R17, R370, R385, R405, R408: over every command: a step takes exactly one command from the queue; only a boundary
moves the lap index on, by one, and only a start or a reset sets it; and no command but the meter's own reaches the meter's
state, of which the main engine holds the mirror alone.
The cases that the rules leave open follow the model's choices (log entries 1, 2). -/
def Obligations.OnlyTheirCommandsMoveTheLapAndTheMeter : Prop :=
  ∀ (s t : State) (c : Instr) (rest : List Instr), s.pending = c :: rest → step s = .next t →
    t.pending = rest ∧
    (¬MovesLap c → t.lap = s.lap) ∧
    (c = .lapBoundary → t.lap = if s.run = true ∧ s.on Reg.SYN_STATUS_gated = false then s.lap + 1 else s.lap) ∧
    (c = .porNAssert ∨ c = .mainPowerRemove → t.lap = 0) ∧
    ((∃ src, c = .chipReset src) ∨ c = .keeperFuseBurnDone → t.lap = s.lap ∨ t.lap = 0) ∧
    ((∃ n l, c = .startProcessing n l) ∨ (∃ n l, c = .autoStart n l) ∨ (∃ i l, c = .keepResume i l) → s.run = true →
      t.lap = s.lap) ∧
    (¬OfMeter c → t.meter = { s.meter with mirror := t.meter.mirror, mirrorStatus := t.meter.mirrorStatus
                                           mirrorKey := t.meter.mirrorKey, mirrorCfg := t.meter.mirrorCfg })
end

