-- ==== Sys2Proof/Laws/Calm.lean ====
section
/-! SUPPORT. What almost no command touches: the queue, the lap index and the fuses. One lemma for each operation over
the state. -/

set_option linter.unusedSimpArgs false

namespace Sys2Proof.Machine

/-- The parts of the state that nearly every operation leaves: the queue, the lap, the fuses of the engine and of the
meter. -/
abbrev State.Calm (t s : State) : Prop :=
  t.pending = s.pending ∧ t.lap = s.lap ∧ t.core.fuses = s.core.fuses ∧ t.meter = s.meter

theorem State.Calm.refl (s : State) : s.Calm s := ⟨rfl, rfl, rfl, rfl⟩

theorem State.Calm.trans {a b c : State} (h : c.Calm b) (g : b.Calm a) : c.Calm a :=
  ⟨h.1.trans g.1, h.2.1.trans g.2.1, h.2.2.1.trans g.2.2.1, h.2.2.2.trans g.2.2.2⟩

/-- The parts that every operation leaves but a burn of a fuse: as `State.Calm`, of the meter the fuses only. -/
abbrev State.Held (t s : State) : Prop :=
  t.pending = s.pending ∧ t.lap = s.lap ∧ t.core.fuses = s.core.fuses ∧ t.meter.fuses = s.meter.fuses

theorem State.Calm.held {a b : State} (h : b.Calm a) : b.Held a := ⟨h.1, h.2.1, h.2.2.1, congrArg (·.fuses) h.2.2.2⟩

theorem State.Held.refl (s : State) : s.Held s := ⟨rfl, rfl, rfl, rfl⟩

theorem State.Held.trans {a b c : State} (h : c.Held b) (g : b.Held a) : c.Held a :=
  ⟨h.1.trans g.1, h.2.1.trans g.2.1, h.2.2.1.trans g.2.2.1, h.2.2.2.trans g.2.2.2⟩

@[simp] theorem ite_pending (c : Prop) [Decidable c] (a b : State) :
    (if c then a else b).pending = if c then a.pending else b.pending := by split <;> rfl

@[simp] theorem ite_lap (c : Prop) [Decidable c] (a b : State) :
    (if c then a else b).lap = if c then a.lap else b.lap := by split <;> rfl

@[simp] theorem ite_coreFuses (c : Prop) [Decidable c] (a b : State) :
    (if c then a else b).core.fuses = if c then a.core.fuses else b.core.fuses := by split <;> rfl

@[simp] theorem ite_meter (c : Prop) [Decidable c] (a b : State) :
    (if c then a else b).meter = if c then a.meter else b.meter := by split <;> rfl

/-- A fold of an operation that leaves a part of the state leaves it. -/
theorem foldl_keeps {α β γ : Type} (g : α → γ) (f : α → β → α) (h : ∀ a b, g (f a b) = g a) (l : List β) (a : α) :
    g (l.foldl f a) = g a := by
  induction l generalizing a with
  | nil => rfl
  | cons b l ih => simp [ih, h]

@[simp] theorem foldl_pending {β : Type} (f : State → β → State) (h : ∀ s b, (f s b).pending = s.pending) (l : List β)
    (s : State) : (l.foldl f s).pending = s.pending := foldl_keeps (·.pending) f h l s

@[simp] theorem foldl_lap {β : Type} (f : State → β → State) (h : ∀ s b, (f s b).lap = s.lap) (l : List β)
    (s : State) : (l.foldl f s).lap = s.lap := foldl_keeps (·.lap) f h l s

@[simp] theorem foldl_coreFuses {β : Type} (f : State → β → State) (h : ∀ s b, (f s b).core.fuses = s.core.fuses)
    (l : List β) (s : State) : (l.foldl f s).core.fuses = s.core.fuses := foldl_keeps (·.core.fuses) f h l s

@[simp] theorem foldl_meter {β : Type} (f : State → β → State) (h : ∀ s b, (f s b).meter = s.meter)
    (l : List β) (s : State) : (l.foldl f s).meter = s.meter := foldl_keeps (·.meter) f h l s

@[simp] theorem foldl_snd_pending {β γ : Type} (f : γ × State → β → γ × State)
    (h : ∀ a b, (f a b).2.pending = a.2.pending) (l : List β) (a : γ × State) :
    (l.foldl f a).2.pending = a.2.pending := foldl_keeps (·.2.pending) f h l a

@[simp] theorem foldl_snd_lap {β γ : Type} (f : γ × State → β → γ × State)
    (h : ∀ a b, (f a b).2.lap = a.2.lap) (l : List β) (a : γ × State) :
    (l.foldl f a).2.lap = a.2.lap := foldl_keeps (·.2.lap) f h l a

@[simp] theorem foldl_snd_coreFuses {β γ : Type} (f : γ × State → β → γ × State)
    (h : ∀ a b, (f a b).2.core.fuses = a.2.core.fuses) (l : List β) (a : γ × State) :
    (l.foldl f a).2.core.fuses = a.2.core.fuses := foldl_keeps (·.2.core.fuses) f h l a

@[simp] theorem foldl_snd_meter {β γ : Type} (f : γ × State → β → γ × State)
    (h : ∀ a b, (f a b).2.meter = a.2.meter) (l : List β) (a : γ × State) :
    (l.foldl f a).2.meter = a.2.meter := foldl_keeps (·.2.meter) f h l a

@[simp] theorem foldl_fst_pending {β γ : Type} (f : State × γ → β → State × γ)
    (h : ∀ a b, (f a b).1.pending = a.1.pending) (l : List β) (a : State × γ) :
    (l.foldl f a).1.pending = a.1.pending := foldl_keeps (·.1.pending) f h l a

@[simp] theorem foldl_fst_lap {β γ : Type} (f : State × γ → β → State × γ)
    (h : ∀ a b, (f a b).1.lap = a.1.lap) (l : List β) (a : State × γ) :
    (l.foldl f a).1.lap = a.1.lap := foldl_keeps (·.1.lap) f h l a

@[simp] theorem foldl_fst_coreFuses {β γ : Type} (f : State × γ → β → State × γ)
    (h : ∀ a b, (f a b).1.core.fuses = a.1.core.fuses) (l : List β) (a : State × γ) :
    (l.foldl f a).1.core.fuses = a.1.core.fuses := foldl_keeps (·.1.core.fuses) f h l a

@[simp] theorem foldl_fst_meter {β γ : Type} (f : State × γ → β → State × γ)
    (h : ∀ a b, (f a b).1.meter = a.1.meter) (l : List β) (a : State × γ) :
    (l.foldl f a).1.meter = a.1.meter := foldl_keeps (·.1.meter) f h l a

theorem foldl_calm {β : Type} (f : State → β → State) (h : ∀ s b, (f s b).Calm s) (l : List β) (s : State) :
    (l.foldl f s).Calm s := by
  induction l generalizing s with
  | nil => exact .refl s
  | cons b l ih => exact (ih _).trans (h s b)

theorem foldl_snd_calm {β γ : Type} (f : γ × State → β → γ × State) (h : ∀ a b, (f a b).2.Calm a.2) (l : List β)
    (a : γ × State) : (l.foldl f a).2.Calm a.2 := by
  induction l generalizing a with
  | nil => exact .refl _
  | cons b l ih => exact (ih _).trans (h a b)

theorem foldl_fst_calm {β γ : Type} (f : State × γ → β → State × γ) (h : ∀ a b, (f a b).1.Calm a.1) (l : List β)
    (a : State × γ) : (l.foldl f a).1.Calm a.1 := by
  induction l generalizing a with
  | nil => exact .refl _
  | cons b l ih => exact (ih _).trans (h a b)

theorem State.serve_calm (s : State) (r service : Nat) (f : Desc → State) (h : ∀ d, (f d).Calm s) :
    (s.serve r service f).Calm s := by
  unfold State.serve
  split
  · split
    · exact .refl s
    · exact h _
  · exact .refl s

/-! ### Ops -/

@[simp] theorem State.setReg_calm (s : State) (off : Nat) (v : Word) : (State.setReg s off v).Calm s := by
  simp [State.Calm, State.setReg]

@[simp] theorem State.wr_calm (s : State) (f : Fld) (v : Nat) : (State.wr s f v).Calm s := by
  simp [State.Calm, State.wr]

@[simp] theorem State.wrS_calm (s : State) (f : Fld) (v : Int) : (State.wrS s f v).Calm s := by
  simp [State.Calm, State.wrS]

@[simp] theorem State.bump_calm (s : State) (f : Fld) (n : Nat) : (State.bump s f n).Calm s := by
  simp [State.Calm, State.bump]

@[simp] theorem State.wr64_calm (s : State) (lo : Fld) (hi : Fld) (v : Nat) : (State.wr64 s lo hi v).Calm s := by
  simp [State.Calm, State.wr64]

@[simp] theorem State.drawBits_calm (s : State) (w : Nat) : (State.drawBits s w).2.Calm s := by
  simp [State.Calm, State.drawBits]

@[simp] theorem State.drawInt_calm (s : State) : (State.drawInt s).2.Calm s := by
  simp [State.Calm, State.drawInt]

@[simp] theorem State.emit_calm (s : State) (o : Out) : (State.emit s o).Calm s := by
  simp [State.Calm, State.emit]

@[simp] theorem State.msix_calm (s : State) (v : Nat) : (State.msix s v).Calm s := by
  simp [State.Calm, State.msix]

@[simp] theorem State.setRing_calm (s : State) (r : Nat) (g : Ring) : (State.setRing s r g).Calm s := by
  simp [State.Calm, State.setRing]

@[simp] theorem State.signalRing_calm (s : State) (r : Nat) : (State.signalRing s r).Calm s := by
  simp [State.Calm, State.signalRing]

@[simp] theorem State.countDone_calm (s : State) (r : Nat) (int : Bool) : (State.countDone s r int).Calm s := by
  simp [State.Calm, State.countDone]

@[simp] theorem State.writeBack_calm (s : State) (r : Nat) (d : Desc) : (State.writeBack s r d).Calm s := by
  simp [State.Calm, State.writeBack]

@[simp] theorem flushList_calm (r : Nat) (l : List Desc) (s : State) : (flushList r l s).Calm s := by
  induction l generalizing s with
  | nil => exact .refl s
  | cons d ds ih => unfold flushList; split <;> simp_all [State.Calm]

@[simp] theorem State.flushRing_calm (s : State) (r : Nat) : (State.flushRing s r).Calm s := by
  simp [State.Calm, State.flushRing]

@[simp] theorem State.complete_calm (s : State) (r : Nat) (id : Nat) (code : Nat) (xfer : Nat) (detail : Nat) (wb : List (Nat × Word)) : (State.complete s r id code xfer detail wb).Calm s := by
  simp [State.Calm, State.complete]

@[simp] theorem State.noteCommit_calm (s : State) (r : Nat) (op : Nat) (code : Nat) : (State.noteCommit s r op code).Calm s := by
  simp [State.Calm, State.noteCommit]

@[simp] theorem State.completeXfer_calm (s : State) (r : Nat) (d : Desc) (xfer : Nat) : (State.completeXfer s r d xfer).Calm s := by
  simp [State.Calm, State.completeXfer]

@[simp] theorem State.deliver_calm (s : State) (r : Nat) (d : Desc) (data : List Byte) (wb : List (Nat × Word)) : (State.deliver s r d data wb).Calm s := by
  simp [State.Calm, State.deliver]

@[simp] theorem State.setDesc_calm (s : State) (r : Nat) (x : Desc) : (State.setDesc s r x).Calm s := by
  simp [State.Calm, State.setDesc]

@[simp] theorem State.stampEvent_calm (s : State) (code : Nat) : (State.stampEvent s code).Calm s := by
  simp [State.Calm, State.stampEvent]

theorem State.eventRecord_calm (s : State) (code : Nat) (t : State) (h : s.eventRecord code = some t) : t.Calm s := by
  unfold State.eventRecord at h; dsimp only at h; split at h
  · cases h
  · cases h; simp [State.Calm]

@[simp] theorem State.eventLost_calm (s : State) : (State.eventLost s).Calm s := by
  simp [State.Calm, State.eventLost]

@[simp] theorem State.setBit_calm (s : State) (off : Nat) (bit : Nat) : (State.setBit s off bit).Calm s := by
  simp [State.Calm, State.setBit]

@[simp] theorem State.raise_calm (s : State) (code : Nat) : (s.raise code).Calm s := by
  unfold State.raise
  split
  · split
    · rename_i h; exact State.eventRecord_calm _ _ _ h
    · dsimp only
      split
      · simp [State.Calm]
      · split
        · split
          · rename_i h; exact (State.eventRecord_calm _ _ _ h).trans (by simp [State.Calm])
          · simp [State.Calm]
        · simp [State.Calm]
  · simp [State.Calm]

@[simp] theorem State.setEvent_calm (s : State) (ev : Fld) (bit : Nat) : (State.setEvent s ev bit).Calm s := by
  unfold State.setEvent
  try dsimp only
  (repeat' split) <;> simp_all [State.Calm]

@[simp] theorem State.setEventIf_calm (s : State) (c : Bool) (ev : Fld) (bit : Nat) : (State.setEventIf s c ev bit).Calm s := by
  simp [State.Calm, State.setEventIf]

@[simp] theorem State.haltRing_calm (s : State) (r : Nat) (reason : Nat) : (State.haltRing s r reason).Calm s := by
  simp [State.Calm, State.haltRing]

@[simp] theorem State.fault_calm (s : State) (cause : Nat) (unit : Nat) (detail : Nat) : (State.fault s cause unit detail).Calm s := by
  simp [State.Calm, State.fault]

/-! ### Objects -/

@[simp] theorem State.setTile_calm (s : State) (t : Nat) (x : Tile) : (State.setTile s t x).Calm s := by
  simp [State.Calm, State.setTile]

@[simp] theorem State.setHeat_calm (s : State) (h : Nat) (x : Heat) : (State.setHeat s h x).Calm s := by
  simp [State.Calm, State.setHeat]

@[simp] theorem State.setTstate_calm (s : State) (t : Nat) (v : Nat) : (State.setTstate s t v).Calm s := by
  simp [State.Calm, State.setTstate]

@[simp] theorem State.atticLow_calm (s : State) : (State.atticLow s).Calm s := by
  simp [State.Calm, State.atticLow]

@[simp] theorem State.countSpares_calm (s : State) : (State.countSpares s).Calm s := by
  simp [State.Calm, State.countSpares]

@[simp] theorem State.countCe_calm (s : State) (domain : Nat) (index : Nat) : (State.countCe s domain index).Calm s := by
  simp [State.Calm, State.countCe]

@[simp] theorem State.countUe_calm (s : State) (domain : Nat) (index : Nat) : (State.countUe s domain index).Calm s := by
  simp [State.Calm, State.countUe]

@[simp] theorem State.startRamp_calm (s : State) (o : Nat) (len : Nat) : (State.startRamp s o len).Calm s := by
  simp [State.Calm, State.startRamp]

@[simp] theorem State.zeroState_calm (s : State) (o : Nat) : (State.zeroState s o).Calm s := by
  simp [State.Calm, State.zeroState]

@[simp] theorem State.zeroOut_calm (s : State) (o : Nat) : (State.zeroOut s o).Calm s := by
  simp [State.Calm, State.zeroOut]

@[simp] theorem State.clearRun_calm (s : State) (first : Nat) (count : Nat) : (State.clearRun s first count).Calm s := by
  simp [State.Calm, State.clearRun]

@[simp] theorem State.clearAlloc_calm (s : State) (kind : Nat) (index : Nat) : (State.clearAlloc s kind index).Calm s := by
  unfold State.clearAlloc
  try dsimp only
  (repeat' split) <;> simp_all [State.Calm]

@[simp] theorem State.clearStorage_calm (s : State) (o : Nat) : (State.clearStorage s o).Calm s := by
  unfold State.clearStorage
  try dsimp only
  (repeat' split) <;> simp_all [State.Calm]

@[simp] theorem State.chill_calm (s : State) (o : Nat) : (State.chill s o).Calm s := by
  simp [State.Calm, State.chill]

@[simp] theorem State.coldObj_calm (s : State) (o : Nat) : (State.coldObj s o).Calm s := by
  simp [State.Calm, State.coldObj]

@[simp] theorem State.storePartials_calm (s : State) (slot : Nat) : (State.storePartials s slot).Calm s := by
  simp [State.Calm, State.storePartials]

@[simp] theorem State.dropSends_calm (s : State) (o : Nat) : (State.dropSends s o).Calm s := by
  unfold State.dropSends
  try dsimp only
  (repeat' split) <;> simp_all [State.Calm]

@[simp] theorem State.restartState_calm (s : State) (o : Nat) : (State.restartState s o).Calm s := by
  simp [State.Calm, State.restartState]

@[simp] theorem State.losePage_calm (s : State) (o : Nat) : (State.losePage s o).Calm s := by
  simp [State.Calm, State.losePage]

/-! ### Layout -/

@[simp] theorem State.putLayout_calm (s : State) (bits : Nat) : (State.putLayout s bits).Calm s := by
  simp [State.Calm, State.putLayout]

/-! ### Ports -/

@[simp] theorem State.setAport_calm (s : State) (p : Nat) (x : Port) : (State.setAport s p x).Calm s := by
  simp [State.Calm, State.setAport]

@[simp] theorem State.setPst_calm (s : State) (p : Nat) (v : Nat) : (State.setPst s p v).Calm s := by
  simp [State.Calm, State.setPst]

@[simp] theorem State.fifoMark_calm (s : State) (out : Bool) (p : Nat) (m : Int) : (State.fifoMark s out p m).Calm s := by
  simp [State.Calm, State.fifoMark]

@[simp] theorem State.fifoPut_calm (s : State) (out : Bool) (p : Nat) (m : Int) (c : Nat) (v : Word) : (State.fifoPut s out p m c v).Calm s := by
  simp [State.Calm, State.fifoPut]

@[simp] theorem State.assign_calm (s : State) (p : Nat) (out : Bool) (time : Int) : (State.assign s p out time).1.Calm s := by
  simp [State.Calm, State.assign]

@[simp] theorem State.frameStart_calm (s : State) (p : Nat) (out : Bool) (time : Int) : (State.frameStart s p out time).1.Calm s := by
  unfold State.frameStart
  try dsimp only
  (repeat' split) <;> simp_all [State.Calm]

@[simp] theorem State.fifoFrame_calm (s : State) (p : Nat) (m : Int) (ws : List Word) (c n : Nat) :
    (s.fifoFrame p m ws c n).Calm s := by
  induction n generalizing s ws c with
  | zero => unfold State.fifoFrame; simp [State.Calm]
  | succ n ih => unfold State.fifoFrame; simp_all [State.Calm]

@[simp] theorem tdmFrameIn_calm (p : Nat) (time : Int) (edge : FsEdge) (bits : List Bool) (s : State) : (tdmFrameIn p time edge bits s).Calm s := by
  unfold tdmFrameIn
  try dsimp only
  (repeat' split) <;> simp_all [State.Calm]

@[simp] theorem State.outStart_calm (s : State) (p : Nat) (time : Int) : (State.outStart s p time).1.Calm s := by
  unfold State.outStart
  try dsimp only
  (repeat' split) <;> simp_all [State.Calm]

@[simp] theorem tdmFrameOut_calm (p : Nat) (time : Int) (s : State) : (tdmFrameOut p time s).Calm s := by
  unfold tdmFrameOut
  try dsimp only
  (repeat' split) <;> simp_all [State.Calm]

@[simp] theorem State.acquire_calm (s : State) (p : Nat) : (State.acquire s p).Calm s := by
  simp [State.Calm, State.acquire]

@[simp] theorem State.portRefuse_calm (s : State) (p : Nat) (reason : Nat) : (State.portRefuse s p reason).Calm s := by
  simp [State.Calm, State.portRefuse]

@[simp] theorem portStart_calm (p : Nat) (s : State) : (portStart p s).Calm s := by
  simp [State.Calm, portStart]

@[simp] theorem State.stopPort_calm (s : State) (p : Nat) (clocks : Bool) (resume : Bool) : (State.stopPort s p clocks resume).Calm s := by
  simp [State.Calm, State.stopPort]

@[simp] theorem portStopClocks_calm (p : Nat) (s : State) : (portStopClocks p s).Calm s := by
  simp [State.Calm, portStopClocks]

@[simp] theorem stopFadeEnd_calm (p : Nat) (s : State) : (stopFadeEnd p s).Calm s := by
  simp [State.Calm, stopFadeEnd]

@[simp] theorem portAcquire_calm (p : Nat) (s : State) : (portAcquire p s).Calm s := by
  simp [State.Calm, portAcquire]

@[simp] theorem State.losePort_calm (s : State) (st : Nat) (p : Nat) : (State.losePort s st p).Calm s := by
  simp [State.Calm, State.losePort]

@[simp] theorem State.clockLost_calm (s : State) (p : Nat) : (State.clockLost s p).Calm s := by
  simp [State.Calm, State.clockLost]

@[simp] theorem portClockStop_calm (p : Nat) (s : State) : (portClockStop p s).Calm s := by
  simp [State.Calm, portClockStop]

@[simp] theorem portClockReturn_calm (p : Nat) (s : State) : (portClockReturn p s).Calm s := by
  simp [State.Calm, portClockReturn]

@[simp] theorem portDataEnable_calm (p : Nat) (s : State) : (portDataEnable p s).Calm s := by
  simp [State.Calm, portDataEnable]

@[simp] theorem unmuteTimeout_calm (p : Nat) (ch : Nat) (sample : A48) (s : State) : (unmuteTimeout p ch sample s).Calm s := by
  unfold unmuteTimeout
  try dsimp only
  (repeat' split) <;> simp_all [State.Calm]

@[simp] theorem State.clockOff_calm (s : State) (p : Nat) : (State.clockOff s p).Calm s := by
  simp [State.Calm, State.clockOff]

@[simp] theorem State.portLap_calm (s : State) (p : Nat) : (State.portLap s p).Calm s := by
  simp [State.Calm, State.portLap]

@[simp] theorem State.stopHeldClocks_calm (s : State) : (State.stopHeldClocks s).Calm s := by
  simp [State.Calm, State.stopHeldClocks]

@[simp] theorem State.stopPorts_calm (s : State) : (State.stopPorts s).Calm s := by
  simp [State.Calm, State.stopPorts]

@[simp] theorem State.resumePorts_calm (s : State) : (State.resumePorts s).Calm s := by
  simp [State.Calm, State.resumePorts]

@[simp] theorem State.reacquirePorts_calm (s : State) : (State.reacquirePorts s).Calm s := by
  simp [State.Calm, State.reacquirePorts]

@[simp] theorem State.portGain_calm (s : State) (idx : Nat) : (State.portGain s idx).2.Calm s := by
  simp [State.Calm, State.portGain]

@[simp] theorem State.captureOne_calm (s : State) (p : Nat) (c : Nat) (lap : Nat) (gs : List A48) : (State.captureOne s p c lap gs).2.Calm s := by
  simp [State.Calm, State.captureOne]

@[simp] theorem State.settlePort_calm (s : State) (p : Nat) : (State.settlePort s p).Calm s := by
  simp [State.Calm, State.settlePort]

@[simp] theorem State.capturePorts_calm (s : State) (lap : Nat) : (s.capturePorts lap).2.Calm s := by
  unfold State.capturePorts
  refine foldl_snd_calm _ (fun a p => ?_) _ _
  dsimp only
  split
  · refine (State.settlePort_calm _ _).trans ((foldl_snd_calm _ (fun b c => ?_) _ _).trans (State.portGain_calm _ _))
    simp [State.Calm]
  · exact .refl _

@[simp] theorem State.deliverChan_calm (s : State) (p c : Nat) (ms : List Int) (vs : List A48) :
    (s.deliverChan p c ms vs).Calm s := by
  induction ms generalizing s vs with
  | nil => unfold State.deliverChan; exact .refl s
  | cons m ms ih => cases vs <;> unfold State.deliverChan <;> simp_all [State.Calm]

@[simp] theorem State.deliverOne_calm (s : State) (p : Nat) (c : Nat) (gs : List A48) (vs : List A48) : (State.deliverOne s p c gs vs).Calm s := by
  simp [State.Calm, State.deliverOne]

@[simp] theorem State.gateOut_calm (s : State) (p : Nat) (c : Nat) (xs : List A48) : (State.gateOut s p c xs).Calm s := by
  simp [State.Calm, State.gateOut]

@[simp] theorem State.deliverPorts_calm (s : State) (val : Nat → List A48) : (State.deliverPorts s val).Calm s := by
  simp [State.Calm, State.deliverPorts]

@[simp] theorem State.gateOuts_calm (s : State) : (State.gateOuts s).Calm s := by
  simp [State.Calm, State.gateOuts]

@[simp] theorem State.setCs_calm (s : State) (r : Nat) (ch : Nat) (b : CsBlock) : (State.setCs s r ch b).Calm s := by
  simp [State.Calm, State.setCs]

@[simp] theorem State.zPreamble_calm (s : State) (r : Nat) : (State.zPreamble s r).Calm s := by
  simp [State.Calm, State.zPreamble]

@[simp] theorem State.csComplete_calm (s : State) (r : Nat) (ch : Nat) (b : CsBlock) : (State.csComplete s r ch b).Calm s := by
  simp [State.Calm, State.csComplete]

@[simp] theorem State.csBit_calm (s : State) (r : Nat) (ch : Nat) (c : Bool) (u : Bool) : (State.csBit s r ch c u).Calm s := by
  unfold State.csBit
  try dsimp only
  (repeat' split) <;> simp_all [State.Calm]

@[simp] theorem aes3FrameOut_calm (r : Nat) (time : Int) (s : State) : (aes3FrameOut r time s).Calm s := by
  unfold aes3FrameOut
  try dsimp only
  (repeat' split) <;> simp_all [State.Calm]

@[simp] theorem csLoad_calm (p : Nat) (s : State) : (csLoad p s).Calm s := by
  simp [State.Calm, csLoad]

@[simp] theorem aptCsData_calm (write : Bool) (val : Byte) (s : State) : (aptCsData write val s).Calm s := by
  simp [State.Calm, aptCsData]

/-! ### Cellar -/

@[simp] theorem State.cellarStatus_calm (s : State) : (State.cellarStatus s).Calm s := by
  simp [State.Calm, State.cellarStatus]

@[simp] theorem State.addAlloc_calm (s : State) (a : Alloc) : (State.addAlloc s a).Calm s := by
  unfold State.addAlloc
  try dsimp only
  (repeat' split) <;> simp_all [State.Calm]

@[simp] theorem State.freeAlloc_calm (s : State) (kind : Nat) (index : Nat) : (State.freeAlloc s kind index).Calm s := by
  simp [State.Calm, State.freeAlloc]

theorem State.engineAlloc_calm (s : State) (kind : Nat) (index : Nat) (count : Nat) (mirror : Bool) (u : State) (h : State.engineAlloc s kind index count mirror = some u) : u.Calm s := by
  unfold State.engineAlloc at h
  (try dsimp only at h)
  (repeat' split at h) <;> first
    | (cases h; done)
    | (cases h; simp [State.Calm]; done)
    | (simp_all [State.Calm]; done)

@[simp] theorem State.cellarPut_calm (s : State) (addr : Nat) (bs : List Byte) : (State.cellarPut s addr bs).Calm s := by
  simp [State.Calm, State.cellarPut]

@[simp] theorem State.afterSeen_calm (s : State) (a n : Nat) : (State.afterSeen s a n).Calm s := by
  unfold State.afterSeen
  split <;> exact ⟨rfl, rfl, rfl, rfl⟩

@[simp] theorem State.linePut_calm (s : State) (first : Nat) (count : Nat) (m : Int) (v : A48) : (State.linePut s first count m v).Calm s := by
  simp [State.Calm, State.linePut]

@[simp] theorem State.allocRefuse_calm (s : State) (reason : Nat) : (State.allocRefuse s reason).Calm s := by
  simp [State.Calm, State.allocRefuse]

@[simp] theorem State.allocInfo_calm (s : State) (a : Alloc) : (State.allocInfo s a).Calm s := by
  simp [State.Calm, State.allocInfo]

@[simp] theorem State.allocDone_calm (s : State) : (State.allocDone s).Calm s := by
  simp [State.Calm, State.allocDone]

@[simp] theorem State.allocBusy_calm (s : State) (cmd : Nat) (kind : Nat) (index : Nat) (from_ : Nat) : (State.allocBusy s cmd kind index from_).Calm s := by
  simp [State.Calm, State.allocBusy]

@[simp] theorem allocate_calm (who : Agent) (mirror : Bool) (hostWr : Bool) (ff : Bool) (s : State) : (allocate who mirror hostWr ff s).Calm s := by
  unfold allocate
  try dsimp only
  (repeat' split) <;> simp_all [State.Calm]

@[simp] theorem freeCmd_calm (who : Agent) (s : State) : (freeCmd who s).Calm s := by
  simp [State.Calm, freeCmd]

@[simp] theorem State.setAlloc_calm (s : State) (a : Alloc) : (State.setAlloc s a).Calm s := by
  simp [State.Calm, State.setAlloc]

@[simp] theorem resizeInPlace_calm (a : Alloc) (count : Nat) (s : State) : (resizeInPlace a count s).Calm s := by
  unfold resizeInPlace
  try dsimp only
  (repeat' split) <;> simp_all [State.Calm]

@[simp] theorem relocate_calm (ff : Bool) (a : Alloc) (count : Nat) (s : State) : (relocate ff a count s).Calm s := by
  unfold relocate
  try dsimp only
  (repeat' split) <;> simp_all [State.Calm]

@[simp] theorem resizeCmd_calm (who : Agent) (ff : Bool) (s : State) : (resizeCmd who ff s).Calm s := by
  unfold resizeCmd
  try dsimp only
  (repeat' split) <;> simp_all [State.Calm]

@[simp] theorem queryCmd_calm (s : State) : (queryCmd s).Calm s := by
  unfold queryCmd
  try dsimp only
  (repeat' split) <;> simp_all [State.Calm]

@[simp] theorem State.switchLine_calm (s : State) (r : Reloc) : (State.switchLine s r).Calm s := by
  unfold State.switchLine
  try dsimp only
  (repeat' split) <;> simp_all [State.Calm]

@[simp] theorem allocComplete_calm (s : State) : (allocComplete s).Calm s := by
  unfold allocComplete
  try dsimp only
  (repeat' split) <;> simp_all [State.Calm]

@[simp] theorem copyLine_calm (a : Alloc) (r : Reloc) (m0 n : Nat) (s : State) : (copyLine a r m0 n s).Calm s := by
  induction n generalizing s with
  | zero => exact .refl s
  | succ n ih => unfold copyLine; dsimp only; split <;> simp_all [State.Calm]

@[simp] theorem State.startBoth_calm (s : State) : s.startBoth.Calm s := by
  unfold State.startBoth
  refine foldl_calm _ (fun s r => ?_) _ _
  dsimp only
  split
  · exact .refl s
  · simp [State.Calm]

@[simp] theorem relocationSwitch_calm (kind : Nat) (index : Nat) (s : State) : (relocationSwitch kind index s).Calm s := by
  unfold relocationSwitch
  try dsimp only
  (repeat' split) <;> simp_all [State.Calm]

@[simp] theorem bankOwnerWrite_calm (n : Nat) (val : Word) (s : State) : (bankOwnerWrite n val s).Calm s := by
  simp [State.Calm, bankOwnerWrite]

@[simp] theorem State.bankClass_calm (s : State) (n : Nat) (c : Nat) : (State.bankClass s n c).Calm s := by
  simp [State.Calm, State.bankClass]

@[simp] theorem bankHandover_calm (n : Nat) (s : State) : (bankHandover n s).Calm s := by
  unfold bankHandover
  try dsimp only
  (repeat' split) <;> simp_all [State.Calm]

@[simp] theorem State.bankFailed_calm (s : State) (n : Nat) : (State.bankFailed s n).Calm s := by
  simp [State.Calm, State.bankFailed]

@[simp] theorem State.bankUe_calm (s : State) (n : Nat) (addr : Nat) : (State.bankUe s n addr).Calm s := by
  simp [State.Calm, State.bankUe]

@[simp] theorem State.bankCe_calm (s : State) (n : Nat) : (State.bankCe s n).Calm s := by
  simp [State.Calm, State.bankCe]

@[simp] theorem State.cellarEcc_calm (s : State) (master : Nat) (addr : Nat) (e : CellEcc) : (State.cellarEcc s master addr e).1.Calm s := by
  unfold State.cellarEcc
  try dsimp only
  (repeat' split) <;> simp_all [State.Calm]

@[simp] theorem State.windowEcc_calm (s : State) (l : List (Nat × Nat × CellEcc)) : (State.windowEcc s l).Calm s := by
  simp [State.Calm, State.windowEcc]

@[simp] theorem State.readEcc_calm (s : State) (master addr : Nat) (l : List (Nat × CellEcc)) (data : List Byte) :
    (State.readEcc s master addr l data).1.Calm s := by
  unfold State.readEcc
  refine foldl_fst_calm _ (fun a e => ?_) l (s, data, false)
  dsimp only
  (repeat' split) <;> simp [State.Calm]

/-! ### Sched -/

@[simp] theorem State.setRunner_calm (s : State) (k : Nat) (r : Runner) : (State.setRunner s k r).Calm s := by
  simp [State.Calm, State.setRunner]

@[simp] theorem State.setRunnerState_calm (s : State) (k : Nat) (v : Nat) : (State.setRunnerState s k v).Calm s := by
  simp [State.Calm, State.setRunnerState]

@[simp] theorem State.setTask_calm (s : State) (t : Nat) (x : Task) : (State.setTask s t x).Calm s := by
  simp [State.Calm, State.setTask]

@[simp] theorem State.setQueue_calm (s : State) (p : Nat) (q : List Nat) : (State.setQueue s p q).Calm s := by
  simp [State.Calm, State.setQueue]

@[simp] theorem State.schedAt_calm (s : State) (cyc : Nat) : (State.schedAt s cyc).Calm s := by
  simp [State.Calm, State.schedAt]

@[simp] theorem State.sawRefusal_calm (s : State) (k : Nat) (b : Bool) : (State.sawRefusal s k b).Calm s := by
  simp [State.Calm, State.sawRefusal]

theorem schedOp_calm (cyc k : Nat) (f : State → Option State) (h : ∀ s t, f s = some t → t.Calm s) (s : State) :
    (schedOp cyc k f s).Calm s := by
  unfold schedOp
  split
  · dsimp only
    split
    · rename_i g; have := h _ _ g; simp_all [State.Calm]
    · simp [State.Calm]
  · exact .refl s

@[simp] theorem State.noteDepth_calm (s : State) (p : Nat) (n : Nat) : (State.noteDepth s p n).Calm s := by
  simp [State.Calm, State.noteDepth]

@[simp] theorem State.noteWait_calm (s : State) (p : Nat) (w : Nat) : (State.noteWait s p w).Calm s := by
  simp [State.Calm, State.noteWait]

@[simp] theorem State.showBlocked_calm (s : State) : (State.showBlocked s).Calm s := by
  simp [State.Calm, State.showBlocked]

@[simp] theorem State.give_calm (s : State) (k : Nat) (t : Nat) : (State.give s k t).Calm s := by
  simp [State.Calm, State.give]

@[simp] theorem State.enqueue_calm (s : State) (t : Nat) : (State.enqueue s t).Calm s := by
  unfold State.enqueue
  try dsimp only
  (repeat' split) <;> simp_all [State.Calm]

@[simp] theorem State.dispatch_calm (s : State) : (State.dispatch s).Calm s := by
  have h (u : State) (n : Nat) : (match u.longestBlocked n with
      | some k => u.give k n
      | none => u).Calm u := by
    split <;> simp [State.Calm]
  unfold State.dispatch
  generalize List.range 64 = l
  exact ⟨foldl_pending _ (fun t p => foldl_pending _ (fun u n => (h u n).1) _ t) _ s,
    foldl_lap _ (fun t p => foldl_lap _ (fun u n => (h u n).2.1) _ t) _ s,
    foldl_coreFuses _ (fun t p => foldl_coreFuses _ (fun u n => (h u n).2.2.1) _ t) _ s,
    foldl_meter _ (fun t p => foldl_meter _ (fun u n => (h u n).2.2.2) _ t) _ s⟩

@[simp] theorem State.dequeue_calm (s : State) (t : Nat) : (State.dequeue s t).Calm s := by
  simp [State.Calm, State.dequeue]

@[simp] theorem State.cancelArrived_calm (s : State) : (State.cancelArrived s).Calm s := by
  simp [State.Calm, State.cancelArrived]

theorem setupTask_calm (t : Nat) (cls : Nat) (s : State) (u : State) (h : setupTask t cls s = some u) : u.Calm s := by
  unfold setupTask at h
  (try dsimp only at h)
  (repeat' split at h) <;> first
    | (cases h; done)
    | (cases h; simp [State.Calm]; done)
    | (simp_all [State.Calm]; done)

theorem releaseTask_calm (t : Nat) (s : State) (u : State) (h : releaseTask t s = some u) : u.Calm s := by
  unfold releaseTask at h
  (try dsimp only at h)
  (repeat' split at h) <;> first
    | (cases h; done)
    | (cases h; simp [State.Calm]; done)
    | (simp_all [State.Calm]; done)

theorem readyTask_calm (t : Nat) (s : State) (u : State) (h : readyTask t s = some u) : u.Calm s := by
  unfold readyTask at h
  (try dsimp only at h)
  (repeat' split at h) <;> first
    | (cases h; done)
    | (cases h; simp [State.Calm]; done)
    | (simp_all [State.Calm]; done)

theorem delayTask_calm (t : Nat) (d : Nat) (s : State) (u : State) (h : delayTask t d s = some u) : u.Calm s := by
  unfold delayTask at h
  (try dsimp only at h)
  (repeat' split at h) <;> first
    | (cases h; done)
    | (cases h; simp [State.Calm]; done)
    | (simp_all [State.Calm]; done)

theorem cancelTask_calm (t : Nat) (s : State) (u : State) (h : cancelTask t s = some u) : u.Calm s := by
  unfold cancelTask at h
  (try dsimp only at h)
  (repeat' split at h) <;> first
    | (cases h; done)
    | (cases h; simp [State.Calm]; done)
    | (simp_all [State.Calm]; done)

theorem takeTask_calm (k : Nat) (s : State) (u : State) (h : takeTask k s = some u) : u.Calm s := by
  unfold takeTask at h
  (try dsimp only at h)
  (repeat' split at h) <;> first
    | (cases h; done)
    | (cases h; simp [State.Calm]; done)
    | (simp_all [State.Calm]; done)

theorem doneTask_calm (t : Nat) (s : State) (u : State) (h : doneTask t s = some u) : u.Calm s := by
  unfold doneTask at h
  (try dsimp only at h)
  (repeat' split at h) <;> first
    | (cases h; done)
    | (cases h; simp [State.Calm]; done)
    | (simp_all [State.Calm]; done)

@[simp] theorem State.setLock_calm (s : State) (l : Nat) (x : Lock) : (State.setLock s l x).Calm s := by
  simp [State.Calm, State.setLock]

theorem grabLock_calm (k : Nat) (l : Nat) (s : State) (u : State) (h : grabLock k l s = some u) : u.Calm s := by
  unfold grabLock at h
  (try dsimp only at h)
  (repeat' split at h) <;> first
    | (cases h; done)
    | (cases h; simp [State.Calm]; done)
    | (simp_all [State.Calm]; done)

@[simp] theorem State.passLock_calm (s : State) (l : Nat) (broken : Bool) : (State.passLock s l broken).Calm s := by
  unfold State.passLock
  try dsimp only
  (repeat' split) <;> simp_all [State.Calm]

theorem dropLock_calm (k : Nat) (l : Nat) (s : State) (u : State) (h : dropLock k l s = some u) : u.Calm s := by
  unfold dropLock at h
  (try dsimp only at h)
  (repeat' split at h) <;> first
    | (cases h; done)
    | (cases h; simp [State.Calm]; done)
    | (simp_all [State.Calm]; done)

@[simp] theorem dueLoop_calm (l : List Nat) (s : State) : (dueLoop l s).Calm s := by
  induction l generalizing s with
  | nil => exact .refl s
  | cons t r ih => unfold dueLoop; split <;> simp_all [State.Calm]

@[simp] theorem delayDue_calm (cyc : Nat) (s : State) : (delayDue cyc s).Calm s := by
  simp [State.Calm, delayDue]

@[simp] theorem State.latchBusy_calm (s : State) (cyc : Nat) (n : Nat) (k : Nat) : (State.latchBusy s cyc n k).Calm s := by
  simp [State.Calm, State.latchBusy]

@[simp] theorem statsWindowEnd_calm (cyc : Nat) (s : State) : (statsWindowEnd cyc s).Calm s := by
  simp [State.Calm, statsWindowEnd]

/-! ### Frames -/

@[simp] theorem State.setNport_calm (s : State) (p : Nat) (x : NetPort) : (State.setNport s p x).Calm s := by
  simp [State.Calm, State.setNport]

@[simp] theorem State.joinQueue_calm (s : State) (p : Nat) (q : Nat) (f : EgFrame) : (State.joinQueue s p q f).Calm s := by
  simp [State.Calm, State.joinQueue]

@[simp] theorem State.sendReport_calm (s : State) (port : Nat) (news : GroupNews) (group : Nat) (src : Nat) : (State.sendReport s port news group src).Calm s := by
  simp [State.Calm, State.sendReport]

/-! ### Streams -/

@[simp] theorem State.cw_calm (s : State) (c : Nat) (f : Fld) (v : Nat) : (State.cw s c f v).Calm s := by
  simp [State.Calm, State.cw]

@[simp] theorem State.cbump_calm (s : State) (c : Nat) (f : Fld) (n : Nat) : (State.cbump s c f n).Calm s := by
  simp [State.Calm, State.cbump]

@[simp] theorem State.setCtx_calm (s : State) (c : Nat) (x : Ctx) : (State.setCtx s c x).Calm s := by
  simp [State.Calm, State.setCtx]

@[simp] theorem State.setCst_calm (s : State) (c : Nat) (v : Nat) : (State.setCst s c v).Calm s := by
  simp [State.Calm, State.setCst]

@[simp] theorem State.stmEvent_calm (s : State) (c : Nat) (bit : Nat) : (State.stmEvent s c bit).Calm s := by
  simp [State.Calm, State.stmEvent]

@[simp] theorem State.openCtx_calm (s : State) (c : Nat) : (State.openCtx s c).Calm s := by
  simp [State.Calm, State.openCtx]

@[simp] theorem State.openStreams_calm (s : State) : (State.openStreams s).Calm s := by
  simp [State.Calm, State.openStreams]

@[simp] theorem streamEnable_calm (s : State) : (streamEnable s).Calm s := by
  have g (t : State) (k i n : Nat) (m : Bool) : ((t.engineAlloc k i n m).getD t).Calm t := by
    cases h : t.engineAlloc k i n m with
    | none => exact .refl t
    | some u => exact State.engineAlloc_calm _ _ _ _ _ _ h
  unfold streamEnable
  dsimp only
  (repeat' split) <;> simp [State.Calm, g]

@[simp] theorem State.dropCtx_calm (s : State) (c : Nat) : (State.dropCtx s c).Calm s := by
  simp [State.Calm, State.dropCtx]

@[simp] theorem State.leaveGroups_calm (s : State) (port : Nat) : (State.leaveGroups s port).Calm s := by
  simp [State.Calm, State.leaveGroups]

@[simp] theorem streamDisable_calm (s : State) : (streamDisable s).Calm s := by
  simp [State.Calm, streamDisable]

@[simp] theorem streamApplyDrxLen_calm (s : State) : (streamApplyDrxLen s).Calm s := by
  have g (c : Prop) [Decidable c] (k i n : Nat) (m : Bool) (u : State)
      (h : (if c then some s else (s.freeAlloc k i).engineAlloc k i n m) = some u) : u.Calm s := by
    split at h
    · cases h; exact .refl s
    · exact (State.engineAlloc_calm _ _ _ _ _ _ h).trans (State.freeAlloc_calm _ _ _)
  unfold streamApplyDrxLen
  dsimp only
  split
  · exact .refl s
  · split
    · simp [State.Calm]
    · split
      · simp [State.Calm]
      · rename_i h; exact State.Calm.trans (by simp [State.Calm]) (g _ _ _ _ _ _ h)

@[simp] theorem drxTakeEffect_calm (c : Nat) (s : State) : (drxTakeEffect c s).Calm s := by
  unfold drxTakeEffect
  try dsimp only
  (repeat' split) <;> simp_all [State.Calm]

@[simp] theorem lenTakeEffect_calm (c : Nat) (s : State) : (lenTakeEffect c s).Calm s := by
  unfold lenTakeEffect
  try dsimp only
  (repeat' split) <;> simp_all [State.Calm]

@[simp] theorem streamCsLoad_calm (s : State) : (streamCsLoad s).Calm s := by
  simp [State.Calm, streamCsLoad]

@[simp] theorem streamLost_calm (c : Nat) (s : State) : (streamLost c s).Calm s := by
  simp [State.Calm, streamLost]

@[simp] theorem pathDown_calm (c : Nat) (port : Nat) (s : State) : (pathDown c port s).Calm s := by
  simp [State.Calm, pathDown]

@[simp] theorem State.noteSkew_calm (s : State) (c : Nat) (port : Nat) (counts : List Int) (arr : Int) : (State.noteSkew s c port counts arr).Calm s := by
  simp [State.Calm, State.noteSkew]

@[simp] theorem State.pathOffered_calm (s : State) (c : Nat) (port : Nat) : (State.pathOffered s c port).Calm s := by
  simp [State.Calm, State.pathOffered]

@[simp] theorem State.offerPacket_calm (s : State) (c : Nat) (port : Nat) (rtp : Nat) (frames : List (List (A48 × Nat))) (arr : Int) : (State.offerPacket s c port rtp frames arr).Calm s := by
  simp [State.Calm, State.offerPacket]

@[simp] theorem State.gatherCount_calm (s : State) (c : Nat) (present : Bool) : (State.gatherCount s c present).Calm s := by
  simp [State.Calm, State.gatherCount]

@[simp] theorem State.streamRead_calm (s : State) (c : Nat) : (State.streamRead s c).2.Calm s := by
  simp [State.Calm, State.streamRead]

@[simp] theorem State.streamLap_calm (s : State) (c n : Nat) (acc : List (List A48)) : (s.streamLap c n acc).2.Calm s := by
  induction n generalizing s acc with
  | zero => exact .refl s
  | succ n ih => unfold State.streamLap; simp_all [State.Calm]

@[simp] theorem State.captureStreams_calm (s : State) : (State.captureStreams s).2.Calm s := by
  simp [State.Calm, State.captureStreams]

@[simp] theorem State.txChan_calm (s : State) (c : Nat) (ch : Nat) (gs : List A48) (vs : List A48) (bits : List Nat) : (State.txChan s c ch gs vs bits).Calm s := by
  simp [State.Calm, State.txChan]

@[simp] theorem State.txGateRun_calm (s : State) (c : Nat) (ch : Nat) (xs : List A48) : (State.txGateRun s c ch xs).Calm s := by
  simp [State.Calm, State.txGateRun]

@[simp] theorem State.gateTx_calm (s : State) (c : Nat) : (State.gateTx s c).Calm s := by
  simp [State.Calm, State.gateTx]

@[simp] theorem State.deliverStreams_calm (s : State) (val : Nat → List A48) (bits : Nat → List Nat) : (State.deliverStreams s val bits).Calm s := by
  simp [State.Calm, State.deliverStreams]

@[simp] theorem State.streamsBoundary_calm (s : State) : (State.streamsBoundary s).Calm s := by
  simp [State.Calm, State.streamsBoundary]

@[simp] theorem State.holdStreams_calm (s : State) : (State.holdStreams s).Calm s := by
  simp [State.Calm, State.holdStreams]

/-! ### Graph -/

@[simp] theorem State.deferred_calm (s : State) (held : Bool) : (State.deferred s held).Calm s := by
  simp [State.Calm, State.deferred]

@[simp] theorem State.noteInvalid_calm (s : State) (p : RoutePt) : (State.noteInvalid s p).2.Calm s := by
  simp [State.Calm, State.noteInvalid]

@[simp] theorem State.setInPt_calm (s : State) (i : Nat) (p : RoutePt) : (State.setInPt s i p).Calm s := by
  simp [State.Calm, State.setInPt]

@[simp] theorem State.setOutPt_calm (s : State) (k : Nat) (p : RoutePt) : (State.setOutPt s k p).Calm s := by
  simp [State.Calm, State.setOutPt]

@[simp] theorem State.setInsPt_calm (s : State) (k : Nat) (p : RoutePt) : (State.setInsPt s k p).Calm s := by
  simp [State.Calm, State.setInsPt]

@[simp] theorem State.setDirPt_calm (s : State) (i : Nat) (p : RoutePt) : (State.setDirPt s i p).Calm s := by
  simp [State.Calm, State.setDirPt]

@[simp] theorem State.changeIn_calm (s : State) (i : Nat) (v : RVal) (len : Nat) (power : Bool) : (State.changeIn s i v len power).Calm s := by
  simp [State.Calm, State.changeIn]

@[simp] theorem State.changeOut_calm (s : State) (k : Nat) (v : RVal) (len : Nat) (power : Bool) : (State.changeOut s k v len power).Calm s := by
  simp [State.Calm, State.changeOut]

@[simp] theorem State.changeIns_calm (s : State) (k : Nat) (v : RVal) (len : Nat) (power : Bool) : (State.changeIns s k v len power).Calm s := by
  simp [State.Calm, State.changeIns]

@[simp] theorem State.changeDir_calm (s : State) (i : Nat) (v : RVal) (len : Nat) (power : Bool) : (State.changeDir s i v len power).Calm s := by
  simp [State.Calm, State.changeDir]

@[simp] theorem State.checkInvalid_calm (s : State) : (State.checkInvalid s).Calm s := by
  simp [State.Calm, State.checkInvalid]

@[simp] theorem State.setAb_calm (s : State) (i : Nat) (a : Ab) : (State.setAb s i a).Calm s := by
  simp [State.Calm, State.setAb]

@[simp] theorem State.notePad_calm (s : State) (i : Nat) : (State.notePad s i).Calm s := by
  simp [State.Calm, State.notePad]

@[simp] theorem State.abEvaluate_calm (s : State) (lap : Nat) (i : Nat) : (State.abEvaluate s lap i).Calm s := by
  simp [State.Calm, State.abEvaluate]

@[simp] theorem State.abReevaluate_calm (s : State) (lap : Nat) (i : Nat) (prof : Prof) : (State.abReevaluate s lap i prof).Calm s := by
  simp [State.Calm, State.abReevaluate]

@[simp] theorem State.markHealth_calm (s : State) (lap : Nat) : (State.markHealth s lap).Calm s := by
  simp [State.Calm, State.markHealth]

@[simp] theorem State.markNew_calm (s : State) (lap : Nat) (i : Nat) : (State.markNew s lap i).Calm s := by
  simp [State.Calm, State.markNew]

@[simp] theorem State.setDelay_calm (s : State) (key : Nat) (u : DelayU) : (State.setDelay s key u).Calm s := by
  simp [State.Calm, State.setDelay]

@[simp] theorem State.delayCompare_calm (s : State) (key : Nat) : (State.delayCompare s key).Calm s := by
  simp [State.Calm, State.delayCompare]

@[simp] theorem delayFadeEnd_calm (key : Nat) (s : State) : (delayFadeEnd key s).Calm s := by
  unfold delayFadeEnd
  try dsimp only
  (repeat' split) <;> simp_all [State.Calm]

@[simp] theorem State.lineLap_calm (s : State) (kind index m : Nat) (vs : List A48) : (s.lineLap kind index m vs).Calm s := by
  induction vs generalizing s m with
  | nil => exact .refl s
  | cons v vs ih =>
    unfold State.lineLap
    refine (ih _ _).trans ?_
    dsimp only
    (repeat' split) <;> simp [State.Calm]

@[simp] theorem State.delayLap_calm (s : State) (o : Nat) (vs : List A48) : (State.delayLap s o vs).2.Calm s := by
  unfold State.delayLap
  try dsimp only
  (repeat' split) <;> simp_all [State.Calm]

@[simp] theorem State.insertLap_calm (s : State) : (State.insertLap s).Calm s := by
  simp [State.Calm, State.insertLap]

@[simp] theorem State.muteStep_calm (s : State) : (State.muteStep s).Calm s := by
  unfold State.muteStep
  try dsimp only
  (repeat' split) <;> simp_all [State.Calm]

@[simp] theorem State.muteOut_calm (s : State) : (State.muteOut s).Calm s := by
  unfold State.muteOut
  try dsimp only
  (repeat' split) <;> simp_all [State.Calm]

@[simp] theorem State.muteIn_calm (s : State) : (State.muteIn s).Calm s := by
  simp [State.Calm, State.muteIn]

@[simp] theorem State.layoutDiffers_calm (s : State) (bad : Bool) : (State.layoutDiffers s bad).Calm s := by
  simp [State.Calm, State.layoutDiffers]

@[simp] theorem State.muteBoundary_calm (s : State) : (State.muteBoundary s).Calm s := by
  simp [State.Calm, State.muteBoundary]

@[simp] theorem State.insTake_calm (s : State) (before : Layout) : (State.insTake s before).Calm s := by
  simp [State.Calm, State.insTake]

@[simp] theorem State.layoutRefuse_calm (s : State) (reason : Nat) : (State.layoutRefuse s reason).Calm s := by
  simp [State.Calm, State.layoutRefuse]

@[simp] theorem layoutApply_calm (target : Option Nat) (s : State) : (layoutApply target s).Calm s := by
  simp [State.Calm, layoutApply]

@[simp] theorem layoutAbandon_calm (s : State) : (layoutAbandon s).Calm s := by
  simp [State.Calm, layoutAbandon]

@[simp] theorem layoutFadeOut_calm (s : State) : (layoutFadeOut s).Calm s := by
  unfold layoutFadeOut
  try dsimp only
  (repeat' split) <;> simp_all [State.Calm]

@[simp] theorem layoutTake_calm (s : State) : (layoutTake s).Calm s := by
  unfold layoutTake
  try dsimp only
  (repeat' split) <;> simp_all [State.Calm]

@[simp] theorem layoutFadeIn_calm (s : State) : (layoutFadeIn s).Calm s := by
  unfold layoutFadeIn
  try dsimp only
  (repeat' split) <;> simp_all [State.Calm]

@[simp] theorem layoutDone_calm (s : State) : (layoutDone s).Calm s := by
  unfold layoutDone
  try dsimp only
  (repeat' split) <;> simp_all [State.Calm]

@[simp] theorem State.layoutAtStart_calm (s : State) : (State.layoutAtStart s).Calm s := by
  unfold State.layoutAtStart
  try dsimp only
  (repeat' split) <;> simp_all [State.Calm]

@[simp] theorem State.setGen_calm (s : State) (g : Nat) (x : Gen) : (State.setGen s g x).Calm s := by
  simp [State.Calm, State.setGen]

@[simp] theorem State.captureGens_calm (s : State) (lap : Nat) : (State.captureGens s lap).2.Calm s := by
  simp [State.Calm, State.captureGens]

@[simp] theorem routeFadeEnd_calm (pt : Point) (s : State) : (routeFadeEnd pt s).Calm s := by
  unfold routeFadeEnd
  try dsimp only
  (repeat' split) <;> simp_all [State.Calm]

/-! ### Placement -/

@[simp] theorem placeApply_calm (target : Option Nat) (s : State) : (placeApply target s).Calm s := by
  simp [State.Calm, placeApply]

@[simp] theorem State.stopObj_calm (s : State) (o : Nat) : (State.stopObj s o).Calm s := by
  simp [State.Calm, State.stopObj]

@[simp] theorem takePlacement_calm (table : Tbl Nat) (s : State) : (takePlacement table s).Calm s := by
  simp [State.Calm, takePlacement]

@[simp] theorem placeData_calm (write : Bool) (val : Word) (s : State) : (placeData write val s).Calm s := by
  simp [State.Calm, placeData]

@[simp] theorem migrationCopy_calm (o : Nat) (s : State) : (migrationCopy o s).Calm s := by
  unfold migrationCopy
  try dsimp only
  (repeat' split) <;> simp_all [State.Calm]

@[simp] theorem State.settleTile_calm (s : State) (slot : Nat) : (State.settleTile s slot).Calm s := by
  unfold State.settleTile
  try dsimp only
  (repeat' split) <;> simp_all [State.Calm]

@[simp] theorem warmUpRampEnd_calm (o : Nat) (s : State) : (warmUpRampEnd o s).Calm s := by
  unfold warmUpRampEnd
  try dsimp only
  (repeat' split) <;> simp_all [State.Calm]

/-! ### Rings -/

@[simp] theorem State.decodeMiss_calm (s : State) (bar : Nat) (off : Nat) (write : Bool) : (State.decodeMiss s bar off write).Calm s := by
  simp [State.Calm, State.decodeMiss]

@[simp] theorem State.ringDoorbell_calm (s : State) (r : Nat) (idx : Nat) : (State.ringDoorbell s r idx).Calm s := by
  simp [State.Calm, State.ringDoorbell]

@[simp] theorem doorbellWrite_calm (off : Nat) (size : Nat) (write : Bool) (val : Word) (s : State) : (doorbellWrite off size write val s).Calm s := by
  simp [State.Calm, doorbellWrite]

@[simp] theorem State.take_calm (s : State) (r : Nat) (segs : List (List Word)) : (State.take s r segs).1.Calm s := by
  simp [State.Calm, State.take]

@[simp] theorem State.takeBad_calm (s : State) (r : Nat) (segs : List (List Word)) (xfer : Nat) : (State.takeBad s r segs xfer).Calm s := by
  simp [State.Calm, State.takeBad]

@[simp] theorem State.takeChain_calm (s : State) (r : Nat) (type : Nat) (entries : List (List Word)) : (State.takeChain s r type entries).Calm s := by
  unfold State.takeChain
  try dsimp only
  (repeat' split) <;> simp_all [State.Calm]

@[simp] theorem descriptorTake_calm (r : Nat) (entries : List (List Word)) (s : State) : (descriptorTake r entries s).Calm s := by
  unfold descriptorTake
  try dsimp only
  (repeat' split) <;> simp_all [State.Calm]

@[simp] theorem State.refuseEnable_calm (s : State) (r : Nat) (reason : Nat) : (State.refuseEnable s r reason).Calm s := by
  simp [State.Calm, State.refuseEnable]

@[simp] theorem State.startRing_calm (s : State) (r : Nat) : (State.startRing s r).Calm s := by
  simp [State.Calm, State.startRing]

@[simp] theorem ringEnable_calm (r : Nat) (s : State) : (ringEnable r s).Calm s := by
  unfold ringEnable
  dsimp only
  (repeat' split) <;> first
    | (simp_all [State.Calm]; done)
    | (rename_i h; have := State.engineAlloc_calm _ _ _ _ _ _ h; simp_all [State.Calm])

@[simp] theorem State.countWaiting_calm (s : State) : (State.countWaiting s).Calm s := by
  simp [State.Calm, State.countWaiting]

@[simp] theorem State.unqueue_calm (s : State) (r : Nat) (ids : List Nat) : (State.unqueue s r ids).Calm s := by
  simp [State.Calm, State.unqueue]

@[simp] theorem ringDisable_calm (r : Nat) (s : State) : (ringDisable r s).Calm s := by
  simp [State.Calm, ringDisable]

@[simp] theorem State.ringOff_calm (s : State) (r : Nat) : (State.ringOff s r).Calm s := by
  simp [State.Calm, State.ringOff]

@[simp] theorem ringDrained_calm (r : Nat) (s : State) : (ringDrained r s).Calm s := by
  simp [State.Calm, ringDrained]

@[simp] theorem State.hostReadFail_calm (s : State) (r : Nat) (code : Nat) (of : Option Nat) : (State.hostReadFail s r code of).Calm s := by
  unfold State.hostReadFail
  try dsimp only
  (repeat' split) <;> simp_all [State.Calm]

@[simp] theorem State.sendPending_calm (s : State) : (State.sendPending s).Calm s := by
  simp [State.Calm, State.sendPending]

@[simp] theorem busMasterEnable_calm (on : Bool) (s : State) : (busMasterEnable on s).Calm s := by
  simp [State.Calm, busMasterEnable]

@[simp] theorem moderationTimer_calm (r : Nat) (s : State) : (moderationTimer r s).Calm s := by
  unfold moderationTimer
  try dsimp only
  (repeat' split) <;> simp_all [State.Calm]

@[simp] theorem State.hostReset_calm (s : State) (table : Bool) : (State.hostReset s table).Calm s := by
  simp [State.Calm, State.hostReset]

@[simp] theorem functionLevelReset_calm (s : State) : (functionLevelReset s).Calm s := by
  simp [State.Calm, functionLevelReset]

@[simp] theorem flrDone_calm (s : State) : (flrDone s).Calm s := by
  simp [State.Calm, flrDone]

@[simp] theorem State.post_calm (s : State) (r : Nat) (type : Nat) : (State.post s r type).Calm s := by
  unfold State.post
  try dsimp only
  (repeat' split) <;> simp_all [State.Calm]

@[simp] theorem audioRec_calm (r : Nat) (s : State) : (audioRec r s).Calm s := by
  unfold audioRec
  try dsimp only
  (repeat' split) <;> simp_all [State.Calm]

@[simp] theorem audioPlay_calm (r : Nat) (data : List Byte) (s : State) : (audioPlay r data s).Calm s := by
  unfold audioPlay
  try dsimp only
  (repeat' split) <;> simp_all [State.Calm]

/-! ### Vault -/

@[simp] theorem State.vaultStatus_calm (s : State) : (State.vaultStatus s).Calm s := by
  simp [State.Calm, State.vaultStatus]

@[simp] theorem State.serveRing_calm (s : State) (r : Nat) : (State.serveRing s r).Calm s := by
  simp [State.Calm, State.serveRing]

@[simp] theorem State.vaultWait_calm (s : State) (r : Nat) (d : Desc) (mask : BitVec 64) (items : List (Word × Word × BitVec 64)) : (State.vaultWait s r d mask items).Calm s := by
  simp [State.Calm, State.vaultWait]

@[simp] theorem waitingRelease_calm (r : Nat) (s : State) : (waitingRelease r s).Calm s := by
  unfold waitingRelease
  try dsimp only
  (repeat' split) <;> simp_all [State.Calm]

theorem State.loftWrite_calm (s u : State) (l : List (Word × Word × BitVec 64)) (h : s.loftWrite l = .inr u) :
    u.Calm s := by
  unfold State.loftWrite at h
  (repeat' split at h) <;> first
    | (cases h; done)
    | (cases h; exact .refl s)

@[simp] theorem paramWrite_calm (r : Nat) (items : List (Word × Word × BitVec 64)) (s : State) :
    (paramWrite r items s).Calm s := by
  unfold paramWrite
  dsimp only
  split
  · exact .refl s
  · split
    · exact .refl s
    · split
      · simp [State.Calm]
      · split
        · simp [State.Calm]
        · rename_i h
          exact State.Calm.trans (by simp [State.Calm]) ((State.loftWrite_calm _ _ _ h).trans (by simp [State.Calm]))

@[simp] theorem State.writeOrphans_calm (s : State) : (State.writeOrphans s).Calm s := by
  unfold State.writeOrphans
  dsimp only
  refine (foldl_calm _ (fun t l => ?_) _ _).trans ⟨rfl, rfl, rfl, rfl⟩
  split
  · exact .refl t
  · rename_i h; exact State.loftWrite_calm _ _ _ h

@[simp] theorem State.storeLoss_calm (s : State) (ob : Nat) : (State.storeLoss s ob).Calm s := by
  simp [State.Calm, State.storeLoss]

@[simp] theorem paramRead_calm (r : Nat) (items : List (Word × Word × BitVec 64)) (bad : List Nat) (s : State) : (paramRead r items bad s).Calm s := by
  unfold paramRead
  try dsimp only
  (repeat' split) <;> simp_all [State.Calm]

@[simp] theorem State.commitDone_calm (s : State) (r : Nat) (id : Nat) (op : Nat) (code : Nat) (wb : List (Nat × Word)) : (State.commitDone s r id op code wb).Calm s := by
  simp [State.Calm, State.commitDone]

@[simp] theorem State.answer_calm (s : State) (q : CommitReq) (code : Nat) : (State.answer s q code).Calm s := by
  unfold State.answer
  try dsimp only
  (repeat' split) <;> simp_all [State.Calm]

@[simp] theorem State.setArms_calm (s : State) (l : List Arm) : (State.setArms s l).Calm s := by
  simp [State.Calm, State.setArms]

@[simp] theorem State.keepOwn_calm (s : State) (own : Option (Nat × Nat)) : (State.keepOwn s own).2.Calm s := by
  unfold State.keepOwn
  try dsimp only
  (repeat' split) <;> simp_all [State.Calm]

@[simp] theorem State.arm_calm (s : State) (q : CommitReq) : (State.arm s q).Calm s := by
  unfold State.arm
  try dsimp only
  (repeat' split) <;> simp_all [State.Calm]

@[simp] theorem State.decideApply_calm (s : State) (q : CommitReq) : (State.decideApply s q).Calm s := by
  simp [State.Calm, State.decideApply]

@[simp] theorem State.sendBaton_calm (s : State) (op : BatonOp) (q : CommitReq) (lap : Nat) : (State.sendBaton s op q lap).Calm s := by
  simp [State.Calm, State.sendBaton]

@[simp] theorem State.decideDiscard_calm (s : State) (q : CommitReq) : (State.decideDiscard s q).Calm s := by
  simp [State.Calm, State.decideDiscard]

@[simp] theorem State.withdraw_calm (s : State) (mask : BitVec 64) : (State.withdraw s mask).Calm s := by
  unfold State.withdraw
  try dsimp only
  (repeat' split) <;> simp_all [State.Calm]

@[simp] theorem State.decideAbandon_calm (s : State) (q : CommitReq) : (State.decideAbandon s q).Calm s := by
  unfold State.decideAbandon
  try dsimp only
  (repeat' split) <;> simp_all [State.Calm]

@[simp] theorem State.judge_calm (s : State) (q : CommitReq) : (State.judge s q).Calm s := by
  unfold State.judge
  try dsimp only
  (repeat' split) <;> simp_all [State.Calm]

@[simp] theorem takeCommit_calm (ops : List Nat) (r : Nat) (s : State) : (takeCommit ops r s).Calm s := by
  unfold takeCommit
  try dsimp only
  (repeat' split) <;> simp_all [State.Calm]

@[simp] theorem State.checkForwarded_calm (s : State) : (State.checkForwarded s).Calm s := by
  simp [State.Calm, State.checkForwarded]

@[simp] theorem State.expireForwards_calm (s : State) (all : Bool) : (State.expireForwards s all).Calm s := by
  simp [State.Calm, State.expireForwards]

@[simp] theorem batonDistribute_calm (s : State) : (batonDistribute s).Calm s := by
  simp [State.Calm, batonDistribute]

@[simp] theorem State.rampObjs_calm (s : State) (l : List Nat) (len : Nat) : (State.rampObjs s l len).Calm s := by
  simp [State.Calm, State.rampObjs]

@[simp] theorem State.healStore_calm (s : State) (mask : BitVec 64) : (State.healStore s mask).Calm s := by
  simp [State.Calm, State.healStore]

@[simp] theorem State.numberArms_calm (s : State) : (State.numberArms s).Calm s := by
  simp [State.Calm, State.numberArms]

@[simp] theorem State.rampPoints_calm (s : State) (mask : BitVec 64) (len : Nat) (late : Bool) : (State.rampPoints s mask len late).Calm s := by
  simp [State.Calm, State.rampPoints]

@[simp] theorem State.applyArm_calm (s : State) (a : Arm) : (State.applyArm s a).Calm s := by
  unfold State.applyArm
  try dsimp only
  (repeat' split) <;> simp_all [State.Calm]

@[simp] theorem entryLap_calm (s : State) : (entryLap s).Calm s := by
  simp [State.Calm, entryLap]

@[simp] theorem State.exchangeElem_calm (s : State) (sw : Switching) (e : Nat) : (State.exchangeElem s sw e).Calm s := by
  simp [State.Calm, State.exchangeElem]

@[simp] theorem State.swapIns_calm (s : State) (k : Nat) (v : RVal) (len : Nat) (power : Bool) : (State.swapIns s k v len power).Calm s := by
  simp [State.Calm, State.swapIns]

@[simp] theorem State.afterExchange_calm (s : State) (sw : Switching) (e : Nat) : (s.afterExchange sw e).Calm s := by
  unfold State.afterExchange
  dsimp only
  split <;> (repeat' split) <;> simp [State.Calm]

@[simp] theorem State.recopy_calm (s : State) (slots : List Nat) (h : Nat) : (State.recopy s slots h).Calm s := by
  simp [State.Calm, State.recopy]

@[simp] theorem State.exchange_calm (s : State) (p : Nat) (sw : Switching) : (State.exchange s p sw).Calm s := by
  simp [State.Calm, State.exchange]

@[simp] theorem pageExchange_calm (p : Nat) (s : State) : (pageExchange p s).Calm s := by
  simp [State.Calm, pageExchange]

@[simp] theorem loftRefresh_calm (ob : Nat) (bad : Bool) (s : State) : (loftRefresh ob bad s).Calm s := by
  simp [State.Calm, loftRefresh]

@[simp] theorem lockRelease_calm (s : State) : (lockRelease s).Calm s := by
  simp [State.Calm, lockRelease]

@[simp] theorem groupChange_calm (val : Word) (s : State) : (groupChange val s).Calm s := by
  simp [State.Calm, groupChange]

@[simp] theorem engineJoin_calm (s : State) : (engineJoin s).Calm s := by
  simp [State.Calm, engineJoin]

@[simp] theorem slotReload_calm (slot : Nat) (bad : List Nat) (s : State) : (slotReload slot bad s).Calm s := by
  simp [State.Calm, slotReload]

@[simp] theorem State.warmObj_calm (s : State) (o : Nat) : (State.warmObj s o).Calm s := by
  simp [State.Calm, State.warmObj]

@[simp] theorem reloadComplete_calm (slot : Nat) (s : State) : (reloadComplete slot s).Calm s := by
  unfold reloadComplete
  try dsimp only
  (repeat' split) <;> simp_all [State.Calm]

@[simp] theorem snapCfg_calm (r : Nat) (s : State) : (snapCfg r s).Calm s := by
  unfold snapCfg
  try dsimp only
  (repeat' split) <;> simp_all [State.Calm]

@[simp] theorem State.gatherSnaps_calm (s : State) : (State.gatherSnaps s).Calm s := by
  simp [State.Calm, State.gatherSnaps]

@[simp] theorem State.openSnaps_calm (s : State) : (State.openSnaps s).Calm s := by
  simp [State.Calm, State.openSnaps]

@[simp] theorem State.judgeSnaps_calm (s : State) : (State.judgeSnaps s).Calm s := by
  simp [State.Calm, State.judgeSnaps]

@[simp] theorem snapshotWrite_calm (st : Nat) (s : State) : (snapshotWrite st s).Calm s := by
  unfold snapshotWrite
  try dsimp only
  (repeat' split) <;> simp_all [State.Calm]

/-! ### Casc -/

@[simp] theorem State.setCport_calm (s : State) (p : Nat) (x : CascPort) : (State.setCport s p x).Calm s := by
  simp [State.Calm, State.setCport]

@[simp] theorem State.setCstate_calm (s : State) (v : Nat) : (State.setCstate s v).Calm s := by
  simp [State.Calm, State.setCstate]

@[simp] theorem State.driveThru_calm (s : State) (low : Bool) : (State.driveThru s low).Calm s := by
  simp [State.Calm, State.driveThru]

@[simp] theorem State.setMap_calm (s : State) (map : List CascHop) : (State.setMap s map).Calm s := by
  simp [State.Calm, State.setMap]

@[simp] theorem State.cutMap_calm (s : State) (p : Nat) : (State.cutMap s p).Calm s := by
  simp [State.Calm, State.cutMap]

@[simp] theorem State.breakLink_calm (s : State) (p : Nat) : (State.breakLink s p).Calm s := by
  simp [State.Calm, State.breakLink]

@[simp] theorem State.setProtected_calm (s : State) (p : Nat) (b : Bool) : (State.setProtected s p b).Calm s := by
  simp [State.Calm, State.setProtected]

@[simp] theorem State.layoutCheck_calm (s : State) : (State.layoutCheck s).Calm s := by
  simp [State.Calm, State.layoutCheck]

@[simp] theorem State.clearMap_calm (s : State) : (State.clearMap s).Calm s := by
  simp [State.Calm, State.clearMap]

@[simp] theorem State.leaveRing_calm (s : State) (st : Nat) : (State.leaveRing s st).Calm s := by
  simp [State.Calm, State.leaveRing]

@[simp] theorem cascadeEnable_calm (s : State) : (cascadeEnable s).Calm s := by
  simp [State.Calm, cascadeEnable]

@[simp] theorem selfTestDone_calm (pass : Bool) (s : State) : (selfTestDone pass s).Calm s := by
  simp [State.Calm, selfTestDone]

@[simp] theorem cascadeInsert_calm (s : State) : (cascadeInsert s).Calm s := by
  simp [State.Calm, cascadeInsert]

@[simp] theorem cascadeWithdraw_calm (s : State) : (cascadeWithdraw s).Calm s := by
  simp [State.Calm, cascadeWithdraw]

@[simp] theorem cascadeDisable_calm (s : State) : (cascadeDisable s).Calm s := by
  simp [State.Calm, cascadeDisable]

@[simp] theorem bypassSwitch_calm (s : State) : (bypassSwitch s).Calm s := by
  unfold bypassSwitch
  try dsimp only
  (repeat' split) <;> simp_all [State.Calm]

@[simp] theorem State.hopOver_calm (s : State) : (State.hopOver s).Calm s := by
  simp [State.Calm, State.hopOver]

@[simp] theorem State.linkBuffer_calm (s : State) : (State.linkBuffer s).Calm s := by
  unfold State.linkBuffer
  split
  · exact .refl s
  · cases h : s.engineAlloc 6 0 Config.linkShelves false with
    | none => exact .refl s
    | some t => exact State.engineAlloc_calm _ _ _ _ _ _ h

@[simp] theorem State.joinRing_calm (s : State) : (State.joinRing s).Calm s := by
  simp [State.Calm, State.joinRing]

@[simp] theorem State.linkCheck_calm (s : State) (p : Nat) : (State.linkCheck s p).Calm s := by
  simp [State.Calm, State.linkCheck]

@[simp] theorem linkTrained_calm (p : Nat) (nbr : Nat) (map : List CascHop) (s : State) : (linkTrained p nbr map s).Calm s := by
  simp [State.Calm, linkTrained]

@[simp] theorem hopMeasureDone_calm (p : Nat) (echoes : List (Nat × Nat)) (s : State) : (hopMeasureDone p echoes s).Calm s := by
  simp [State.Calm, hopMeasureDone]

@[simp] theorem State.failLane_calm (s : State) (p : Nat) (lane : Nat) : (State.failLane s p lane).Calm s := by
  simp [State.Calm, State.failLane]

@[simp] theorem laneLockLoss_calm (p : Nat) (lane : Nat) (s : State) : (laneLockLoss p lane s).Calm s := by
  simp [State.Calm, laneLockLoss]

@[simp] theorem cascFrameSend_calm (s : State) : (cascFrameSend s).Calm s := by
  simp [State.Calm, cascFrameSend]

@[simp] theorem State.dropForward_calm (s : State) (f : Forward) : (State.dropForward s f).Calm s := by
  simp [State.Calm, State.dropForward]

@[simp] theorem State.closeForward_calm (s : State) (issuer : Nat) (op : Nat) (mask : BitVec 64) (code : Nat) : (State.closeForward s issuer op mask code).Calm s := by
  unfold State.closeForward
  try dsimp only
  (repeat' split) <;> simp_all [State.Calm]

@[simp] theorem State.armBaton_calm (s : State) (b : Baton) : (State.armBaton s b).Calm s := by
  unfold State.armBaton
  try dsimp only
  (repeat' split) <;> simp_all [State.Calm]

@[simp] theorem State.takeBaton_calm (s : State) (b : Baton) : (State.takeBaton s b).Calm s := by
  unfold State.takeBaton
  try dsimp only
  (repeat' split) <;> simp_all [State.Calm]

@[simp] theorem State.takeRefusal_calm (s : State) (x : Refused) : (State.takeRefusal s x).Calm s := by
  unfold State.takeRefusal
  try dsimp only
  (repeat' split) <;> simp_all [State.Calm]

@[simp] theorem State.mirrorGens_calm (s : State) (m : MasterMsg) : (State.mirrorGens s m).Calm s := by
  simp [State.Calm, State.mirrorGens]

@[simp] theorem State.takeMaster_calm (s : State) (m : MasterMsg) : (State.takeMaster s m).Calm s := by
  simp [State.Calm, State.takeMaster]

@[simp] theorem State.compareCtrl_calm (s : State) (p : Nat) (c : CtrlMsg) : (State.compareCtrl s p c).Calm s := by
  simp [State.Calm, State.compareCtrl]

@[simp] theorem State.takeCtrl_calm (s : State) (p : Nat) (f : CascFrame) : (State.takeCtrl s p f).Calm s := by
  unfold State.takeCtrl
  try dsimp only
  (repeat' split) <;> simp_all [State.Calm]

@[simp] theorem State.takePart_calm (s : State) (lap : Nat) (i : PartItem) : (State.takePart s lap i).Calm s := by
  simp [State.Calm, State.takePart]

@[simp] theorem State.takeParts_calm (s : State) (p : Nat) (f : CascFrame) : (State.takeParts s p f).Calm s := by
  simp [State.Calm, State.takeParts]

@[simp] theorem State.takeChans_calm (s : State) (p : Nat) (f : CascFrame) : (State.takeChans s p f).Calm s := by
  simp [State.Calm, State.takeChans]

@[simp] theorem State.crcLanes_calm (s : State) (p : Nat) (bad : List Nat) : (State.crcLanes s p bad).Calm s := by
  simp [State.Calm, State.crcLanes]

@[simp] theorem cascFrameLate_calm (p : Nat) (s : State) : (cascFrameLate p s).Calm s := by
  simp [State.Calm, cascFrameLate]

@[simp] theorem State.ringCommand_calm (s : State) (c : RingCmd) : (State.ringCommand s c).Calm s := by
  simp [State.Calm, State.ringCommand]

@[simp] theorem cascadeMeasure_calm (s : State) : (cascadeMeasure s).Calm s := by
  simp [State.Calm, cascadeMeasure]

@[simp] theorem masterTimeout_calm (s : State) : (masterTimeout s).Calm s := by
  simp [State.Calm, masterTimeout]

@[simp] theorem State.cascBoundary_calm (s : State) : (State.cascBoundary s).Calm s := by
  simp [State.Calm, State.cascBoundary]

theorem State.takeFrame_calm (s : State) (p : Nat) (f : CascFrame) (crcBad : List Nat) (early : State → State)
    (h : ∀ t, (early t).Calm t) : (s.takeFrame p f crcBad early).Calm s := by
  unfold State.takeFrame
  split
  · exact .refl s
  · dsimp only
    have hs : (s.setCport p { s.cport p with gotLap := s.lap + 1 }).Calm s := State.setCport_calm ..
    generalize s.setCport p { s.cport p with gotLap := s.lap + 1 } = v at hs
    refine State.Calm.trans ?_ ((State.crcLanes_calm v p ((List.range 3).filter (fun i => crcBad.contains i))).trans hs)
    generalize v.crcLanes p ((List.range 3).filter (fun i => crcBad.contains i)) = u
    split
    · exact .refl u
    · split
      · refine (h _).trans ?_
        split
        · split <;> simp [State.Calm]
        · exact .refl u
      · split <;> simp [State.Calm]

/-! ### RegAccess -/

@[simp] theorem State.writeReg_calm (s : State) (take : FieldDef → Bool) (free : Bool) (off : Nat) (val : Word) : (State.writeReg s take free off val).Calm s := by
  unfold State.writeReg
  try dsimp only
  (repeat' split) <;> simp_all [State.Calm]

@[simp] theorem State.writeOwn_calm (s : State) (off : Nat) (val : Word) : (State.writeOwn s off val).Calm s := by
  simp [State.Calm, State.writeOwn]

@[simp] theorem State.writePlain_calm (s : State) (free : Bool) (off : Nat) (val : Word) : (State.writePlain s free off val).Calm s := by
  simp [State.Calm, State.writePlain]

/-! ### Dpll -/

@[simp] theorem State.setSlot_calm (s : State) (n : Nat) (x : RefSlot) : (State.setSlot s n x).Calm s := by
  simp [State.Calm, State.setSlot]

@[simp] theorem State.sampleArrives_calm (s : State) (n : Nat) (e : Int) : (State.sampleArrives s n e).Calm s := by
  simp [State.Calm, State.sampleArrives]

@[simp] theorem State.slotEdge_calm (s : State) (n : Nat) (cyc : Nat) (sub : Nat) : (State.slotEdge s n cyc sub).Calm s := by
  simp [State.Calm, State.slotEdge]

@[simp] theorem refSample_calm (n : Nat) (cyc : Nat) (sub : Nat) (falling : Bool) (s : State) : (refSample n cyc sub falling s).Calm s := by
  simp [State.Calm, refSample]

@[simp] theorem State.beginWcmp_calm (s : State) (n : Nat) : (State.beginWcmp s n).Calm s := by
  simp [State.Calm, State.beginWcmp]

@[simp] theorem State.latchWcmp_calm (s : State) (n : Nat) (w : WCmp) : (State.latchWcmp s n w).Calm s := by
  simp [State.Calm, State.latchWcmp]

@[simp] theorem State.goodSample_calm (s : State) (n : Nat) (e : Int) : (State.goodSample s n e).Calm s := by
  unfold State.goodSample
  try dsimp only
  (repeat' split) <;> simp_all [State.Calm]

@[simp] theorem State.declareJump_calm (s : State) (n : Nat) : (State.declareJump s n).Calm s := by
  simp [State.Calm, State.declareJump]

@[simp] theorem State.judgeSample_calm (s : State) (n : Nat) (e : Int) : (State.judgeSample s n e).Calm s := by
  unfold State.judgeSample
  try dsimp only
  (repeat' split) <;> simp_all [State.Calm]

@[simp] theorem State.judgeAll_calm (s : State) (n : Nat) : (State.judgeAll s n).Calm s := by
  unfold State.judgeAll
  try dsimp only
  (repeat' split) <;> simp_all [State.Calm]

@[simp] theorem State.measure_calm (s : State) (n : Nat) : (State.measure s n).Calm s := by
  simp [State.Calm, State.measure]

@[simp] theorem State.disqualify_calm (s : State) (n : Nat) : (State.disqualify s n).Calm s := by
  simp [State.Calm, State.disqualify]

@[simp] theorem State.checkSlot_calm (s : State) (now : Int) (n : Nat) : (State.checkSlot s now n).Calm s := by
  simp [State.Calm, State.checkSlot]

@[simp] theorem State.driftSlot_calm (s : State) (n : Nat) : (State.driftSlot s n).Calm s := by
  unfold State.driftSlot
  try dsimp only
  (repeat' split) <;> simp_all [State.Calm]

@[simp] theorem refQualify_calm (n : Nat) (s : State) : (refQualify n s).Calm s := by
  simp [State.Calm, refQualify]

@[simp] theorem State.countClean_calm (s : State) (now : Int) (n : Nat) : (State.countClean s now n).Calm s := by
  simp [State.Calm, State.countClean]

@[simp] theorem State.dropSlot_calm (s : State) (n : Nat) : (State.dropSlot s n).Calm s := by
  simp [State.Calm, State.dropSlot]

@[simp] theorem State.takeWritten_calm (s : State) (n : Nat) : (State.takeWritten s n).Calm s := by
  simp [State.Calm, State.takeWritten]

@[simp] theorem State.witnessCheck_calm (s : State) : (State.witnessCheck s).Calm s := by
  simp [State.Calm, State.witnessCheck]

@[simp] theorem State.tickSlots_calm (s : State) (now : Int) : (State.tickSlots s now).Calm s := by
  simp [State.Calm, State.tickSlots]

@[simp] theorem State.setDst_calm (s : State) (v : Nat) : (State.setDst s v).Calm s := by
  simp [State.Calm, State.setDst]

@[simp] theorem State.setSel_calm (s : State) (n : Option Nat) : (State.setSel s n).Calm s := by
  simp [State.Calm, State.setSel]

@[simp] theorem State.enterHoldover_calm (s : State) (td : Nat) : (State.enterHoldover s td).Calm s := by
  simp [State.Calm, State.enterHoldover]

@[simp] theorem State.noSlot_calm (s : State) : (State.noSlot s).Calm s := by
  simp [State.Calm, State.noSlot]

@[simp] theorem holdoverHistory_calm (s : State) : (holdoverHistory s).Calm s := by
  simp [State.Calm, holdoverHistory]

@[simp] theorem State.addStep_calm (s : State) (d : Int) : (State.addStep s d).Calm s := by
  simp [State.Calm, State.addStep]

@[simp] theorem State.rebuild_calm (s : State) (n : Nat) : (State.rebuild s n).Calm s := by
  simp [State.Calm, State.rebuild]

@[simp] theorem State.buildOut_calm (s : State) (n : Nat) : (State.buildOut s n).Calm s := by
  unfold State.buildOut
  try dsimp only
  (repeat' split) <;> simp_all [State.Calm]

@[simp] theorem State.selectSlot_calm (s : State) (n : Nat) : (State.selectSlot s n).Calm s := by
  simp [State.Calm, State.selectSlot]

@[simp] theorem State.mark_calm (s : State) (l : List Nat) (v : Bool) : (State.mark s l v).Calm s := by
  simp [State.Calm, State.mark]

@[simp] theorem State.setConflict_calm (s : State) (r : Nat) (v : Bool) : (State.setConflict s r v).Calm s := by
  simp [State.Calm, State.setConflict]

@[simp] theorem State.arbitrate_calm (s : State) (r : Nat) (c : List Nat) : (State.arbitrate s r c).2.Calm s := by
  unfold State.arbitrate
  try dsimp only
  (repeat' split) <;> simp_all [State.Calm]

@[simp] theorem State.arbitrateAll_calm (s : State) : s.arbitrateAll.2.Calm s := by
  unfold State.arbitrateAll
  refine foldl_snd_calm _ (fun a r => ?_) _ _
  dsimp only
  split <;> simp [State.Calm]

@[simp] theorem State.selectAuto_calm (s : State) : (State.selectAuto s).Calm s := by
  unfold State.selectAuto
  try dsimp only
  (repeat' split) <;> simp_all [State.Calm]

@[simp] theorem State.takeMode_calm (s : State) : (State.takeMode s).Calm s := by
  simp [State.Calm, State.takeMode]

@[simp] theorem State.select_calm (s : State) : (State.select s).Calm s := by
  unfold State.select
  try dsimp only
  (repeat' split) <;> simp_all [State.Calm]

@[simp] theorem State.suspend_calm (s : State) : (State.suspend s).Calm s := by
  unfold State.suspend
  try dsimp only
  (repeat' split) <;> simp_all [State.Calm]

@[simp] theorem State.rebuildDue_calm (s : State) : (State.rebuildDue s).Calm s := by
  unfold State.rebuildDue
  try dsimp only
  (repeat' split) <;> simp_all [State.Calm]

@[simp] theorem State.baseOut_calm (s : State) (kept : Bool) : (State.baseOut s kept).2.Calm s := by
  unfold State.baseOut
  try dsimp only
  (repeat' split) <;> simp_all [State.Calm]

@[simp] theorem State.stepOut_calm (s : State) : (State.stepOut s).2.Calm s := by
  unfold State.stepOut
  try dsimp only
  (repeat' split) <;> simp_all [State.Calm]

@[simp] theorem State.countLock_calm (s : State) : (State.countLock s).Calm s := by
  unfold State.countLock
  try dsimp only
  (repeat' split) <;> simp_all [State.Calm]

@[simp] theorem State.countSecond_calm (s : State) (y : Int) : (State.countSecond s y).Calm s := by
  simp [State.Calm, State.countSecond]

@[simp] theorem State.tickOut_calm (s : State) (kept : Bool) : (State.tickOut s kept).Calm s := by
  simp [State.Calm, State.tickOut]

@[simp] theorem State.showSlot_calm (s : State) (now : Int) (n : Nat) : (State.showSlot s now n).Calm s := by
  simp [State.Calm, State.showSlot]

@[simp] theorem State.showDpll_calm (s : State) (now : Int) : (State.showDpll s now).Calm s := by
  unfold State.showDpll
  try dsimp only
  (repeat' split) <;> simp_all [State.Calm]

@[simp] theorem dpllTick_calm (cyc : Nat) (s : State) : (dpllTick cyc s).Calm s := by
  simp [State.Calm, dpllTick]

@[simp] theorem dpllLock_calm (s : State) : (dpllLock s).Calm s := by
  simp [State.Calm, dpllLock]

@[simp] theorem dpllUnlock_calm (s : State) : (dpllUnlock s).Calm s := by
  simp [State.Calm, dpllUnlock]

@[simp] theorem phaseStepWrite_calm (val : Word) (s : State) : (phaseStepWrite val s).Calm s := by
  simp [State.Calm, phaseStepWrite]

@[simp] theorem refConfigWrite_calm (off : Nat) (val : Word) (s : State) : (refConfigWrite off val s).Calm s := by
  unfold refConfigWrite
  try dsimp only
  (repeat' split) <;> simp_all [State.Calm]

@[simp] theorem State.clearHistories_calm (s : State) : (State.clearHistories s).Calm s := by
  simp [State.Calm, State.clearHistories]

@[simp] theorem State.dpllEpoch_calm (s : State) (d : Int) : (State.dpllEpoch s d).Calm s := by
  simp [State.Calm, State.dpllEpoch]

@[simp] theorem State.dpllRestart_calm (s : State) : (State.dpllRestart s).Calm s := by
  simp [State.Calm, State.dpllRestart]

@[simp] theorem State.setFp_calm (s : State) (n : Nat) (x : Fp) : (State.setFp s n x).Calm s := by
  simp [State.Calm, State.setFp]

@[simp] theorem fpAlign_calm (n : Nat) (cyc : Nat) (s : State) : (fpAlign n cyc s).Calm s := by
  simp [State.Calm, fpAlign]

@[simp] theorem fpPulse_calm (n : Nat) (cyc : Nat) (s : State) : (fpPulse n cyc s).Calm s := by
  simp [State.Calm, fpPulse]

@[simp] theorem State.stopFp_calm (s : State) : (State.stopFp s).Calm s := by
  simp [State.Calm, State.stopFp]

@[simp] theorem State.fpEnable_calm (s : State) (n : Nat) : (State.fpEnable s n).Calm s := by
  simp [State.Calm, State.fpEnable]

/-! ### AesIn -/

@[simp] theorem State.aesEdge_calm (s : State) (r : Nat) (time : Int) (frac : Nat) : (State.aesEdge s r time frac).Calm s := by
  simp [State.Calm, State.aesEdge]

@[simp] theorem State.aesSub_calm (s : State) (r : Nat) (ch : Nat) (time : Int) (sub : SubFrame) : (State.aesSub s r ch time sub).Calm s := by
  unfold State.aesSub
  try dsimp only
  (repeat' split) <;> simp_all [State.Calm]

@[simp] theorem aes3SubframeIn_calm (r : Nat) (ch : Nat) (time : Int) (frac : Nat) (sub : SubFrame) (s : State) : (aes3SubframeIn r ch time frac sub s).Calm s := by
  simp [State.Calm, aes3SubframeIn]

/-! ### Cores -/

@[simp] theorem State.writeRwl_calm (s : State) (off : Nat) (v : Nat) : (State.writeRwl s off v).Calm s := by
  unfold State.writeRwl
  try dsimp only
  (repeat' split) <;> simp_all [State.Calm]

@[simp] theorem State.configEntry_calm (s : State) (off : Nat) (v : Nat) : (State.configEntry s off v).Calm s := by
  simp [State.Calm, State.configEntry]

@[simp] theorem State.loadSection_calm (s : State) (x : ImgSection) : (State.loadSection s x).Calm s := by
  unfold State.loadSection
  try dsimp only
  (repeat' split) <;> simp_all [State.Calm]

@[simp] theorem State.loadImage_calm (s : State) (i : ImageSrc) (slot : Nat) : (State.loadImage s i slot).Calm s := by
  simp [State.Calm, State.loadImage]

@[simp] theorem State.tryImage_calm (s : State) (i : ImageSrc) (slot : Nat) : (State.tryImage s i slot).1.Calm s := by
  unfold State.tryImage
  try dsimp only
  (repeat' split) <;> simp_all [State.Calm]

@[simp] theorem State.recovery_calm (s : State) : (State.recovery s).Calm s := by
  simp [State.Calm, State.recovery]

@[simp] theorem svAdvance_calm (vddFuse : Nat) (s : State) : (svAdvance vddFuse s).Calm s := by
  simp [State.Calm, svAdvance]

@[simp] theorem State.releaseRunners_calm (s : State) : (State.releaseRunners s).Calm s := by
  simp [State.Calm, State.releaseRunners]

@[simp] theorem runnerCheckIn_calm (k : Nat) (ms : Nat) (s : State) : (runnerCheckIn k ms s).Calm s := by
  simp [State.Calm, runnerCheckIn]

@[simp] theorem State.breakLocks_calm (s : State) (k : Nat) : (State.breakLocks s k).Calm s := by
  simp [State.Calm, State.breakLocks]

@[simp] theorem State.requeue_calm (s : State) (k : Nat) : (State.requeue s k).Calm s := by
  simp [State.Calm, State.requeue]

@[simp] theorem State.reaffine_calm (s : State) (k : Nat) (f : Nat → Nat) : (State.reaffine s k f).Calm s := by
  simp [State.Calm, State.reaffine]

@[simp] theorem State.restartCalls_calm (s : State) : (State.restartCalls s).Calm s := by
  simp [State.Calm, State.restartCalls]

@[simp] theorem State.spareRunner_calm (s : State) (k : Nat) (j : Nat) : (State.spareRunner s k j).Calm s := by
  simp [State.Calm, State.spareRunner]

@[simp] theorem State.runnerFault_calm (s : State) (k : Nat) (ms : Nat) : (State.runnerFault s k ms).Calm s := by
  unfold State.runnerFault
  try dsimp only
  (repeat' split) <;> simp_all [State.Calm]

@[simp] theorem runnerWatchdog_calm (k : Nat) (ms : Nat) (s : State) : (runnerWatchdog k ms s).Calm s := by
  simp [State.Calm, runnerWatchdog]

@[simp] theorem State.passServices_calm (s : State) (k : Nat) : (State.passServices s k).Calm s := by
  simp [State.Calm, State.passServices]

@[simp] theorem runnerRetestDone_calm (k : Nat) (pass : Bool) (s : State) : (runnerRetestDone k pass s).Calm s := by
  simp [State.Calm, runnerRetestDone]

@[simp] theorem keeperBusError_calm (addr : Nat) (s : State) : (keeperBusError addr s).Calm s := by
  simp [State.Calm, keeperBusError]

@[simp] theorem keeperCheckIn_calm (ms : Nat) (s : State) : (keeperCheckIn ms s).Calm s := by
  simp [State.Calm, keeperCheckIn]

@[simp] theorem keeperWatchdog_calm (ms : Nat) (s : State) : (keeperWatchdog ms s).Calm s := by
  simp [State.Calm, keeperWatchdog]

/-! ### SynthOps -/

@[simp] theorem State.wrRatio_calm (s : State) (lo : Fld) (hiFrac : Fld) (hiInt : Fld) (m : Nat) : (State.wrRatio s lo hiFrac hiInt m).Calm s := by
  simp [State.Calm, State.wrRatio]

@[simp] theorem State.loadNom_calm (s : State) (fam : Nat) : (State.loadNom s fam).Calm s := by
  simp [State.Calm, State.loadNom]

@[simp] theorem ratioUpdate_calm (s : State) : (ratioUpdate s).Calm s := by
  simp [State.Calm, ratioUpdate]

@[simp] theorem State.calibrate_calm (s : State) (c : Bands) : (State.calibrate s c).Calm s := by
  simp [State.Calm, State.calibrate]

@[simp] theorem State.setSynth_calm (s : State) (b : Bool) (x : Synth) : (State.setSynth s b x).Calm s := by
  simp [State.Calm, State.setSynth]

@[simp] theorem State.showSpare_calm (s : State) : (State.showSpare s).Calm s := by
  simp [State.Calm, State.showSpare]

@[simp] theorem State.loadInc_calm (s : State) : (State.loadInc s).Calm s := by
  simp [State.Calm, State.loadInc]

@[simp] theorem State.progFail_calm (s : State) (reason : Nat) : (State.progFail s reason).Calm s := by
  simp [State.Calm, State.progFail]

@[simp] theorem State.programSynth_calm (s : State) (b : Bool) : (State.programSynth s b).Calm s := by
  unfold State.programSynth
  try dsimp only
  (repeat' split) <;> simp_all [State.Calm]

@[simp] theorem State.programBoth_calm (s : State) : (State.programBoth s).Calm s := by
  simp [State.Calm, State.programBoth]

@[simp] theorem State.synPin_calm (s : State) : (State.synPin s).Calm s := by
  simp [State.Calm, State.synPin]

@[simp] theorem State.toRoot_calm (s : State) (b : Bool) : (State.toRoot s b).Calm s := by
  simp [State.Calm, State.toRoot]

@[simp] theorem State.reprogram_calm (s : State) (b : Bool) : (State.reprogram s b).Calm s := by
  unfold State.reprogram
  try dsimp only
  (repeat' split) <;> simp_all [State.Calm]

@[simp] theorem synthLock_calm (b : Bool) (s : State) : (synthLock b s).Calm s := by
  simp [State.Calm, synthLock]

@[simp] theorem State.beginRamp_calm (s : State) (segs : List (Int × Nat)) : (State.beginRamp s segs).Calm s := by
  simp [State.Calm, State.beginRamp]

@[simp] theorem rampStart_calm (s : State) : (rampStart s).Calm s := by
  simp [State.Calm, rampStart]

@[simp] theorem State.holdRamp_calm (s : State) : (State.holdRamp s).Calm s := by
  simp [State.Calm, State.holdRamp]

@[simp] theorem rampAbort_calm (s : State) : (rampAbort s).Calm s := by
  simp [State.Calm, rampAbort]

@[simp] theorem rampReturn_calm (s : State) : (rampReturn s).Calm s := by
  simp [State.Calm, rampReturn]

@[simp] theorem State.rampStep_calm (s : State) : (State.rampStep s).Calm s := by
  unfold State.rampStep
  try dsimp only
  (repeat' split) <;> simp_all [State.Calm]

@[simp] theorem rampDone_calm (s : State) : (rampDone s).Calm s := by
  unfold rampDone
  try dsimp only
  (repeat' split) <;> simp_all [State.Calm]

@[simp] theorem syncInEdge_calm (s : State) : (syncInEdge s).Calm s := by
  simp [State.Calm, syncInEdge]

@[simp] theorem dividerReset_calm (s : State) : (dividerReset s).Calm s := by
  simp [State.Calm, dividerReset]

/-! ### Boot -/

@[simp] theorem State.senseFuses_calm (s : State) : (State.senseFuses s).Calm s := by
  simp [State.Calm, State.senseFuses]

@[simp] theorem State.presentIds_calm (s : State) (src : BootSrc) : (State.presentIds s src).Calm s := by
  simp [State.Calm, State.presentIds]

@[simp] theorem State.startSynths_calm (s : State) (c : Bands) : (State.startSynths s c).Calm s := by
  simp [State.Calm, State.startSynths]

@[simp] theorem State.boot_calm (s : State) (src : BootSrc) : (State.boot s src).Calm s := by
  unfold State.boot
  try dsimp only
  (repeat' split) <;> simp_all [State.Calm]

@[simp] theorem State.bootDone_calm (s : State) : (State.bootDone s).Calm s := by
  simp [State.Calm, State.bootDone]

@[simp] theorem synthSettled_calm (b : Bool) (s : State) : (synthSettled b s).Calm s := by
  simp [State.Calm, synthSettled]

@[simp] theorem bootFromCellar_calm (img : ImageSrc) (cal : Bands) (s : State) : (bootFromCellar img cal s).Calm s := by
  unfold bootFromCellar
  try dsimp only
  (repeat' split) <;> simp_all [State.Calm]

/-! ### Movers -/

@[simp] theorem State.xbrError_calm (s : State) (kind : Nat) (master : Nat) (target : Nat) (addr : Nat) (write : Bool) : (State.xbrError s kind master target addr write).Calm s := by
  simp [State.Calm, State.xbrError]

@[simp] theorem State.setMover_calm (s : State) (m : Nat) (x : Mover) : (State.setMover s m x).Calm s := by
  simp [State.Calm, State.setMover]

@[simp] theorem State.setMstate_calm (s : State) (m : Nat) (v : Nat) : (State.setMstate s m v).Calm s := by
  simp [State.Calm, State.setMstate]

@[simp] theorem State.setPc_calm (s : State) (m : Nat) (pc : Nat) : (State.setPc s m pc).Calm s := by
  simp [State.Calm, State.setPc]

@[simp] theorem State.nextPc_calm (s : State) (m : Nat) : (State.nextPc s m).Calm s := by
  simp [State.Calm, State.nextPc]

@[simp] theorem State.moverFault_calm (s : State) (m : Nat) (code : Nat) : (State.moverFault s m code).Calm s := by
  simp [State.Calm, State.moverFault]

@[simp] theorem State.lenWrite_calm (s : State) (m : Nat) (a : Nat) (v : Nat) : (State.lenWrite s m a v).Calm s := by
  simp [State.Calm, State.lenWrite]

@[simp] theorem State.arAdvance_calm (s : State) (m : Nat) (a : Nat) : (State.arAdvance s m a).Calm s := by
  simp [State.Calm, State.arAdvance]

@[simp] theorem State.setArWord_calm (s : State) (m : Nat) (addr : Nat) (v : Word) : (State.setArWord s m addr v).Calm s := by
  simp [State.Calm, State.setArWord]

@[simp] theorem State.ownPut_calm (s : State) (m : Nat) (addr : Nat) (bs : List Byte) : (State.ownPut s m addr bs).Calm s := by
  simp [State.Calm, State.ownPut]

@[simp] theorem State.refusedAccess_calm (s : State) (m : Nat) (a : Nat) (code : Nat) (write : Bool) : (State.refusedAccess s m a code write).Calm s := by
  simp [State.Calm, State.refusedAccess]

@[simp] theorem State.elemSeen_calm (s : State) (m a w : Nat) : (State.elemSeen s m a w).Calm s := by
  unfold State.elemSeen
  split <;> simp [State.Calm]

@[simp] theorem State.elemPut_calm (s : State) (m : Nat) (a : Nat) (w : Nat) (v : Nat) : (State.elemPut s m a w v).Calm s := by
  unfold State.elemPut
  try dsimp only
  (repeat' split) <;> simp_all [State.Calm]

@[simp] theorem State.memEcc_calm (s : State) (domain : Nat) (index : Nat) (e : CellEcc) : (State.memEcc s domain index e).1.Calm s := by
  unfold State.memEcc
  try dsimp only
  (repeat' split) <;> simp_all [State.Calm]

@[simp] theorem State.elemEcc_calm (s : State) (m : Nat) (a : Nat) (e : CellEcc) : (State.elemEcc s m a e).1.Calm s := by
  unfold State.elemEcc
  try dsimp only
  (repeat' split) <;> simp_all [State.Calm]

@[simp] theorem State.readElem_calm (s : State) (m : Nat) (i : MoveI) (e : CellEcc) : (State.readElem s m i e).1.Calm s := by
  unfold State.readElem
  try dsimp only
  (repeat' split) <;> simp_all [State.Calm]

@[simp] theorem State.writeElem_calm (s : State) (m : Nat) (i : MoveI) (overlap : Bool) (v : Nat) : (State.writeElem s m i overlap v).1.Calm s := by
  unfold State.writeElem
  try dsimp only
  (repeat' split) <;> simp_all [State.Calm]

@[simp] theorem State.setHold_calm (s : State) (m : Nat) (h : Nat) (f : Nat) : (State.setHold s m h f).Calm s := by
  simp [State.Calm, State.setHold]

@[simp] theorem State.drainHold_calm (s : State) (m : Nat) (i : MoveI) (o : Bool) (n : Nat) :
    (s.drainHold m i o n).1.Calm s := by
  induction n generalizing s with
  | zero => exact .refl s
  | succ n ih =>
    unfold State.drainHold
    dsimp only
    have h := State.writeElem_calm s m i o ((s.mover m).h.toNat % 2 ^ i.wd)
    split
    · exact .refl s
    · generalize s.writeElem m i o ((s.mover m).h.toNat % 2 ^ i.wd) = r at h ⊢
      rcases r with ⟨t, _ | c⟩
      · exact (ih _).trans (by simp_all [State.Calm])
      · exact h

@[simp] theorem State.moveElem_calm (s : State) (m : Nat) (i : MoveI) (o : Bool) (e : CellEcc) : (s.moveElem m i o e).1.Calm s := by
  unfold State.moveElem
  split
  · have h := State.readElem_calm s m i e
    generalize s.readElem m i e = r at h ⊢
    rcases r with ⟨t, c | v⟩
    · exact h
    · exact (State.writeElem_calm _ _ _ _ _).trans h
  · have h := State.drainHold_calm s m i o 8
    generalize s.drainHold m i o 8 = r at h ⊢
    rcases r with ⟨t, _ | c⟩
    · have g := State.readElem_calm t m i e
      dsimp only
      generalize t.readElem m i e = q at g ⊢
      rcases q with ⟨u, c | v⟩
      · exact g.trans h
      · exact (State.drainHold_calm _ _ _ _ _).trans (State.Calm.trans (by simp [State.Calm]) (g.trans h))
    · exact h

@[simp] theorem moveElems_calm (m : Nat) (i : MoveI) (o : Bool) (ecc : List (Nat × CellEcc)) (n k : Nat) (s : State) :
    (moveElems m i o ecc n k s).1.Calm s := by
  induction n generalizing s k with
  | zero => exact .refl s
  | succ n ih =>
    unfold moveElems
    have h := State.moveElem_calm s m i o (eccAt ecc k)
    generalize s.moveElem m i o (eccAt ecc k) = r at h ⊢
    rcases r with ⟨t, _ | c⟩
    · exact (ih _ _).trans h
    · exact h

@[simp] theorem State.flushHold_calm (s : State) (m : Nat) (i : MoveI) (o : Bool) : (s.flushHold m i o).1.Calm s := by
  unfold State.flushHold
  split
  · have h := State.writeElem_calm s m i o (s.mover m).h.toNat
    generalize s.writeElem m i o (s.mover m).h.toNat = r at h ⊢
    rcases r with ⟨t, _ | c⟩
    · exact State.Calm.trans (by simp [State.Calm]) h
    · exact h
  · exact .refl s

@[simp] theorem State.endMove_calm (m : Nat) (i : MoveI) (o : Bool) (r : MoveRes) : (State.endMove m i o r).Calm r.1 := by
  unfold State.endMove
  rcases r with ⟨s, _ | c⟩
  · have h := State.flushHold_calm s m i o
    dsimp only
    generalize s.flushHold m i o = q at h ⊢
    rcases q with ⟨t, _ | c⟩ <;> simp_all [State.Calm]
  · simp [State.Calm]

@[simp] theorem State.fetchEcc_calm (s : State) (x1 : Ecc) : (State.fetchEcc s x1).Calm s := by
  unfold State.fetchEcc
  try dsimp only
  (repeat' split) <;> simp_all [State.Calm]

theorem State.executes_calm (s : State) (m op : Nat) (fetch : Ecc) (f : Nat → State → Option State)
    (h : ∀ i s t, f i s = some t → t.Calm s) : (s.executes m op fetch f).Calm s := by
  unfold State.executes
  dsimp only
  (repeat' split) <;> first
    | (simp [State.Calm]; done)
    | (rename_i g; have := h _ _ _ g; simp_all [State.Calm])

@[simp] theorem halt_calm (m : Nat) (fetch : Ecc) (s : State) : (halt m fetch s).Calm s := by
  unfold halt
  refine State.executes_calm _ _ _ _ _ (fun i s t h => ?_)
  dsimp only at h
  (repeat' split at h) <;> first
    | (cases h; done)
    | (cases h; simp [State.Calm]; done)
    | (cases h; split <;> simp [State.Calm]; done)
    | (cases h; exact (State.endMove_calm _ _ _ _).trans (moveElems_calm _ _ _ _ _ _ _))

@[simp] theorem move_calm (m : Nat) (fetch : Ecc) (ecc : List (Nat × CellEcc)) (s : State) : (move m fetch ecc s).Calm s := by
  unfold move
  refine State.executes_calm _ _ _ _ _ (fun i s t h => ?_)
  dsimp only at h
  (repeat' split at h) <;> first
    | (cases h; done)
    | (cases h; simp [State.Calm]; done)
    | (cases h; split <;> simp [State.Calm]; done)
    | (cases h; exact (State.endMove_calm _ _ _ _).trans (moveElems_calm _ _ _ _ _ _ _))

@[simp] theorem pacedBurst_calm (m : Nat) (ecc : List (Nat × CellEcc)) (w : Nat) (s : State) : (pacedBurst m ecc w s).Calm s := by
  unfold pacedBurst
  split
  · rename_i r i _ _
    split
    · exact .refl s
    · dsimp only
      have e (t : State) (u : State) (h : t.Calm u) (k : Nat) :
          (match moveElems m i r.overlap ecc k 0 t with
            | (s, some c) => s.moverFault m c
            | (s, none) =>
              if k < r.left then s.setMover m { s.mover m with run := some { r with left := r.left - k } }
              else State.endMove m i r.overlap (s, none)).Calm u := by
        have g := (moveElems_calm m i r.overlap ecc k 0 t).trans h
        generalize moveElems m i r.overlap ecc k 0 t = q at g ⊢
        rcases q with ⟨x, _ | c⟩
        · dsimp only
          split
          · exact State.Calm.trans (by simp [State.Calm]) g
          · exact (State.endMove_calm _ _ _ _).trans g
        · exact State.Calm.trans (by simp [State.Calm]) g
      exact e _ _ (by split <;> simp [State.Calm]) _
  · exact .refl s

@[simp] theorem loop_calm (m : Nat) (fetch : Ecc) (s : State) : (loop m fetch s).Calm s := by
  unfold loop
  refine State.executes_calm _ _ _ _ _ (fun i s t h => ?_)
  dsimp only at h
  (repeat' split at h) <;> first
    | (cases h; done)
    | (cases h; simp [State.Calm]; done)
    | (cases h; split <;> simp [State.Calm]; done)
    | (cases h; exact (State.endMove_calm _ _ _ _).trans (moveElems_calm _ _ _ _ _ _ _))

@[simp] theorem wait_calm (m : Nat) (fetch : Ecc) (s : State) : (wait m fetch s).Calm s := by
  unfold wait
  refine State.executes_calm _ _ _ _ _ (fun i s t h => ?_)
  dsimp only at h
  (repeat' split at h) <;> first
    | (cases h; done)
    | (cases h; simp [State.Calm]; done)
    | (cases h; split <;> simp [State.Calm]; done)
    | (cases h; exact (State.endMove_calm _ _ _ _).trans (moveElems_calm _ _ _ _ _ _ _))

@[simp] theorem State.signal_calm (s : State) (dest : Nat) (bit : Nat) : (State.signal s dest bit).Calm s := by
  simp [State.Calm, State.signal]

@[simp] theorem State.clearInbox_calm (s : State) (m : Nat) (mask : Nat) : (State.clearInbox s m mask).Calm s := by
  simp [State.Calm, State.clearInbox]

@[simp] theorem signal_calm (m : Nat) (fetch : Ecc) (s : State) : (signal m fetch s).Calm s := by
  unfold signal
  refine State.executes_calm _ _ _ _ _ (fun i s t h => ?_)
  (repeat' split at h) <;> first
    | (cases h; done)
    | (cases h; simp [State.Calm]; done)
    | (cases h; split <;> simp [State.Calm]; done)
    | (cases h; exact (State.endMove_calm _ _ _ _).trans (moveElems_calm _ _ _ _ _ _ _))

@[simp] theorem jump_calm (m : Nat) (fetch : Ecc) (s : State) : (jump m fetch s).Calm s := by
  unfold jump
  refine State.executes_calm _ _ _ _ _ (fun i s t h => ?_)
  dsimp only at h
  (repeat' split at h) <;> first
    | (cases h; done)
    | (cases h; simp [State.Calm]; done)
    | (cases h; split <;> simp [State.Calm]; done)
    | (cases h; exact (State.endMove_calm _ _ _ _).trans (moveElems_calm _ _ _ _ _ _ _))

@[simp] theorem State.activate_calm (s : State) (m : Nat) (timedOut : Bool) : (State.activate s m timedOut).Calm s := by
  simp [State.Calm, State.activate]

@[simp] theorem waitSatisfied_calm (m : Nat) (s : State) : (waitSatisfied m s).Calm s := by
  simp [State.Calm, waitSatisfied]

@[simp] theorem waitTimeout_calm (m : Nat) (s : State) : (waitTimeout m s).Calm s := by
  simp [State.Calm, waitTimeout]

@[simp] theorem State.startMover_calm (s : State) (m : Nat) (startLap : Bool) : (State.startMover s m startLap).Calm s := by
  simp [State.Calm, State.startMover]

@[simp] theorem State.writeCtl_calm (s : State) (m : Nat) (val : Word) : (State.writeCtl s m val).Calm s := by
  simp [State.Calm, State.writeCtl]

@[simp] theorem moverStart_calm (who : Agent) (m : Nat) (val : Word) (s : State) : (moverStart who m val s).Calm s := by
  simp [State.Calm, moverStart]

@[simp] theorem moverStartAtLap_calm (m : Nat) (s : State) : (moverStartAtLap m s).Calm s := by
  simp [State.Calm, moverStartAtLap]

@[simp] theorem State.haltMover_calm (s : State) (m : Nat) : (State.haltMover s m).Calm s := by
  simp [State.Calm, State.haltMover]

@[simp] theorem moverStop_calm (who : Agent) (m : Nat) (val : Word) (s : State) : (moverStop who m val s).Calm s := by
  simp [State.Calm, moverStop]

@[simp] theorem systemMoverRestart_calm (m : Nat) (s : State) : (systemMoverRestart m s).Calm s := by
  simp [State.Calm, systemMoverRestart]

@[simp] theorem State.moverLap_calm (s : State) (m : Nat) : (State.moverLap s m).Calm s := by
  simp [State.Calm, State.moverLap]

@[simp] theorem inboxWrite_calm (m : Nat) (val : Word) (s : State) : (inboxWrite m val s).Calm s := by
  simp [State.Calm, inboxWrite]

@[simp] theorem moverLenWrite_calm (who : Agent) (m : Nat) (r : Nat) (val : Word) (s : State) : (moverLenWrite who m r val s).Calm s := by
  simp [State.Calm, moverLenWrite]

/-! ### Crossbar -/

@[simp] theorem State.pieceWaits_calm (s : State) (master : Nat) (n : Nat) : (State.pieceWaits s master n).Calm s := by
  unfold State.pieceWaits
  try dsimp only
  (repeat' split) <;> simp_all [State.Calm]

@[simp] theorem State.busError_calm (s : State) (master : Nat) (addr : Nat) : (State.busError s master addr).Calm s := by
  simp [State.Calm, State.busError]

@[simp] theorem State.bankTimeout_calm (s : State) (target : Nat) (addr : Nat) : (State.bankTimeout s target addr).Calm s := by
  unfold State.bankTimeout
  try dsimp only
  (repeat' split) <;> simp_all [State.Calm]

@[simp] theorem crossbarTimeout_calm (master : Nat) (target : Nat) (addr : Nat) (write : Bool) (s : State) : (crossbarTimeout master target addr write s).Calm s := by
  simp [State.Calm, crossbarTimeout]

/-! ### Heat -/

@[simp] theorem State.haltTile_calm (s : State) (t : Nat) : (State.haltTile s t).Calm s := by
  unfold State.haltTile
  try dsimp only
  (repeat' split) <;> simp_all [State.Calm]

@[simp] theorem State.isolateTile_calm (s : State) (t : Nat) : (State.isolateTile s t).Calm s := by
  unfold State.isolateTile
  try dsimp only
  (repeat' split) <;> simp_all [State.Calm]

@[simp] theorem State.chkIdle_calm (s : State) (h : Nat) : (State.chkIdle s h).Calm s := by
  unfold State.chkIdle
  try dsimp only
  (repeat' split) <;> simp_all [State.Calm]

@[simp] theorem State.loseSpare_calm (s : State) (h : Nat) : (State.loseSpare s h).Calm s := by
  simp [State.Calm, State.loseSpare]

@[simp] theorem State.tileFault_calm (s : State) (t : Nat) (keeper : Bool) : (State.tileFault s t keeper).Calm s := by
  unfold State.tileFault
  try dsimp only
  (repeat' split) <;> simp_all [State.Calm]

@[simp] theorem State.withdrawSpare_calm (s : State) (h : Nat) : (State.withdrawSpare s h).Calm s := by
  unfold State.withdrawSpare
  try dsimp only
  (repeat' split) <;> simp_all [State.Calm]

@[simp] theorem checkerAttach_calm (h : Nat) (s : State) : (checkerAttach h s).Calm s := by
  unfold checkerAttach
  try dsimp only
  (repeat' split) <;> simp_all [State.Calm]

@[simp] theorem checkerCopyComplete_calm (h : Nat) (s : State) : (checkerCopyComplete h s).Calm s := by
  simp [State.Calm, checkerCopyComplete]

@[simp] theorem State.shadow_calm (s : State) (h : Nat) (p : Nat) : (State.shadow s h p).Calm s := by
  simp [State.Calm, State.shadow]

@[simp] theorem State.checkerLap_calm (s : State) (h : Nat) : (State.checkerLap s h).Calm s := by
  unfold State.checkerLap
  try dsimp only
  (repeat' split) <;> simp_all [State.Calm]

@[simp] theorem State.mismatch_calm (s : State) (h : Nat) : (State.mismatch s h).Calm s := by
  unfold State.mismatch
  try dsimp only
  (repeat' split) <;> simp_all [State.Calm]

@[simp] theorem State.shadowRun_calm (s : State) (h : Nat) : (State.shadowRun s h).Calm s := by
  unfold State.shadowRun
  try dsimp only
  (repeat' split) <;> simp_all [State.Calm]

@[simp] theorem checkerCompare_calm (h : Nat) (differs : Bool) (s : State) : (checkerCompare h differs s).Calm s := by
  simp [State.Calm, checkerCompare]

@[simp] theorem checkerWindowEnd_calm (h : Nat) (s : State) : (checkerWindowEnd h s).Calm s := by
  unfold checkerWindowEnd
  try dsimp only
  (repeat' split) <;> simp_all [State.Calm]

@[simp] theorem keeperTakeover_calm (h : Nat) (tile : Option Nat) (s : State) : (keeperTakeover h tile s).Calm s := by
  unfold keeperTakeover
  try dsimp only
  (repeat' split) <;> simp_all [State.Calm]

@[simp] theorem State.resumeSlot_calm (s : State) (slot : Nat) : (State.resumeSlot s slot).Calm s := by
  simp [State.Calm, State.resumeSlot]

@[simp] theorem spareTakeover_calm (t : Nat) (bad : List Nat) (allBad : Bool) (s : State) : (spareTakeover t bad allBad s).Calm s := by
  unfold spareTakeover
  try dsimp only
  (repeat' split) <;> simp_all [State.Calm]

@[simp] theorem tileRetestDone_calm (t : Nat) (pass : Bool) (s : State) : (tileRetestDone t pass s).Calm s := by
  simp [State.Calm, tileRetestDone]

/-! ### Health -/

@[simp] theorem State.hltRefuse_calm (s : State) : (State.hltRefuse s).Calm s := by
  simp [State.Calm, State.hltRefuse]

@[simp] theorem retireTile_calm (t : Nat) (s : State) : (retireTile t s).Calm s := by
  simp [State.Calm, retireTile]

@[simp] theorem marginLow_calm (monitor : Nat) (slack : Nat) (s : State) : (marginLow monitor slack s).Calm s := by
  simp [State.Calm, marginLow]

@[simp] theorem State.countBanks_calm (s : State) : (State.countBanks s).Calm s := by
  simp [State.Calm, State.countBanks]

@[simp] theorem State.mapFailed_calm (s : State) : (State.mapFailed s).Calm s := by
  unfold State.mapFailed
  have h (bad : List Nat) (l : List Nat) : (l.foldl (fun (s : State) o =>
    let b := s.rd (Reg.CEL_PBANK_logical o)
    let s := (s.wr (Reg.CEL_PBANK_owner o) 2).wr (Reg.CEL_PBANK_logical o) 127
    match s.spareBanks.filter (fun n => !bad.contains n) with
    | [] => s
    | n :: _ => if b < 64 then s.wr (Reg.CEL_PBANK_logical n) b else s) s).Calm s := by
    refine foldl_calm _ (fun t o => ?_) _ s
    dsimp only
    (repeat' split) <;> simp [State.Calm]
  dsimp only
  split
  · exact h _ _
  · exact (State.countBanks_calm _).trans (h _ _)

@[simp] theorem State.startSubst_calm (s : State) (o : Nat) : (State.startSubst s o).Calm s := by
  unfold State.startSubst
  try dsimp only
  (repeat' split) <;> simp_all [State.Calm]

@[simp] theorem substituteBank_calm (o : Nat) (cmd : Bool) (s : State) : (substituteBank o cmd s).Calm s := by
  simp [State.Calm, substituteBank]

@[simp] theorem bankSubstSwitch_calm (s : State) : (bankSubstSwitch s).Calm s := by
  unfold bankSubstSwitch
  try dsimp only
  (repeat' split) <;> simp_all [State.Calm]

@[simp] theorem bankTestDone_calm (n : Nat) (pass : Bool) (s : State) : (bankTestDone n pass s).Calm s := by
  simp [State.Calm, bankTestDone]

@[simp] theorem fieldRepair_calm (corrected : Nat) (spareLeft : Bool) (vddFuse : Nat) (s : State) : (fieldRepair corrected spareLeft vddFuse s).Calm s := by
  simp [State.Calm, fieldRepair]

@[simp] theorem scrubPassEnd_calm (s : State) : (scrubPassEnd s).Calm s := by
  simp [State.Calm, scrubPassEnd]

@[simp] theorem scrubLate_calm (s : State) : (scrubLate s).Calm s := by
  simp [State.Calm, scrubLate]

@[simp] theorem temperatureSample_calm (temps : List Int) (s : State) : (temperatureSample temps s).Calm s := by
  simp [State.Calm, temperatureSample]

@[simp] theorem State.showLife_calm (s : State) : (State.showLife s).Calm s := by
  simp [State.Calm, State.showLife]

@[simp] theorem lifeUsedUpdate_calm (t : Int) (s : State) : (lifeUsedUpdate t s).Calm s := by
  simp [State.Calm, lifeUsedUpdate]

@[simp] theorem State.newInterval_calm (s : State) : (State.newInterval s).Calm s := by
  simp [State.Calm, State.newInterval]

@[simp] theorem healthRecord_calm (s : State) : (healthRecord s).Calm s := by
  unfold healthRecord
  try dsimp only
  (repeat' split) <;> simp_all [State.Calm]

/-! ### Strips -/

@[simp] theorem State.rampStepObj_calm (s : State) (o : Nat) : (State.rampStepObj s o).Calm s := by
  unfold State.rampStepObj
  try dsimp only
  (repeat' split) <;> simp_all [State.Calm]

@[simp] theorem State.putStrip_calm (s : State) (o : Nat) (st : Strip) : (State.putStrip s o st).Calm s := by
  simp [State.Calm, State.putStrip]

@[simp] theorem State.putOut_calm (s : State) (code : Nat) (vs : List A48) : (State.putOut s code vs).Calm s := by
  simp [State.Calm, State.putOut]

@[simp] theorem State.putSends_calm (s : State) (o : Nat) (t : Partials) : (State.putSends s o t).Calm s := by
  simp [State.Calm, State.putSends]

@[simp] theorem State.placedStrip_calm (s : State) (o : Nat) : (State.placedStrip s o).Calm s := by
  simp [State.Calm, State.placedStrip]

@[simp] theorem State.onStrip_calm (s : State) (o : Nat) (f : Strip → Strip) : (State.onStrip s o f).Calm s := by
  simp [State.Calm, State.onStrip]

/-! ### Racks -/

@[simp] theorem State.storeSpectrum_calm (s : State) (r : Nat) (bp : Nat) (n : Nat) (p : Nat) (z : List Cplx) : (State.storeSpectrum s r bp n p z).Calm s := by
  unfold State.storeSpectrum
  try dsimp only
  (repeat' split) <;> simp_all [State.Calm]

@[simp] theorem State.convStart_calm (s : State) (r : Nat) (b : Nat) (parts : Nat) (i : Nat) (x : Rack) : (State.convStart s r b parts i x).1.Calm s := by
  unfold State.convStart
  try dsimp only
  (repeat' split) <;> simp_all [State.Calm]

@[simp] theorem State.convRun_calm (s : State) (r : Nat) (x : Rack) (vs : List A48) : (State.convRun s r x vs).1.Calm s := by
  unfold State.convRun
  try dsimp only
  (repeat' split) <;> simp_all [State.Calm]

@[simp] theorem State.tapLap_calm (s : State) (r : Nat) (t : Nat) : (State.tapLap s r t).2.Calm s := by
  unfold State.tapLap
  try dsimp only
  (repeat' split) <;> simp_all [State.Calm]

@[simp] theorem State.tapWindow_calm (s : State) (r : Nat) : (State.tapWindow s r).Calm s := by
  simp [State.Calm, State.tapWindow]

@[simp] theorem State.putRack_calm (s : State) (o : Nat) (x : Rack) (ys : List A48) (ls : List A48) : (State.putRack s o x ys ls).Calm s := by
  simp [State.Calm, State.putRack]

@[simp] theorem State.placedRack_calm (s : State) (o : Nat) : (State.placedRack s o).Calm s := by
  unfold State.placedRack
  try dsimp only
  (repeat' split) <;> simp_all [State.Calm]

@[simp] theorem State.runSlot_calm (s : State) (slot : Nat) : (State.runSlot s slot).Calm s := by
  simp [State.Calm, State.runSlot]

@[simp] theorem placedProcessing_calm (t : Nat) (s : State) : (placedProcessing t s).Calm s := by
  unfold placedProcessing
  try dsimp only
  (repeat' split) <;> simp_all [State.Calm]

/-! ### Window -/

@[simp] theorem State.captureLap_calm (s : State) (lap : Nat) : (State.captureLap s lap).2.Calm s := by
  simp [State.Calm, State.captureLap]

@[simp] theorem State.pushHist_calm (s : State) (new : Tbl (List A48)) : (State.pushHist s new).Calm s := by
  simp [State.Calm, State.pushHist]

@[simp] theorem State.pushBits_calm (s : State) (new : Tbl (List Nat)) : (State.pushBits s new).Calm s := by
  simp [State.Calm, State.pushBits]

@[simp] theorem State.inputLap_calm (s : State) (i : Nat) : (State.inputLap s i).2.Calm s := by
  simp [State.Calm, State.inputLap]

@[simp] theorem State.spineSum_calm (s : State) (k : Nat) : (State.spineSum s k).2.Calm s := by
  simp [State.Calm, State.spineSum]

@[simp] theorem State.formPartials_calm (s : State) : (State.formPartials s).Calm s := by
  simp [State.Calm, State.formPartials]

@[simp] theorem State.intoInsert_calm (s : State) (k : Nat) (vs : List A48) : (State.intoInsert s k vs).Calm s := by
  simp [State.Calm, State.intoInsert]

@[simp] theorem State.intoBank_calm (s : State) (o : Nat) (vs : List A48) : (State.intoBank s o vs).Calm s := by
  simp [State.Calm, State.intoBank]

@[simp] theorem State.enterStrip_calm (s : State) (o : Nat) (vs : List A48) : (State.enterStrip s o vs).Calm s := by
  simp [State.Calm, State.enterStrip]

@[simp] theorem State.enterTail_calm (s : State) (o : Nat) : (State.enterTail s o).Calm s := by
  simp [State.Calm, State.enterTail]

@[simp] theorem State.enterMatrix_calm (s : State) (o : Nat) : (State.enterMatrix s o).Calm s := by
  simp [State.Calm, State.enterMatrix]

@[simp] theorem State.enterRack_calm (s : State) (o : Nat) : (State.enterRack s o).Calm s := by
  simp [State.Calm, State.enterRack]

@[simp] theorem State.windowInputs_calm (s : State) : (State.windowInputs s).Calm s := by
  simp [State.Calm, State.windowInputs]

@[simp] theorem State.windowBuses_calm (s : State) : (State.windowBuses s).Calm s := by
  unfold State.windowBuses
  try dsimp only
  (repeat' split) <;> simp_all [State.Calm]

@[simp] theorem State.windowMatrix_calm (s : State) : (State.windowMatrix s).Calm s := by
  simp [State.Calm, State.windowMatrix]

@[simp] theorem State.windowRacks_calm (s : State) : (State.windowRacks s).Calm s := by
  simp [State.Calm, State.windowRacks]

@[simp] theorem State.matrixOuts_calm (s : State) : (State.matrixOuts s).2.Calm s := by
  simp [State.Calm, State.matrixOuts]

@[simp] theorem State.sinkLaps_calm (s : State) (mat : Tbl (List A48)) : (State.sinkLaps s mat).2.Calm s := by
  simp [State.Calm, State.sinkLaps]

@[simp] theorem State.deliverCasc_calm (s : State) (val : Nat → List A48) : (State.deliverCasc s val).Calm s := by
  simp [State.Calm, State.deliverCasc]

@[simp] theorem State.deliverRec_calm (s : State) (sinks : Tbl (List A48)) : (State.deliverRec s sinks).Calm s := by
  simp [State.Calm, State.deliverRec]

@[simp] theorem State.deliverFlags_calm (s : State) : (State.deliverFlags s).Calm s := by
  simp [State.Calm, State.deliverFlags]

@[simp] theorem State.transport_calm (s : State) : (State.transport s).Calm s := by
  simp [State.Calm, State.transport]

@[simp] theorem exchangeWindow_calm (ecc : List (Nat × Nat × CellEcc)) (s : State) : (exchangeWindow ecc s).Calm s := by
  simp [State.Calm, exchangeWindow]

/-! ### Laps -/

@[simp] theorem State.dropLost_calm (s : State) : (State.dropLost s).Calm s := by
  simp [State.Calm, State.dropLost]

@[simp] theorem State.tagPartials_calm (s : State) : (State.tagPartials s).Calm s := by
  simp [State.Calm, State.tagPartials]

@[simp] theorem State.swapStates_calm (s : State) : (State.swapStates s).Calm s := by
  simp [State.Calm, State.swapStates]

@[simp] theorem State.endLap_calm (s : State) : (State.endLap s).Calm s := by
  simp [State.Calm, State.endLap]

@[simp] theorem State.heatLap_calm (s : State) (h : Nat) : (State.heatLap s h).Calm s := by
  simp [State.Calm, State.heatLap]

@[simp] theorem State.playLapCheck_calm (s : State) (r : Nat) : (State.playLapCheck s r).Calm s := by
  simp [State.Calm, State.playLapCheck]

@[simp] theorem State.writeFrame_calm (s : State) (r : Nat) (j : Nat) (zero : Bool) : (State.writeFrame s r j zero).Calm s := by
  unfold State.writeFrame
  try dsimp only
  (repeat' split) <;> simp_all [State.Calm]

@[simp] theorem State.recLap_calm (s : State) (r : Nat) : (State.recLap s r).Calm s := by
  simp [State.Calm, State.recLap]

@[simp] theorem State.records_calm (s : State) : (State.records s).Calm s := by
  simp [State.Calm, State.records]

@[simp] theorem State.delayCompareAll_calm (s : State) : (State.delayCompareAll s).Calm s := by
  simp [State.Calm, State.delayCompareAll]

@[simp] theorem State.abLap_calm (s : State) : (State.abLap s).Calm s := by
  simp [State.Calm, State.abLap]

@[simp] theorem State.dropPartials_calm (s : State) : (State.dropPartials s).Calm s := by
  simp [State.Calm, State.dropPartials]

/-! ### Meter -/

@[simp] theorem State.mirrorLevels_calm (s : State) (r : List Byte) : (State.mirrorLevels s r).Calm s := by
  simp [State.Calm, State.mirrorLevels]

@[simp] theorem State.sealPin_calm (s : State) : (State.sealPin s).Calm s := by
  simp [State.Calm, State.sealPin]

@[simp] theorem State.busyPin_calm (s : State) : (State.busyPin s).Calm s := by
  simp [State.Calm, State.busyPin]

@[simp] theorem State.mirrorState_held (s : State) : (State.mirrorState s).Held s := by
  simp [State.Held, State.mirrorState, State.meterMap, State.meterWrite, MeterSt.start, MeterSt.newPeriod]

@[simp] theorem State.mirrorLevels_held (s : State) (r : List Byte) : (State.mirrorLevels s r).Held s := by
  simp [State.Held, State.mirrorLevels, State.meterMap, State.meterWrite, MeterSt.start, MeterSt.newPeriod]

@[simp] theorem State.mirrorRecord_held (s : State) (kind : Nat) : (State.mirrorRecord s kind).Held s := by
  unfold State.mirrorRecord
  try dsimp only
  (repeat' split) <;> simp_all [State.Held, State.meterMap, State.meterWrite, MeterSt.start, MeterSt.newPeriod]

@[simp] theorem State.mirrorResync_held (s : State) : (State.mirrorResync s).Held s := by
  unfold State.mirrorResync
  try dsimp only
  (repeat' split) <;> simp_all [State.Held, State.meterMap, State.meterWrite, MeterSt.start, MeterSt.newPeriod]

@[simp] theorem State.record_held (s : State) (kind : Nat) (payload : List Byte) : (s.record kind payload).Held s := by
  have g (t : State) (k : Nat) (p : List Byte) : ((t.meterMap (fun m => m.append k p)).mirrorRecord k).Held t := by
    simp [State.Held, State.meterMap, MeterSt.append]
  unfold State.record
  dsimp only
  split
  · refine (g _ _ _).trans (State.Held.trans ?_ (g s kind payload))
    simp [State.Held]
  · exact g s kind payload

@[simp] theorem State.meterStart_held (s : State) : (State.meterStart s).Held s := by
  unfold State.meterStart
  have h (l : List Byte) : ((s.meterMap (fun m => { m.start with cold := false })).record 3 l).Held s :=
    (State.record_held _ _ _).trans (by simp [State.Held, State.meterMap, MeterSt.start])
  dsimp only at h ⊢
  generalize (if s.meter.cold = true then (0 : Byte) else 1) = k
  split
  · exact (State.mirrorResync_held _).trans (h _)
  · exact h _

@[simp] theorem slmPowerOn_held (s : State) : (slmPowerOn s).Held s := by
  unfold slmPowerOn
  dsimp only
  (repeat' split) <;> first
    | exact .refl s
    | exact (State.meterStart_held _).trans ⟨rfl, rfl, rfl, rfl⟩
    | exact ⟨rfl, rfl, rfl, rfl⟩

@[simp] theorem slmReset_held (s : State) : (slmReset s).Held s := by
  unfold slmReset
  try dsimp only
  (repeat' split) <;> simp_all [State.Held, State.meterMap, State.meterWrite, MeterSt.start, MeterSt.newPeriod]

@[simp] theorem slmResetRelease_held (s : State) : (slmResetRelease s).Held s := by
  unfold slmResetRelease
  dsimp only
  (repeat' split) <;> first
    | exact (State.meterStart_held _).trans ⟨rfl, rfl, rfl, rfl⟩
    | exact ⟨rfl, rfl, rfl, rfl⟩

@[simp] theorem slmPowerRemove_held (s : State) : (slmPowerRemove s).Held s := by
  unfold slmPowerRemove
  try dsimp only
  (repeat' split) <;> simp_all [State.Held, State.meterMap, State.meterWrite, MeterSt.start, MeterSt.newPeriod]

@[simp] theorem State.sealPin_held (s : State) : (State.sealPin s).Held s := by
  simp [State.Held, State.sealPin, State.meterMap, State.meterWrite, MeterSt.start, MeterSt.newPeriod]

@[simp] theorem meterSample_held (w0 : Word) (w1 : Word) (s : State) : (meterSample w0 w1 s).Held s := by
  unfold meterSample
  try dsimp only
  (repeat' split) <;> simp_all [State.Held, State.meterMap, State.meterWrite, MeterSt.start, MeterSt.newPeriod]

@[simp] theorem meterPeriodEnd_held (s : State) : (meterPeriodEnd s).Held s := by
  unfold meterPeriodEnd
  try dsimp only
  (repeat' split) <;> simp_all [State.Held, State.meterMap, State.meterWrite, MeterSt.start, MeterSt.newPeriod]

@[simp] theorem State.busyPin_held (s : State) : (State.busyPin s).Held s := by
  simp [State.Held, State.busyPin, State.meterMap, State.meterWrite, MeterSt.start, MeterSt.newPeriod]

@[simp] theorem State.meterOut_held (s : State) (bs : List Byte) (coll : Bool) : (State.meterOut s bs coll).Held s := by
  unfold State.meterOut
  try dsimp only
  (repeat' split) <;> simp_all [State.Held, State.meterMap, State.meterWrite, MeterSt.start, MeterSt.newPeriod]

@[simp] theorem readStatus_held (n : Nat) (s : State) : (readStatus n s).Held s := by
  simp [State.Held, readStatus, State.meterMap, State.meterWrite, MeterSt.start, MeterSt.newPeriod]

@[simp] theorem readLog_held (off : Nat) (n : Nat) (coll : Option Nat) (s : State) : (readLog off n coll s).Held s := by
  unfold readLog
  try dsimp only
  (repeat' split) <;> simp_all [State.Held, State.meterMap, State.meterWrite, MeterSt.start, MeterSt.newPeriod]

@[simp] theorem readKey_held (n : Nat) (s : State) : (readKey n s).Held s := by
  simp [State.Held, readKey, State.meterMap, State.meterWrite, MeterSt.start, MeterSt.newPeriod]

@[simp] theorem readCfg_held (n : Nat) (s : State) : (readCfg n s).Held s := by
  simp [State.Held, readCfg, State.meterMap, State.meterWrite, MeterSt.start, MeterSt.newPeriod]

@[simp] theorem State.meterResult_held (s : State) (r : Nat) : (State.meterResult s r).Held s := by
  simp [State.Held, State.meterResult, State.meterMap, State.meterWrite, MeterSt.start, MeterSt.newPeriod]

@[simp] theorem setTime_held (sec : Word) (s : State) : (setTime sec s).Held s := by
  unfold setTime State.meterWrite
  (repeat' split) <;> simp [State.Held]

@[simp] theorem stageCfg_held (data : List Byte) (s : State) : (stageCfg data s).Held s := by
  unfold stageCfg State.meterWrite
  (repeat' split) <;> simp [State.Held, State.meterMap]

@[simp] theorem fuseBurnDone_held (s : State) : (fuseBurnDone s).Held s := by
  simp [State.Held, fuseBurnDone, State.meterMap, State.meterWrite, MeterSt.start, MeterSt.newPeriod]

/-! ### Ptp -/

@[simp] theorem State.setPtp_calm (s : State) (n : Nat) (x : Ptp) : (State.setPtp s n x).Calm s := by
  simp [State.Calm, State.setPtp]

@[simp] theorem State.setPtpState_calm (s : State) (n : Nat) (v : Nat) : (State.setPtpState s n v).Calm s := by
  simp [State.Calm, State.setPtpState]

@[simp] theorem State.ptpDrop_calm (s : State) (n : Nat) : (State.ptpDrop s n).Calm s := by
  simp [State.Calm, State.ptpDrop]

@[simp] theorem State.showLat_calm (s : State) (p : Nat) : (State.showLat s p).Calm s := by
  simp [State.Calm, State.showLat]

@[simp] theorem State.sendPtp_calm (s : State) (n : Nat) (peer : Bool) (event : Bool) (data : List Byte) (tag : EgTag) : (State.sendPtp s n peer event data tag).Calm s := by
  simp [State.Calm, State.sendPtp]

@[simp] theorem State.showXcmp_calm (s : State) : (State.showXcmp s).Calm s := by
  simp [State.Calm, State.showXcmp]

@[simp] theorem State.timeStep_calm (s : State) (n : Nat) (d : Int) : (State.timeStep s n d).Calm s := by
  simp [State.Calm, State.timeStep]

@[simp] theorem State.judgeOffset_calm (s : State) (n : Nat) : (State.judgeOffset s n).Calm s := by
  unfold State.judgeOffset
  try dsimp only
  (repeat' split) <;> simp_all [State.Calm]

@[simp] theorem State.newOffset_calm (s : State) (n : Nat) : (State.newOffset s n).Calm s := by
  simp [State.Calm, State.newOffset]

@[simp] theorem State.syncDone_calm (s : State) (n : Nat) (t1 : Int) (t2 : Int) (cs : Int) : (State.syncDone s n t1 t2 cs).Calm s := by
  simp [State.Calm, State.syncDone]

@[simp] theorem State.delayStep_calm (s : State) (n : Nat) (d : Int) : (State.delayStep s n d).Calm s := by
  simp [State.Calm, State.delayStep]

@[simp] theorem State.newDelay_calm (s : State) (n : Nat) (raw : Int) : (State.newDelay s n raw).Calm s := by
  simp [State.Calm, State.newDelay]

@[simp] theorem State.setGm_calm (s : State) (n : Nat) (id : Nat) : (State.setGm s n id).Calm s := by
  simp [State.Calm, State.setGm]

@[simp] theorem State.dropMaster_calm (s : State) (n : Nat) (st : Nat) : (State.dropMaster s n st).Calm s := by
  simp [State.Calm, State.dropMaster]

@[simp] theorem State.follow_calm (s : State) (n : Nat) (f : Foreign) : (State.follow s n f).Calm s := by
  simp [State.Calm, State.follow]

@[simp] theorem State.becomeMaster_calm (s : State) (n : Nat) : (State.becomeMaster s n).Calm s := by
  simp [State.Calm, State.becomeMaster]

@[simp] theorem State.bmca_calm (s : State) (n : Nat) : (State.bmca s n).Calm s := by
  unfold State.bmca
  try dsimp only
  (repeat' split) <;> simp_all [State.Calm]

@[simp] theorem State.showForeign_calm (s : State) (n : Nat) : (State.showForeign s n).Calm s := by
  simp [State.Calm, State.showForeign]

@[simp] theorem announceTimeout_calm (n : Nat) (announces : Bool) (s : State) : (announceTimeout n announces s).Calm s := by
  simp [State.Calm, announceTimeout]

@[simp] theorem State.ptpRole_calm (s : State) (n : Nat) : (State.ptpRole s n).Calm s := by
  simp [State.Calm, State.ptpRole]

@[simp] theorem State.ptpSync_calm (s : State) (n : Nat) (t : Int) (l : List Byte) : (State.ptpSync s n t l).Calm s := by
  simp [State.Calm, State.ptpSync]

@[simp] theorem State.ptpFollowUp_calm (s : State) (n : Nat) (l : List Byte) : (State.ptpFollowUp s n l).Calm s := by
  unfold State.ptpFollowUp
  try dsimp only
  (repeat' split) <;> simp_all [State.Calm]

@[simp] theorem State.ptpDelayResp_calm (s : State) (n : Nat) (l : List Byte) : (State.ptpDelayResp s n l).Calm s := by
  unfold State.ptpDelayResp
  try dsimp only
  (repeat' split) <;> simp_all [State.Calm]

@[simp] theorem State.limited_calm (s : State) (n : Nat) (t : Int) (l : List Byte) : (State.limited s n t l).2.Calm s := by
  unfold State.limited
  try dsimp only
  (repeat' split) <;> simp_all [State.Calm]

@[simp] theorem State.ptpDelayReq_calm (s : State) (n : Nat) (t : Int) (l : List Byte) : (State.ptpDelayReq s n t l).Calm s := by
  simp [State.Calm, State.ptpDelayReq]

@[simp] theorem State.ptpPdelayReq_calm (s : State) (n : Nat) (t : Int) (l : List Byte) : (State.ptpPdelayReq s n t l).Calm s := by
  simp [State.Calm, State.ptpPdelayReq]

@[simp] theorem State.ptpPdelayResp_calm (s : State) (n : Nat) (t : Int) (l : List Byte) : (State.ptpPdelayResp s n t l).Calm s := by
  unfold State.ptpPdelayResp
  try dsimp only
  (repeat' split) <;> simp_all [State.Calm]

@[simp] theorem State.ptpPdelayFollow_calm (s : State) (n : Nat) (l : List Byte) : (State.ptpPdelayFollow s n l).Calm s := by
  unfold State.ptpPdelayFollow
  try dsimp only
  (repeat' split) <;> simp_all [State.Calm]

@[simp] theorem State.ptpAnnounce_calm (s : State) (n : Nat) (l : List Byte) : (State.ptpAnnounce s n l).Calm s := by
  simp [State.Calm, State.ptpAnnounce]

@[simp] theorem State.countEvent_calm (s : State) (n : Nat) (t : Int) : (State.countEvent s n t).2.Calm s := by
  unfold State.countEvent
  try dsimp only
  (repeat' split) <;> simp_all [State.Calm]

@[simp] theorem State.ptpReceive_calm (s : State) (n : Nat) (t : Int) (l : List Byte) : (State.ptpReceive s n t l).Calm s := by
  unfold State.ptpReceive
  try dsimp only
  (repeat' split) <;> simp_all [State.Calm]

@[simp] theorem ptpSyncTransmit_calm (n : Nat) (s : State) : (ptpSyncTransmit n s).Calm s := by
  simp [State.Calm, ptpSyncTransmit]

@[simp] theorem ptpAnnounceTransmit_calm (n : Nat) (s : State) : (ptpAnnounceTransmit n s).Calm s := by
  simp [State.Calm, ptpAnnounceTransmit]

@[simp] theorem ptpDelayReqTransmit_calm (n : Nat) (s : State) : (ptpDelayReqTransmit n s).Calm s := by
  simp [State.Calm, ptpDelayReqTransmit]

@[simp] theorem State.ptpSent_calm (s : State) (n : Nat) (tag : EgTag) (t : Int) : (State.ptpSent s n tag t).Calm s := by
  unfold State.ptpSent
  try dsimp only
  (repeat' split) <;> simp_all [State.Calm]

@[simp] theorem State.ptpStepped_calm (s : State) (d : Int) : (State.ptpStepped s d).Calm s := by
  simp [State.Calm, State.ptpStepped]

/-! ### Net -/

@[simp] theorem State.hostFrame_calm (s : State) (p : Nat) (t : Int) (l : List Byte) : (State.hostFrame s p t l).Calm s := by
  unfold State.hostFrame
  try dsimp only
  (repeat' split) <;> simp_all [State.Calm]

@[simp] theorem State.igmpAnswer_calm (s : State) (p : Nat) (l : List Byte) : (State.igmpAnswer s p l).Calm s := by
  simp [State.Calm, State.igmpAnswer]

@[simp] theorem igmpReport_calm (c : Nat) (s : State) : (igmpReport c s).Calm s := by
  simp [State.Calm, igmpReport]

@[simp] theorem State.mediaPacket_calm (s : State) (c : Nat) (p : Nat) (t : Int) (l : List Byte) : (State.mediaPacket s c p t l).Calm s := by
  simp [State.Calm, State.mediaPacket]

@[simp] theorem State.classify_calm (s : State) (p : Nat) (t : Int) (l : List Byte) : (State.classify s p t l).Calm s := by
  unfold State.classify
  try dsimp only
  (repeat' split) <;> simp_all [State.Calm]

@[simp] theorem networkFrameReceive_calm (p : Nat) (cyc : Nat) (sub : Nat) (align : Nat) (frame : List Byte) (s : State) : (networkFrameReceive p cyc sub align frame s).Calm s := by
  simp [State.Calm, networkFrameReceive]

@[simp] theorem State.queuePacket_calm (s : State) (c : Nat) (p : Nat) (rtp : List Byte) (due : Int) : (State.queuePacket s c p rtp due).Calm s := by
  simp [State.Calm, State.queuePacket]

@[simp] theorem packetTransmit_calm (n : Nat) (s : State) : (packetTransmit n s).Calm s := by
  simp [State.Calm, packetTransmit]

@[simp] theorem frameTx_calm (r : Nat) (data : List Byte) (s : State) : (frameTx r data s).Calm s := by
  unfold frameTx
  try dsimp only
  (repeat' split) <;> simp_all [State.Calm]

@[simp] theorem State.frameSent_calm (s : State) (p : Nat) (f : EgFrame) (cyc : Nat) (t : Nat) : (State.frameSent s p f cyc t).Calm s := by
  unfold State.frameSent
  try dsimp only
  (repeat' split) <;> simp_all [State.Calm]

@[simp] theorem egressFrame_calm (p : Nat) (cyc : Nat) (sub : Nat) (s : State) : (egressFrame p cyc sub s).Calm s := by
  unfold egressFrame
  try dsimp only
  (repeat' split) <;> simp_all [State.Calm]

@[simp] theorem linkChange_calm (p : Nat) (up : Bool) (s : State) : (linkChange p up s).Calm s := by
  simp [State.Calm, linkChange]

@[simp] theorem sfpSignalChange_calm (p : Nat) (los : Bool) (abs : Bool) (s : State) : (sfpSignalChange p los abs s).Calm s := by
  simp [State.Calm, sfpSignalChange]

@[simp] theorem i2cGo_calm (p : Nat) (val : Word) (s : State) : (i2cGo p val s).Calm s := by
  simp [State.Calm, i2cGo]

@[simp] theorem i2cDone_calm (p : Nat) (rdata : Byte) (nack : Bool) (s : State) : (i2cDone p rdata nack s).Calm s := by
  simp [State.Calm, i2cDone]

@[simp] theorem stmCsData_calm (write : Bool) (val : Byte) (s : State) : (stmCsData write val s).Calm s := by
  simp [State.Calm, stmCsData]

@[simp] theorem csDataAccess_calm (stm : Bool) (write : Bool) (val : Byte) (s : State) : (csDataAccess stm write val s).Calm s := by
  simp [State.Calm, csDataAccess]

/-! ### Pads -/

@[simp] theorem State.portPins_calm (s : State) : (State.portPins s).Calm s := by
  simp [State.Calm, State.portPins]

@[simp] theorem gpioEdge_calm (n : Nat) (level : Bool) (s : State) : (gpioEdge n level s).Calm s := by
  simp [State.Calm, gpioEdge]

/-! ### Time -/

@[simp] theorem timeLatchRead_calm (cyc : Nat) (s : State) : (timeLatchRead cyc s).Calm s := by
  simp [State.Calm, timeLatchRead]

@[simp] theorem State.setClock_calm (s : State) (t : Nat) : (State.setClock s t).Calm s := by
  simp [State.Calm, State.setClock]

@[simp] theorem timeSet_calm (s : State) : (timeSet s).Calm s := by
  simp [State.Calm, timeSet]

@[simp] theorem clockAutoset_calm (n : Nat) (cyc : Nat) (s : State) : (clockAutoset n cyc s).Calm s := by
  simp [State.Calm, clockAutoset]

@[simp] theorem State.clockFromMarker_calm (s : State) (p : Nat) (f : CascFrame) : (State.clockFromMarker s p f).Calm s := by
  simp [State.Calm, State.clockFromMarker]

@[simp] theorem cascFrameReceive_calm (p : Nat) (f : CascFrame) (crcBad : List Nat) (s : State) :
    (cascFrameReceive p f crcBad s).Calm s :=
  s.takeFrame_calm p f crcBad _ (fun _ => by simp [State.Calm])

@[simp] theorem State.setAnchor_calm (s : State) (k : Int) : (State.setAnchor s k).Calm s := by
  simp [State.Calm, State.setAnchor]

@[simp] theorem State.setTout_calm (s : State) (n : Nat) (x : Tout) : (State.setTout s n x).Calm s := by
  simp [State.Calm, State.setTout]

@[simp] theorem State.drive_calm (s : State) (n : Nat) (active : Bool) (t : Int) : (State.drive s n active t).Calm s := by
  simp [State.Calm, State.drive]

@[simp] theorem State.fireOut_calm (s : State) (n : Nat) (t : Int) : (State.fireOut s n t).Calm s := by
  unfold State.fireOut
  try dsimp only
  (repeat' split) <;> simp_all [State.Calm]

@[simp] theorem State.disarm_calm (s : State) (n : Nat) : (State.disarm s n).Calm s := by
  simp [State.Calm, State.disarm]

@[simp] theorem toutFire_calm (n : Nat) (cyc : Nat) (s : State) : (toutFire n cyc s).Calm s := by
  simp [State.Calm, toutFire]

@[simp] theorem State.overtaken_calm (s : State) (n : Nat) (now : Int) : (State.overtaken s n now).Calm s := by
  simp [State.Calm, State.overtaken]

@[simp] theorem toutArm_calm (n : Nat) (cyc : Nat) (val : Word) (s : State) : (toutArm n cyc val s).Calm s := by
  simp [State.Calm, toutArm]

@[simp] theorem State.showCapture_calm (s : State) (n : Nat) : (State.showCapture s n).Calm s := by
  simp [State.Calm, State.showCapture]

@[simp] theorem tcapEdge_calm (n : Nat) (cyc : Nat) (rising : Bool) (held : Bool) (s : State) : (tcapEdge n cyc rising held s).Calm s := by
  simp [State.Calm, tcapEdge]

@[simp] theorem tcapPop_calm (n : Nat) (s : State) : (tcapPop n s).Calm s := by
  unfold tcapPop
  try dsimp only
  (repeat' split) <;> simp_all [State.Calm]

@[simp] theorem State.fadeTx_calm (s : State) : (State.fadeTx s).Calm s := by
  simp [State.Calm, State.fadeTx]

@[simp] theorem State.beginEpoch_calm (s : State) (j : Int) (r : Int) (mine : Bool) : (State.beginEpoch s j r mine).Calm s := by
  simp [State.Calm, State.beginEpoch]

@[simp] theorem acceptEpoch_calm (n : Nat) (s : State) : (acceptEpoch n s).Calm s := by
  simp [State.Calm, acceptEpoch]

@[simp] theorem State.epochCtx_calm (s : State) (c : Nat) : (State.epochCtx s c).Calm s := by
  simp [State.Calm, State.epochCtx]

@[simp] theorem epochStep_calm (s : State) : (epochStep s).Calm s := by
  unfold epochStep
  try dsimp only
  (repeat' split) <;> simp_all [State.Calm]

/-! ### Rate -/

@[simp] theorem State.setChange_calm (s : State) (c : Option RateChange) : (State.setChange s c).Calm s := by
  simp [State.Calm, State.setChange]

@[simp] theorem State.putRate_calm (s : State) (fam : Nat) (mult : Nat) : (State.putRate s fam mult).Calm s := by
  simp [State.Calm, State.putRate]

@[simp] theorem State.holdClock_calm (s : State) (cyc : Nat) : (State.holdClock s cyc).Calm s := by
  simp [State.Calm, State.holdClock]

@[simp] theorem State.gateRoot_calm (s : State) (cyc : Nat) : (State.gateRoot s cyc).Calm s := by
  simp [State.Calm, State.gateRoot]

@[simp] theorem State.beginRate_calm (s : State) (fam : Nat) (mult : Nat) : (State.beginRate s fam mult).Calm s := by
  simp [State.Calm, State.beginRate]

@[simp] theorem State.rateAtOnce_calm (s : State) (fam : Nat) (mult : Nat) (cyc : Nat) : (State.rateAtOnce s fam mult cyc).Calm s := by
  simp [State.Calm, State.rateAtOnce]

@[simp] theorem rateApply_calm (cyc : Nat) (s : State) : (rateApply cyc s).Calm s := by
  simp [State.Calm, rateApply]

@[simp] theorem rateGate_calm (cyc : Nat) (s : State) : (rateGate cyc s).Calm s := by
  unfold rateGate
  try dsimp only
  (repeat' split) <;> simp_all [State.Calm]

@[simp] theorem State.anchorAt_calm (s : State) (k : Nat) : (State.anchorAt s k).Calm s := by
  simp [State.Calm, State.anchorAt]

@[simp] theorem State.coldTile_calm (s : State) (slot : Nat) : (State.coldTile s slot).Calm s := by
  unfold State.coldTile
  try dsimp only
  (repeat' split) <;> simp_all [State.Calm]

@[simp] theorem State.coldAll_calm (s : State) : (State.coldAll s).Calm s := by
  simp [State.Calm, State.coldAll]

@[simp] theorem State.restartCtx_calm (s : State) (c : Nat) : (State.restartCtx s c).Calm s := by
  simp [State.Calm, State.restartCtx]

@[simp] theorem State.restartAudio_calm (s : State) : (State.restartAudio s).Calm s := by
  simp [State.Calm, State.restartAudio]

@[simp] theorem rateRestart_calm (cyc : Nat) (s : State) : (rateRestart cyc s).Calm s := by
  unfold rateRestart
  try dsimp only
  (repeat' split) <;> simp_all [State.Calm]

@[simp] theorem programTimeout_calm (s : State) : (programTimeout s).Calm s := by
  unfold programTimeout
  try dsimp only
  (repeat' split) <;> simp_all [State.Calm]

@[simp] theorem State.cutPort_calm (s : State) (p : Nat) : (State.cutPort s p).Calm s := by
  simp [State.Calm, State.cutPort]

@[simp] theorem State.rootGate_calm (s : State) (cyc : Nat) : (State.rootGate s cyc).Calm s := by
  simp [State.Calm, State.rootGate]

@[simp] theorem State.dropLock_calm (s : State) (b : Bool) : (State.dropLock s b).Calm s := by
  simp [State.Calm, State.dropLock]

@[simp] theorem State.takeSpare_calm (s : State) (failed : Bool) : (State.takeSpare s failed).Calm s := by
  simp [State.Calm, State.takeSpare]

@[simp] theorem synthUnlock_calm (b : Bool) (cyc : Nat) (s : State) : (synthUnlock b cyc s).Calm s := by
  simp [State.Calm, synthUnlock]

@[simp] theorem xoInLoss_calm (cyc : Nat) (s : State) : (xoInLoss cyc s).Calm s := by
  simp [State.Calm, xoInLoss]

@[simp] theorem xoInReturn_calm (s : State) : (xoInReturn s).Calm s := by
  simp [State.Calm, xoInReturn]

@[simp] theorem State.ringAct_calm (s : State) (c : RingCmd) : (State.ringAct s c).Calm s := by
  unfold State.ringAct
  try dsimp only
  (repeat' split) <;> simp_all [State.Calm]

@[simp] theorem ringCommandAction_calm (s : State) : (ringCommandAction s).Calm s := by
  simp [State.Calm, ringCommandAction]

/-! ### Power -/

@[simp] theorem State.linkTrain_calm (s : State) (speed : Nat) (width : Nat) : (State.linkTrain s speed width).Calm s := by
  simp [State.Calm, State.linkTrain]

@[simp] theorem perstNAssert_calm (s : State) : (perstNAssert s).Calm s := by
  simp [State.Calm, perstNAssert]

@[simp] theorem perstNRelease_calm (speed : Nat) (width : Nat) (s : State) : (perstNRelease speed width s).Calm s := by
  simp [State.Calm, perstNRelease]

@[simp] theorem State.refusePower_calm (s : State) (reason : Nat) : (State.refusePower s reason).Calm s := by
  simp [State.Calm, State.refusePower]

theorem State.reserveStore_calm (s u : State) (h : s.reserveStore = some u) : u.Calm s := by
  unfold State.reserveStore at h
  dsimp only at h
  split at h
  · cases h
  · rename_i g
    have := State.engineAlloc_calm _ _ _ _ _ _ g
    cases h
    simp_all [State.Calm]

@[simp] theorem State.mapHeat_calm (s : State) (failed : List Nat) (h : Nat) : (State.mapHeat s failed h).Calm s := by
  simp [State.Calm, State.mapHeat]

@[simp] theorem State.freshPages_calm (s : State) : (State.freshPages s).Calm s := by
  simp [State.Calm, State.freshPages]

@[simp] theorem State.placeAtStart_calm (s : State) : (State.placeAtStart s).Calm s := by
  simp [State.Calm, State.placeAtStart]

@[simp] theorem State.startAudio_calm (s : State) (failed : List Nat) : (State.startAudio s failed).Calm s := by
  simp [State.Calm, State.startAudio]

@[simp] theorem State.setParity_calm (s : State) : (State.setParity s).Calm s := by
  simp [State.Calm, State.setParity]

@[simp] theorem State.setTrans_calm (s : State) (t : Option Trans) (st : Nat) : (State.setTrans s t st).Calm s := by
  simp [State.Calm, State.setTrans]

@[simp] theorem State.beginQuiet_calm (s : State) : (State.beginQuiet s).Calm s := by
  simp [State.Calm, State.beginQuiet]

@[simp] theorem enterQuiet_calm (s : State) : (enterQuiet s).Calm s := by
  simp [State.Calm, enterQuiet]

@[simp] theorem State.gateTile_calm (s : State) (t : Nat) : (State.gateTile s t).Calm s := by
  simp [State.Calm, State.gateTile]

@[simp] theorem State.gateTiles_calm (s : State) : (State.gateTiles s).Calm s := by
  simp [State.Calm, State.gateTiles]

@[simp] theorem State.powerDown_calm (s : State) : (State.powerDown s).Calm s := by
  simp [State.Calm, State.powerDown]

@[simp] theorem quietGate_calm (s : State) : (quietGate s).Calm s := by
  unfold quietGate
  try dsimp only
  (repeat' split) <;> simp_all [State.Calm]

@[simp] theorem enterKeep_calm (s : State) : (enterKeep s).Calm s := by
  simp [State.Calm, enterKeep]

@[simp] theorem returnToRun_calm (s : State) : (returnToRun s).Calm s := by
  simp [State.Calm, returnToRun]

@[simp] theorem State.ungateTile_calm (s : State) (t : Nat) : (State.ungateTile s t).Calm s := by
  unfold State.ungateTile
  try dsimp only
  (repeat' split) <;> simp_all [State.Calm]

@[simp] theorem tileUngate_calm (s : State) : (tileUngate s).Calm s := by
  unfold tileUngate
  try dsimp only
  (repeat' split) <;> simp_all [State.Calm]

@[simp] theorem State.openTx_calm (s : State) (c : Nat) : (State.openTx s c).Calm s := by
  simp [State.Calm, State.openTx]

@[simp] theorem runResume_calm (s : State) : (runResume s).Calm s := by
  unfold runResume
  try dsimp only
  (repeat' split) <;> simp_all [State.Calm]

@[simp] theorem powerCmdReserved_calm (s : State) : (powerCmdReserved s).Calm s := by
  simp [State.Calm, powerCmdReserved]

@[simp] theorem porNRelease_held (src : BootSrc) (speed width : Nat) (s : State) : (porNRelease src speed width s).Held s := by
  unfold porNRelease
  split
  · exact .refl s
  · dsimp only
    refine ((State.boot_calm _ _).trans (State.wr_calm _ _ _)).held.trans ((State.mirrorResync_held _).trans ?_)
    refine State.Calm.held ((State.mapFailed_calm _).trans ?_)
    split <;> simp [State.Calm]

/-! ### Registers -/

@[simp] theorem pairLoRead_calm (off : Nat) (s : State) : (pairLoRead off s).Calm s := by
  simp [State.Calm, pairLoRead]

@[simp] theorem unsupportedAccess_calm (off : Nat) (size : Nat) (_write : Bool) (s : State) : (unsupportedAccess off size _write s).Calm s := by
  simp [State.Calm, unsupportedAccess]

@[simp] theorem State.writeCtx_calm (s : State) (off : Nat) (val : Word) : (State.writeCtx s off val).Calm s := by
  unfold State.writeCtx
  try dsimp only
  (repeat' split) <;> simp_all [State.Calm]

@[simp] theorem State.writeMcast_calm (s : State) (p : Nat) (hi : Bool) (val : Word) : (State.writeMcast s p hi val).Calm s := by
  simp [State.Calm, State.writeMcast]

@[simp] theorem State.driveGpio_calm (s : State) (before : Nat) : (State.driveGpio s before).Calm s := by
  simp [State.Calm, State.driveGpio]

@[simp] theorem State.portMode_calm (s : State) (p : Nat) : (State.portMode s p).Calm s := by
  simp [State.Calm, State.portMode]

@[simp] theorem State.wrote_calm (s : State) (old : State) (off : Nat) : (State.wrote s old off).Calm s := by
  simp [State.Calm, State.wrote]

@[simp] theorem State.writePtpCfg_calm (s : State) (off : Nat) (val : Word) : (State.writePtpCfg s off val).Calm s := by
  simp [State.Calm, State.writePtpCfg]

@[simp] theorem State.writeValue_calm (s : State) (who : Agent) (off : Nat) (val : Word) : (State.writeValue s who off val).Calm s := by
  unfold State.writeValue
  try dsimp only
  (repeat' split) <;> simp_all [State.Calm]

theorem State.turnedAway_calm (s : State) (who : Agent) (off : Nat) (u : State) (h : State.turnedAway s who off = some u) : u.Calm s := by
  unfold State.turnedAway at h
  (try dsimp only at h)
  (repeat' split at h) <;> first
    | (cases h; done)
    | (cases h; simp [State.Calm]; done)
    | (simp_all [State.Calm]; done)

@[simp] theorem State.answerWrite_calm (s : State) (who : Agent) : (State.answerWrite s who).Calm s := by
  simp [State.Calm, State.answerWrite]

@[simp] theorem programMemoryWrite_calm (who : Agent) (off : Nat) (val : Word) (s : State) :
    (programMemoryWrite who off val s).Calm s := by
  unfold programMemoryWrite
  split
  · split <;> simp [State.Calm]
  · split
    · rename_i h; exact State.turnedAway_calm _ _ _ _ h
    · dsimp only; split <;> simp [State.Calm]

@[simp] theorem State.enableWrite_calm (s : State) (who : Agent) (e : EvReg) (off : Nat) (val : Word) : (State.enableWrite s who e off val).Calm s := by
  simp [State.Calm, State.enableWrite]

@[simp] theorem registerWrite_calm (who : Agent) (off : Nat) (val : Word) (s : State) : (registerWrite who off val s).Calm s := by
  unfold registerWrite
  split
  · rename_i h; exact State.turnedAway_calm _ _ _ _ h
  · (repeat' split) <;> simp [State.Calm]

@[simp] theorem pairHiWrite_calm (who : Agent) (off : Nat) (val : Word) (s : State) : (pairHiWrite who off val s).Calm s := by
  unfold pairHiWrite
  split
  · exact .refl s
  · split
    · rename_i h; exact State.turnedAway_calm _ _ _ _ h
    · dsimp only; (repeat' split) <;> simp [State.Calm]

@[simp] theorem eventEnableWrite_calm (off : Nat) (val : Word) (s : State) : (eventEnableWrite off val s).Calm s := by
  unfold eventEnableWrite
  split
  · exact .refl s
  · split
    · rename_i h; exact State.turnedAway_calm _ _ _ _ h
    · simp [State.Calm]

@[simp] theorem State.msixPut_calm (s : State) (off : Nat) (v : Word) : (State.msixPut s off v).Calm s := by
  simp [State.Calm, State.msixPut]

@[simp] theorem msixTableAccess_calm (off : Nat) (size : Nat) (write : Bool) (val : BitVec 64) (s : State) : (msixTableAccess off size write val s).Calm s := by
  simp [State.Calm, msixTableAccess]

@[simp] theorem bar4Access_calm (off : Nat) (size : Nat) (write : Bool) (data : List Byte) (ecc : List (Nat × CellEcc)) (waits : Nat) (s : State) : (bar4Access off size write data ecc waits s).Calm s := by
  unfold bar4Access
  try dsimp only
  (repeat' split) <;> simp_all [State.Calm]

@[simp] theorem configRequest_calm (req : CfgReq) (s : State) : (configRequest req s).Calm s := by
  unfold configRequest
  try dsimp only
  (repeat' split) <;> simp_all [State.Calm]

/-! ### Pieces -/

@[simp] theorem State.xTilePut_calm (s : State) (addr : Nat) (b : Byte) (t : Nat) : (State.xTilePut s addr b t).Calm s := by
  simp [State.Calm, State.xTilePut]

@[simp] theorem State.xPut_calm (s : State) (addr : Nat) (b : Byte) : (State.xPut s addr b).Calm s := by
  unfold State.xPut
  try dsimp only
  (repeat' split) <;> simp_all [State.Calm]

@[simp] theorem State.portBytePut_calm (s : State) (addr : Nat) (b : Byte) : (State.portBytePut s addr b).Calm s := by
  simp [State.Calm, State.portBytePut]

@[simp] theorem State.afterRead_calm (s : State) (target : Nat) (addr : Nat) (n : Nat) : (State.afterRead s target addr n).Calm s := by
  unfold State.afterRead
  try dsimp only
  (repeat' split) <;> simp_all [State.Calm]

@[simp] theorem State.targetWrite_calm (s : State) (master : Nat) (target : Nat) (addr : Nat) (data : List Byte) : (State.targetWrite s master target addr data).Calm s := by
  unfold State.targetWrite
  try dsimp only
  (repeat' split) <;> simp_all [State.Calm]

@[simp] theorem State.pieceServed_calm (s : State) (master : Nat) (target : Nat) (addr : Nat) (write : Bool) (data : List Byte) (ecc : List (Nat × CellEcc)) (cut : Option Nat) : (State.pieceServed s master target addr write data ecc cut).Calm s := by
  simp [State.Calm, State.pieceServed]

@[simp] theorem State.pieceRefused_calm (s : State) (master : Nat) (target : Nat) (addr : Nat) (n : Nat) (write : Bool) (miss : Bool) : (State.pieceRefused s master target addr n write miss).Calm s := by
  unfold State.pieceRefused
  try dsimp only
  (repeat' split) <;> simp_all [State.Calm]

@[simp] theorem cellarPiece_calm (master : Nat) (target : Nat) (addr : Nat) (write : Bool) (data : List Byte) (waited : Bool) (ecc : List (Nat × CellEcc)) (cut : Option Nat) (s : State) : (cellarPiece master target addr write data waited ecc cut s).Calm s := by
  unfold cellarPiece
  try dsimp only
  (repeat' split) <;> simp_all [State.Calm]

/-! ### Services -/

@[simp] theorem State.rejectCall_calm (s : State) (r : Nat) (d : Desc) (result : Nat) : (State.rejectCall s r d result).Calm s := by
  simp [State.Calm, State.rejectCall, State.serve]

@[simp] theorem State.answerCall_calm (s : State) (r : Nat) (d : Desc) (result : Nat) (resp : List Byte) : (State.answerCall s r d result resp).Calm s := by
  simp [State.Calm, State.answerCall, State.serve]

@[simp] theorem svcCall_calm (r : Nat) (req : List Byte) (s : State) : (svcCall r req s).Calm s := by
  unfold svcCall
  try dsimp only
  (repeat' split) <;> simp_all [State.Calm, State.serve]

@[simp] theorem getIdent_calm (r : Nat) (s : State) : (getIdent r s).Calm s := by
  unfold getIdent
  refine State.serve_calm _ _ _ _ (fun d => ?_)
  dsimp only
  (repeat' split) <;> simp [State.Calm]

@[simp] theorem ptpStateCall_calm (r : Nat) (s : State) : (ptpStateCall r s).Calm s := by
  unfold ptpStateCall
  refine State.serve_calm _ _ _ _ (fun d => ?_)
  (repeat' split) <;> simp [State.Calm]

@[simp] theorem mcastList_calm (r : Nat) (s : State) : (mcastList r s).Calm s := by
  unfold mcastList
  refine State.serve_calm _ _ _ _ (fun d => ?_)
  dsimp only
  (repeat' split) <;> simp [State.Calm]

@[simp] theorem State.sfpTransfers_calm (s : State) (p : Nat) (dev : Nat) (data : Option (List Byte)) : (State.sfpTransfers s p dev data).Calm s := by
  simp [State.Calm, State.sfpTransfers, State.serve]

@[simp] theorem sfpRead_calm (r : Nat) (data : Option (List Byte)) (s : State) : (sfpRead r data s).Calm s := by
  unfold sfpRead
  refine State.serve_calm _ _ _ _ (fun d => ?_)
  dsimp only
  (repeat' split) <;> simp [State.Calm]

@[simp] theorem echo_calm (r : Nat) (s : State) : (echo r s).Calm s := by
  unfold echo
  refine State.serve_calm _ _ _ _ (fun d => ?_)
  (repeat' split) <;> simp [State.Calm]

/-! ### Tile -/

@[simp] theorem State.onTile_calm (s : State) (t : Nat) (f : Tile → Tile) : (State.onTile s t f).Calm s := by
  simp [State.Calm, State.onTile]

@[simp] theorem State.agFaultIf_calm (s : State) (c : Bool) : (State.agFaultIf s c).Calm s := by
  simp [State.Calm, State.agFaultIf]

@[simp] theorem clr_calm (t : Nat) (a : Nat) (s : State) : (clr t a s).Calm s := by
  simp [State.Calm, clr]

@[simp] theorem ld_calm (t : Nat) (a : Nat) (x : Src) (s : State) : (ld t a x s).Calm s := by
  simp [State.Calm, ld]

@[simp] theorem accAddSub_calm (neg : Bool) (t : Nat) (a : Nat) (x : Src) (s : State) : (accAddSub neg t a x s).Calm s := by
  simp [State.Calm, accAddSub]

@[simp] theorem maccList_calm (t : Nat) (l : List (Nat × Bool × Prod)) (s : State) : (maccList t l s).Calm s := by
  simp [State.Calm, maccList]

@[simp] theorem storeTo_calm (t : Nat) (a : Nat) (dst : Dst) (f : Acc → A48 × Acc) (s : State) : (storeTo t a dst f s).Calm s := by
  simp [State.Calm, storeTo]

@[simp] theorem regOp1_calm (t : Nat) (f : Fmt) (d : Nat) (x : Nat) (op : Fmt → Int → A48) (s : State) : (regOp1 t f d x op s).Calm s := by
  simp [State.Calm, regOp1]

@[simp] theorem regOp2_calm (t : Nat) (f : Fmt) (d : Nat) (x : Nat) (y : Nat) (op : Fmt → Int → Int → A48) (s : State) : (regOp2 t f d x y op s).Calm s := by
  simp [State.Calm, regOp2]

@[simp] theorem regCmp_calm (t : Nat) (f : Fmt) (x : Nat) (y : Nat) (op : Int → Int → Bool) (s : State) : (regCmp t f x y op s).Calm s := by
  simp [State.Calm, regCmp]

@[simp] theorem agReadEcc_calm (t : Nat) (g : Nat) (d : Nat) (ecc : Ecc) (obj : Option Nat) (s : State) : (agReadEcc t g d ecc obj s).Calm s := by
  unfold agReadEcc
  try dsimp only
  (repeat' split) <;> simp_all [State.Calm]

@[simp] theorem agAccess_calm (t : Nat) (g : Nat) (setup : Option AgSetup) (write : Bool) (d : Nat) (ecc : Ecc) (obj : Option Nat) (s : State) : (agAccess t g setup write d ecc obj s).Calm s := by
  unfold agAccess
  try dsimp only
  (repeat' split) <;> simp_all [State.Calm]

@[simp] theorem agLength_calm (t : Nat) (g : Nat) (n : Nat) (s : State) : (agLength t g n s).Calm s := by
  simp [State.Calm, agLength]

end Sys2Proof.Machine
end

