-- ==== Sys2Proof/Laws/Tbl.lean ====
section
/-! SUPPORT. Sparse tables: reads after writes, and the canonical form that every operation on a memory keeps. -/

namespace Sys2Proof.Machine

variable {α : Type}

/-! ### Reads after writes -/

@[simp] theorem Tbl.get_nil (d : α) (k : Nat) : Tbl.get d k [] = d := rfl

@[simp] theorem Tbl.get_insert_same (d v : α) (k : Nat) (t : Tbl α) : Tbl.get d k (Tbl.insert k v t) = v := by
  induction t with
  | nil => simp [Tbl.insert, Tbl.get]
  | cons e t ih =>
    simp only [Tbl.insert]
    split
    · simp [Tbl.get]
    · split
      · simp [Tbl.get]
      · rename_i h1 _; simp only [Tbl.get, ih, if_neg h1]

theorem Tbl.get_insert_ne (d v : α) {k j : Nat} (h : j ≠ k) (t : Tbl α) :
    Tbl.get d j (Tbl.insert k v t) = Tbl.get d j t := by
  induction t with
  | nil => simp [Tbl.insert, Tbl.get, h.symm]
  | cons e t ih =>
    simp only [Tbl.insert]
    split
    · subst_vars; simp [Tbl.get, h.symm]
    · split
      · simp only [Tbl.get, if_neg h.symm]
      · simp only [Tbl.get, ih]

/-- A read after an insertion: the value inserted, else what was there. -/
theorem Tbl.get_insert (d v : α) (k j : Nat) (t : Tbl α) :
    Tbl.get d j (Tbl.insert k v t) = if j = k then v else Tbl.get d j t := by
  split
  · subst_vars; simp
  · exact Tbl.get_insert_ne d v ‹_› t

@[simp] theorem Tbl.has_insert_same (v : α) (k : Nat) (t : Tbl α) : Tbl.has k (Tbl.insert k v t) = true := by
  induction t with
  | nil => simp [Tbl.insert, Tbl.has]
  | cons e t ih =>
    simp only [Tbl.insert]
    split
    · simp [Tbl.has]
    · split
      · simp [Tbl.has]
      · rename_i h1 _; simp only [Tbl.has, ih, if_neg h1]

/-- A later insertion at the same key replaces an earlier one. -/
@[simp] theorem Tbl.insert_insert (v w : α) (k : Nat) (t : Tbl α) :
    Tbl.insert k v (Tbl.insert k w t) = Tbl.insert k v t := by
  induction t with
  | nil => simp [Tbl.insert]
  | cons e t ih =>
    simp only [Tbl.insert]
    split
    · simp [Tbl.insert]
    · split
      · simp [Tbl.insert]
      · rename_i h1 h2; simp only [Tbl.insert, if_neg h1, if_neg h2, ih]

/-- A read after an erasure: the default at the key, else what was there. -/
theorem Tbl.get_erase (d : α) (k j : Nat) (t : Tbl α) :
    Tbl.get d j (Tbl.erase k t) = if j = k then d else Tbl.get d j t := by
  induction t with
  | nil => simp [Tbl.erase, Tbl.get]
  | cons e t ih =>
    simp only [Tbl.erase, Tbl.get]
    split
    · rename_i h
      rw [ih]
      split
      · rfl
      · rw [if_neg (fun x => ‹¬j = k› (x.symm.trans h))]
    · simp only [Tbl.get, ih]
      split
      · rename_i h1 h2
        rw [if_neg (fun x => h1 (h2.trans x))]
      · rfl

/-- A read after clearing a range: the default in the range, else what was there. -/
theorem Tbl.get_drop (d : α) (p : Nat → Bool) (j : Nat) (t : Tbl α) :
    Tbl.get d j (Tbl.drop p t) = if p j then d else Tbl.get d j t := by
  induction t with
  | nil => simp [Tbl.drop, Tbl.get]
  | cons e t ih =>
    obtain ⟨i, v⟩ := e
    simp only [Tbl.drop, List.filter_cons] at ih ⊢
    by_cases hp : p i
    · simp only [hp, Bool.not_true, Bool.false_eq_true, if_false, ih, Tbl.get]
      split
      · rfl
      · rename_i h
        rw [if_neg (fun x => h (by rw [← x]; exact hp))]
    · simp only [hp, Bool.not_false, if_true, Tbl.get, ih]
      split
      · rename_i h; subst h; simp [hp]
      · rfl

/-- A read after a write: the value written, else what was there. -/
theorem Tbl.get_put [DecidableEq α] (d v : α) (k j : Nat) (t : Tbl α) :
    Tbl.get d j (Tbl.put d k v t) = if j = k then v else Tbl.get d j t := by
  unfold Tbl.put
  split
  · subst_vars; exact Tbl.get_erase v k j t
  · exact Tbl.get_insert d v k j t

@[simp] theorem Tbl.get_put_same [DecidableEq α] (d v : α) (k : Nat) (t : Tbl α) :
    Tbl.get d k (Tbl.put d k v t) = v := by
  simp [Tbl.get_put]

variable [DecidableEq α]

/-! ### The canonical form -/

theorem Tbl.wfFrom_weaken (d : α) {a b : Option Nat} (t : Tbl α) (h : Tbl.wfFrom d b t = true)
    (g : ∀ x, a = some x → ∃ y, b = some y ∧ x ≤ y) : Tbl.wfFrom d a t = true := by
  cases t with
  | nil => rfl
  | cons e t =>
    simp only [Tbl.wfFrom, Bool.and_eq_true] at h ⊢
    refine ⟨⟨?_, h.1.2⟩, h.2⟩
    cases a with
    | none => rfl
    | some x =>
      obtain ⟨y, rfl, hy⟩ := g x rfl
      have := h.1.1
      simp only [decide_eq_true_eq] at this ⊢
      omega

theorem Tbl.wfFrom_insert (d v : α) (k : Nat) (hv : v ≠ d) (lo : Option Nat) (hlo : ∀ b, lo = some b → b < k)
    (t : Tbl α) (h : Tbl.wfFrom d lo t = true) : Tbl.wfFrom d lo (Tbl.insert k v t) = true := by
  induction t generalizing lo with
  | nil =>
    cases lo with
    | none => simp [Tbl.insert, Tbl.wfFrom, hv]
    | some b => simp [Tbl.insert, Tbl.wfFrom, hv, hlo b rfl]
  | cons e t ih =>
    obtain ⟨j, w⟩ := e
    simp only [Tbl.wfFrom, Bool.and_eq_true] at h
    simp only [Tbl.insert]
    split
    · subst_vars
      simp only [Tbl.wfFrom, Bool.and_eq_true]
      exact ⟨⟨h.1.1, by simpa using hv⟩, h.2⟩
    · split
      · simp only [Tbl.wfFrom, Bool.and_eq_true]
        refine ⟨⟨?_, by simpa using hv⟩, ⟨by simpa using ‹k < j›, h.1.2⟩, h.2⟩
        cases lo with
        | none => rfl
        | some b => simpa using hlo b rfl
      · simp only [Tbl.wfFrom, Bool.and_eq_true]
        exact ⟨h.1, ih _ (fun b hb => by cases hb; omega) h.2⟩

theorem Tbl.wfFrom_erase (d : α) (k : Nat) (lo : Option Nat) (t : Tbl α) (h : Tbl.wfFrom d lo t = true) :
    Tbl.wfFrom d lo (Tbl.erase k t) = true := by
  induction t generalizing lo with
  | nil => rfl
  | cons e t ih =>
    obtain ⟨j, w⟩ := e
    simp only [Tbl.wfFrom, Bool.and_eq_true] at h
    simp only [Tbl.erase]
    split
    · refine Tbl.wfFrom_weaken d _ (ih _ h.2) (fun x hx => ⟨j, rfl, ?_⟩)
      subst hx
      have := h.1.1
      simp only [decide_eq_true_eq] at this
      omega
    · simp only [Tbl.wfFrom, Bool.and_eq_true]
      exact ⟨h.1, ih _ h.2⟩

/-- A write keeps the canonical form. -/
theorem Tbl.wf_put (d : α) (k : Nat) (v : α) (t : Tbl α) (h : Tbl.wf d t = true) : Tbl.wf d (Tbl.put d k v t) = true := by
  unfold Tbl.put
  split
  · exact Tbl.wfFrom_erase d k none t h
  · exact Tbl.wfFrom_insert d v k ‹_› none (by simp) t h

theorem Tbl.wfFrom_drop (d : α) (p : Nat → Bool) (lo : Option Nat) (t : Tbl α) (h : Tbl.wfFrom d lo t = true) :
    Tbl.wfFrom d lo (Tbl.drop p t) = true := by
  induction t generalizing lo with
  | nil => rfl
  | cons e t ih =>
    obtain ⟨j, w⟩ := e
    simp only [Tbl.wfFrom, Bool.and_eq_true] at h
    simp only [Tbl.drop, List.filter_cons]
    split
    · simp only [Tbl.wfFrom, Bool.and_eq_true]
      exact ⟨h.1, ih _ h.2⟩
    · refine Tbl.wfFrom_weaken d _ (ih _ h.2) (fun x hx => ⟨j, rfl, ?_⟩)
      subst hx
      have := h.1.1
      simp only [decide_eq_true_eq] at this
      omega

/-- Clearing a range keeps the canonical form. -/
theorem Tbl.wf_drop (d : α) (p : Nat → Bool) (t : Tbl α) (h : Tbl.wf d t = true) : Tbl.wf d (Tbl.drop p t) = true :=
  Tbl.wfFrom_drop d p none t h

/-- A write of several bytes keeps the canonical form. -/
theorem wf_putBytes (t : Tbl Byte) (a : Nat) (bs : List Byte) (h : Tbl.wf 0 t = true) :
    Tbl.wf 0 (putBytes t a bs) = true := by
  induction bs generalizing t a with
  | nil => exact h
  | cons b bs ih => exact ih _ _ (Tbl.wf_put 0 a b t h)

/-! ### Bytes -/

/-- A read after a write of several bytes: the byte written, else what was there. -/
theorem get_putBytes (t : Tbl Byte) (a : Nat) (bs : List Byte) (j : Nat) :
    Tbl.get 0 j (putBytes t a bs) = if a ≤ j ∧ j < a + bs.length then bs.getD (j - a) 0 else Tbl.get 0 j t := by
  induction bs generalizing t a with
  | nil =>
    simp only [putBytes, List.length_nil, Nat.add_zero]
    rw [if_neg (by omega)]
  | cons b bs ih =>
    simp only [putBytes, ih, Tbl.get_put, List.length_cons]
    by_cases h : j = a
    · subst h
      rw [if_neg (by omega), if_pos rfl, if_pos (by omega)]
      simp
    · by_cases g : a + 1 ≤ j ∧ j < a + 1 + bs.length
      · rw [if_pos g, if_pos (by omega)]
        have : j - a = j - (a + 1) + 1 := by omega
        rw [this, List.getD_cons_succ]
      · rw [if_neg g, if_neg h, if_neg (by omega)]

end Sys2Proof.Machine
end

