-- ==== Sys2Proof/Laws/State.lean ====
section
/-! SUPPORT. What each named update of the state leaves as it was, and what it stores: one lemma for each update, so
that no proof unfolds a record update. -/

namespace Sys2Proof.Machine

/-- setReg changes regs alone. -/
@[simp] theorem State.setReg_others (s : State) (o : Nat) (v : Word) :
    (s.setReg o v).pending = s.pending ∧ (s.setReg o v).free = s.free ∧ (s.setReg o v).lap = s.lap ∧
    (s.setReg o v).hiLatch = s.hiLatch ∧ (s.setReg o v).loHold = s.loHold ∧ (s.setReg o v).resp = s.resp ∧
    (s.setReg o v).outs = s.outs ∧ (s.setReg o v).tile = s.tile ∧ (s.setReg o v).audio = s.audio ∧
    (s.setReg o v).vault = s.vault ∧ (s.setReg o v).host = s.host ∧ (s.setReg o v).fab = s.fab ∧
    (s.setReg o v).port = s.port ∧ (s.setReg o v).net = s.net ∧ (s.setReg o v).time = s.time ∧
    (s.setReg o v).dpll = s.dpll ∧ (s.setReg o v).syn = s.syn ∧ (s.setReg o v).casc = s.casc ∧
    (s.setReg o v).sched = s.sched ∧ (s.setReg o v).core = s.core ∧ (s.setReg o v).meter = s.meter ∧
    (s.setReg o v).health = s.health ∧ (s.setReg o v).power = s.power ∧ (s.setReg o v).pads = s.pads :=
  ⟨rfl, rfl, rfl, rfl, rfl, rfl, rfl, rfl, rfl, rfl, rfl, rfl, rfl, rfl, rfl, rfl, rfl, rfl, rfl, rfl, rfl, rfl, rfl, rfl⟩

/-- wr changes regs alone. -/
@[simp] theorem State.wr_others (s : State) (f : Fld) (v : Nat) :
    (s.wr f v).pending = s.pending ∧ (s.wr f v).free = s.free ∧ (s.wr f v).lap = s.lap ∧
    (s.wr f v).hiLatch = s.hiLatch ∧ (s.wr f v).loHold = s.loHold ∧ (s.wr f v).resp = s.resp ∧
    (s.wr f v).outs = s.outs ∧ (s.wr f v).tile = s.tile ∧ (s.wr f v).audio = s.audio ∧
    (s.wr f v).vault = s.vault ∧ (s.wr f v).host = s.host ∧ (s.wr f v).fab = s.fab ∧
    (s.wr f v).port = s.port ∧ (s.wr f v).net = s.net ∧ (s.wr f v).time = s.time ∧
    (s.wr f v).dpll = s.dpll ∧ (s.wr f v).syn = s.syn ∧ (s.wr f v).casc = s.casc ∧
    (s.wr f v).sched = s.sched ∧ (s.wr f v).core = s.core ∧ (s.wr f v).meter = s.meter ∧
    (s.wr f v).health = s.health ∧ (s.wr f v).power = s.power ∧ (s.wr f v).pads = s.pads :=
  ⟨rfl, rfl, rfl, rfl, rfl, rfl, rfl, rfl, rfl, rfl, rfl, rfl, rfl, rfl, rfl, rfl, rfl, rfl, rfl, rfl, rfl, rfl, rfl, rfl⟩

/-- wrS changes regs alone. -/
@[simp] theorem State.wrS_others (s : State) (f : Fld) (v : Int) :
    (s.wrS f v).pending = s.pending ∧ (s.wrS f v).free = s.free ∧ (s.wrS f v).lap = s.lap ∧
    (s.wrS f v).hiLatch = s.hiLatch ∧ (s.wrS f v).loHold = s.loHold ∧ (s.wrS f v).resp = s.resp ∧
    (s.wrS f v).outs = s.outs ∧ (s.wrS f v).tile = s.tile ∧ (s.wrS f v).audio = s.audio ∧
    (s.wrS f v).vault = s.vault ∧ (s.wrS f v).host = s.host ∧ (s.wrS f v).fab = s.fab ∧
    (s.wrS f v).port = s.port ∧ (s.wrS f v).net = s.net ∧ (s.wrS f v).time = s.time ∧
    (s.wrS f v).dpll = s.dpll ∧ (s.wrS f v).syn = s.syn ∧ (s.wrS f v).casc = s.casc ∧
    (s.wrS f v).sched = s.sched ∧ (s.wrS f v).core = s.core ∧ (s.wrS f v).meter = s.meter ∧
    (s.wrS f v).health = s.health ∧ (s.wrS f v).power = s.power ∧ (s.wrS f v).pads = s.pads :=
  ⟨rfl, rfl, rfl, rfl, rfl, rfl, rfl, rfl, rfl, rfl, rfl, rfl, rfl, rfl, rfl, rfl, rfl, rfl, rfl, rfl, rfl, rfl, rfl, rfl⟩

/-- wr64 changes regs alone. -/
@[simp] theorem State.wr64_others (s : State) (lo hi : Fld) (v : Nat) :
    (s.wr64 lo hi v).pending = s.pending ∧ (s.wr64 lo hi v).free = s.free ∧ (s.wr64 lo hi v).lap = s.lap ∧
    (s.wr64 lo hi v).hiLatch = s.hiLatch ∧ (s.wr64 lo hi v).loHold = s.loHold ∧ (s.wr64 lo hi v).resp = s.resp ∧
    (s.wr64 lo hi v).outs = s.outs ∧ (s.wr64 lo hi v).tile = s.tile ∧ (s.wr64 lo hi v).audio = s.audio ∧
    (s.wr64 lo hi v).vault = s.vault ∧ (s.wr64 lo hi v).host = s.host ∧ (s.wr64 lo hi v).fab = s.fab ∧
    (s.wr64 lo hi v).port = s.port ∧ (s.wr64 lo hi v).net = s.net ∧ (s.wr64 lo hi v).time = s.time ∧
    (s.wr64 lo hi v).dpll = s.dpll ∧ (s.wr64 lo hi v).syn = s.syn ∧ (s.wr64 lo hi v).casc = s.casc ∧
    (s.wr64 lo hi v).sched = s.sched ∧ (s.wr64 lo hi v).core = s.core ∧ (s.wr64 lo hi v).meter = s.meter ∧
    (s.wr64 lo hi v).health = s.health ∧ (s.wr64 lo hi v).power = s.power ∧ (s.wr64 lo hi v).pads = s.pads :=
  ⟨rfl, rfl, rfl, rfl, rfl, rfl, rfl, rfl, rfl, rfl, rfl, rfl, rfl, rfl, rfl, rfl, rfl, rfl, rfl, rfl, rfl, rfl, rfl, rfl⟩

/-- bump changes regs alone. -/
@[simp] theorem State.bump_others (s : State) (f : Fld) (n : Nat) :
    (s.bump f n).pending = s.pending ∧ (s.bump f n).free = s.free ∧ (s.bump f n).lap = s.lap ∧
    (s.bump f n).hiLatch = s.hiLatch ∧ (s.bump f n).loHold = s.loHold ∧ (s.bump f n).resp = s.resp ∧
    (s.bump f n).outs = s.outs ∧ (s.bump f n).tile = s.tile ∧ (s.bump f n).audio = s.audio ∧
    (s.bump f n).vault = s.vault ∧ (s.bump f n).host = s.host ∧ (s.bump f n).fab = s.fab ∧
    (s.bump f n).port = s.port ∧ (s.bump f n).net = s.net ∧ (s.bump f n).time = s.time ∧
    (s.bump f n).dpll = s.dpll ∧ (s.bump f n).syn = s.syn ∧ (s.bump f n).casc = s.casc ∧
    (s.bump f n).sched = s.sched ∧ (s.bump f n).core = s.core ∧ (s.bump f n).meter = s.meter ∧
    (s.bump f n).health = s.health ∧ (s.bump f n).power = s.power ∧ (s.bump f n).pads = s.pads :=
  ⟨rfl, rfl, rfl, rfl, rfl, rfl, rfl, rfl, rfl, rfl, rfl, rfl, rfl, rfl, rfl, rfl, rfl, rfl, rfl, rfl, rfl, rfl, rfl, rfl⟩

/-- setBit changes regs alone. -/
@[simp] theorem State.setBit_others (s : State) (o b : Nat) :
    (s.setBit o b).pending = s.pending ∧ (s.setBit o b).free = s.free ∧ (s.setBit o b).lap = s.lap ∧
    (s.setBit o b).hiLatch = s.hiLatch ∧ (s.setBit o b).loHold = s.loHold ∧ (s.setBit o b).resp = s.resp ∧
    (s.setBit o b).outs = s.outs ∧ (s.setBit o b).tile = s.tile ∧ (s.setBit o b).audio = s.audio ∧
    (s.setBit o b).vault = s.vault ∧ (s.setBit o b).host = s.host ∧ (s.setBit o b).fab = s.fab ∧
    (s.setBit o b).port = s.port ∧ (s.setBit o b).net = s.net ∧ (s.setBit o b).time = s.time ∧
    (s.setBit o b).dpll = s.dpll ∧ (s.setBit o b).syn = s.syn ∧ (s.setBit o b).casc = s.casc ∧
    (s.setBit o b).sched = s.sched ∧ (s.setBit o b).core = s.core ∧ (s.setBit o b).meter = s.meter ∧
    (s.setBit o b).health = s.health ∧ (s.setBit o b).power = s.power ∧ (s.setBit o b).pads = s.pads :=
  ⟨rfl, rfl, rfl, rfl, rfl, rfl, rfl, rfl, rfl, rfl, rfl, rfl, rfl, rfl, rfl, rfl, rfl, rfl, rfl, rfl, rfl, rfl, rfl, rfl⟩

/-- emit changes outs alone. -/
@[simp] theorem State.emit_others (s : State) (o : Out) :
    (s.emit o).pending = s.pending ∧ (s.emit o).free = s.free ∧ (s.emit o).lap = s.lap ∧
    (s.emit o).regs = s.regs ∧ (s.emit o).hiLatch = s.hiLatch ∧ (s.emit o).loHold = s.loHold ∧
    (s.emit o).resp = s.resp ∧ (s.emit o).tile = s.tile ∧ (s.emit o).audio = s.audio ∧
    (s.emit o).vault = s.vault ∧ (s.emit o).host = s.host ∧ (s.emit o).fab = s.fab ∧
    (s.emit o).port = s.port ∧ (s.emit o).net = s.net ∧ (s.emit o).time = s.time ∧
    (s.emit o).dpll = s.dpll ∧ (s.emit o).syn = s.syn ∧ (s.emit o).casc = s.casc ∧
    (s.emit o).sched = s.sched ∧ (s.emit o).core = s.core ∧ (s.emit o).meter = s.meter ∧
    (s.emit o).health = s.health ∧ (s.emit o).power = s.power ∧ (s.emit o).pads = s.pads :=
  ⟨rfl, rfl, rfl, rfl, rfl, rfl, rfl, rfl, rfl, rfl, rfl, rfl, rfl, rfl, rfl, rfl, rfl, rfl, rfl, rfl, rfl, rfl, rfl, rfl⟩

/-- setRing changes host alone. -/
@[simp] theorem State.setRing_others (s : State) (r : Nat) (g : Ring) :
    (s.setRing r g).pending = s.pending ∧ (s.setRing r g).free = s.free ∧ (s.setRing r g).lap = s.lap ∧
    (s.setRing r g).regs = s.regs ∧ (s.setRing r g).hiLatch = s.hiLatch ∧ (s.setRing r g).loHold = s.loHold ∧
    (s.setRing r g).resp = s.resp ∧ (s.setRing r g).outs = s.outs ∧ (s.setRing r g).tile = s.tile ∧
    (s.setRing r g).audio = s.audio ∧ (s.setRing r g).vault = s.vault ∧ (s.setRing r g).fab = s.fab ∧
    (s.setRing r g).port = s.port ∧ (s.setRing r g).net = s.net ∧ (s.setRing r g).time = s.time ∧
    (s.setRing r g).dpll = s.dpll ∧ (s.setRing r g).syn = s.syn ∧ (s.setRing r g).casc = s.casc ∧
    (s.setRing r g).sched = s.sched ∧ (s.setRing r g).core = s.core ∧ (s.setRing r g).meter = s.meter ∧
    (s.setRing r g).health = s.health ∧ (s.setRing r g).power = s.power ∧ (s.setRing r g).pads = s.pads :=
  ⟨rfl, rfl, rfl, rfl, rfl, rfl, rfl, rfl, rfl, rfl, rfl, rfl, rfl, rfl, rfl, rfl, rfl, rfl, rfl, rfl, rfl, rfl, rfl, rfl⟩

/-- setDesc changes host alone. -/
@[simp] theorem State.setDesc_others (s : State) (r : Nat) (x : Desc) :
    (s.setDesc r x).pending = s.pending ∧ (s.setDesc r x).free = s.free ∧ (s.setDesc r x).lap = s.lap ∧
    (s.setDesc r x).regs = s.regs ∧ (s.setDesc r x).hiLatch = s.hiLatch ∧ (s.setDesc r x).loHold = s.loHold ∧
    (s.setDesc r x).resp = s.resp ∧ (s.setDesc r x).outs = s.outs ∧ (s.setDesc r x).tile = s.tile ∧
    (s.setDesc r x).audio = s.audio ∧ (s.setDesc r x).vault = s.vault ∧ (s.setDesc r x).fab = s.fab ∧
    (s.setDesc r x).port = s.port ∧ (s.setDesc r x).net = s.net ∧ (s.setDesc r x).time = s.time ∧
    (s.setDesc r x).dpll = s.dpll ∧ (s.setDesc r x).syn = s.syn ∧ (s.setDesc r x).casc = s.casc ∧
    (s.setDesc r x).sched = s.sched ∧ (s.setDesc r x).core = s.core ∧ (s.setDesc r x).meter = s.meter ∧
    (s.setDesc r x).health = s.health ∧ (s.setDesc r x).power = s.power ∧ (s.setDesc r x).pads = s.pads :=
  ⟨rfl, rfl, rfl, rfl, rfl, rfl, rfl, rfl, rfl, rfl, rfl, rfl, rfl, rfl, rfl, rfl, rfl, rfl, rfl, rfl, rfl, rfl, rfl, rfl⟩

/-- stampEvent changes host alone. -/
@[simp] theorem State.stampEvent_others (s : State) (c : Nat) :
    (s.stampEvent c).pending = s.pending ∧ (s.stampEvent c).free = s.free ∧ (s.stampEvent c).lap = s.lap ∧
    (s.stampEvent c).regs = s.regs ∧ (s.stampEvent c).hiLatch = s.hiLatch ∧ (s.stampEvent c).loHold = s.loHold ∧
    (s.stampEvent c).resp = s.resp ∧ (s.stampEvent c).outs = s.outs ∧ (s.stampEvent c).tile = s.tile ∧
    (s.stampEvent c).audio = s.audio ∧ (s.stampEvent c).vault = s.vault ∧ (s.stampEvent c).fab = s.fab ∧
    (s.stampEvent c).port = s.port ∧ (s.stampEvent c).net = s.net ∧ (s.stampEvent c).time = s.time ∧
    (s.stampEvent c).dpll = s.dpll ∧ (s.stampEvent c).syn = s.syn ∧ (s.stampEvent c).casc = s.casc ∧
    (s.stampEvent c).sched = s.sched ∧ (s.stampEvent c).core = s.core ∧ (s.stampEvent c).meter = s.meter ∧
    (s.stampEvent c).health = s.health ∧ (s.stampEvent c).power = s.power ∧ (s.stampEvent c).pads = s.pads :=
  ⟨rfl, rfl, rfl, rfl, rfl, rfl, rfl, rfl, rfl, rfl, rfl, rfl, rfl, rfl, rfl, rfl, rfl, rfl, rfl, rfl, rfl, rfl, rfl, rfl⟩

/-- setTile changes tile alone. -/
@[simp] theorem State.setTile_others (s : State) (t : Nat) (x : Tile) :
    (s.setTile t x).pending = s.pending ∧ (s.setTile t x).free = s.free ∧ (s.setTile t x).lap = s.lap ∧
    (s.setTile t x).regs = s.regs ∧ (s.setTile t x).hiLatch = s.hiLatch ∧ (s.setTile t x).loHold = s.loHold ∧
    (s.setTile t x).resp = s.resp ∧ (s.setTile t x).outs = s.outs ∧ (s.setTile t x).audio = s.audio ∧
    (s.setTile t x).vault = s.vault ∧ (s.setTile t x).host = s.host ∧ (s.setTile t x).fab = s.fab ∧
    (s.setTile t x).port = s.port ∧ (s.setTile t x).net = s.net ∧ (s.setTile t x).time = s.time ∧
    (s.setTile t x).dpll = s.dpll ∧ (s.setTile t x).syn = s.syn ∧ (s.setTile t x).casc = s.casc ∧
    (s.setTile t x).sched = s.sched ∧ (s.setTile t x).core = s.core ∧ (s.setTile t x).meter = s.meter ∧
    (s.setTile t x).health = s.health ∧ (s.setTile t x).power = s.power ∧ (s.setTile t x).pads = s.pads :=
  ⟨rfl, rfl, rfl, rfl, rfl, rfl, rfl, rfl, rfl, rfl, rfl, rfl, rfl, rfl, rfl, rfl, rfl, rfl, rfl, rfl, rfl, rfl, rfl, rfl⟩

/-- setHeat changes tile alone. -/
@[simp] theorem State.setHeat_others (s : State) (h : Nat) (x : Heat) :
    (s.setHeat h x).pending = s.pending ∧ (s.setHeat h x).free = s.free ∧ (s.setHeat h x).lap = s.lap ∧
    (s.setHeat h x).regs = s.regs ∧ (s.setHeat h x).hiLatch = s.hiLatch ∧ (s.setHeat h x).loHold = s.loHold ∧
    (s.setHeat h x).resp = s.resp ∧ (s.setHeat h x).outs = s.outs ∧ (s.setHeat h x).audio = s.audio ∧
    (s.setHeat h x).vault = s.vault ∧ (s.setHeat h x).host = s.host ∧ (s.setHeat h x).fab = s.fab ∧
    (s.setHeat h x).port = s.port ∧ (s.setHeat h x).net = s.net ∧ (s.setHeat h x).time = s.time ∧
    (s.setHeat h x).dpll = s.dpll ∧ (s.setHeat h x).syn = s.syn ∧ (s.setHeat h x).casc = s.casc ∧
    (s.setHeat h x).sched = s.sched ∧ (s.setHeat h x).core = s.core ∧ (s.setHeat h x).meter = s.meter ∧
    (s.setHeat h x).health = s.health ∧ (s.setHeat h x).power = s.power ∧ (s.setHeat h x).pads = s.pads :=
  ⟨rfl, rfl, rfl, rfl, rfl, rfl, rfl, rfl, rfl, rfl, rfl, rfl, rfl, rfl, rfl, rfl, rfl, rfl, rfl, rfl, rfl, rfl, rfl, rfl⟩

/-- onTile changes tile alone. -/
@[simp] theorem State.onTile_others (s : State) (t : Nat) (f : Tile → Tile) :
    (s.onTile t f).pending = s.pending ∧ (s.onTile t f).free = s.free ∧ (s.onTile t f).lap = s.lap ∧
    (s.onTile t f).regs = s.regs ∧ (s.onTile t f).hiLatch = s.hiLatch ∧ (s.onTile t f).loHold = s.loHold ∧
    (s.onTile t f).resp = s.resp ∧ (s.onTile t f).outs = s.outs ∧ (s.onTile t f).audio = s.audio ∧
    (s.onTile t f).vault = s.vault ∧ (s.onTile t f).host = s.host ∧ (s.onTile t f).fab = s.fab ∧
    (s.onTile t f).port = s.port ∧ (s.onTile t f).net = s.net ∧ (s.onTile t f).time = s.time ∧
    (s.onTile t f).dpll = s.dpll ∧ (s.onTile t f).syn = s.syn ∧ (s.onTile t f).casc = s.casc ∧
    (s.onTile t f).sched = s.sched ∧ (s.onTile t f).core = s.core ∧ (s.onTile t f).meter = s.meter ∧
    (s.onTile t f).health = s.health ∧ (s.onTile t f).power = s.power ∧ (s.onTile t f).pads = s.pads := by
  unfold State.onTile
  (try dsimp only)
  split <;> exact ⟨rfl, rfl, rfl, rfl, rfl, rfl, rfl, rfl, rfl, rfl, rfl, rfl, rfl, rfl, rfl, rfl, rfl, rfl, rfl, rfl, rfl, rfl, rfl, rfl⟩

/-- setMover changes fab alone. -/
@[simp] theorem State.setMover_others (s : State) (m : Nat) (x : Mover) :
    (s.setMover m x).pending = s.pending ∧ (s.setMover m x).free = s.free ∧ (s.setMover m x).lap = s.lap ∧
    (s.setMover m x).regs = s.regs ∧ (s.setMover m x).hiLatch = s.hiLatch ∧ (s.setMover m x).loHold = s.loHold ∧
    (s.setMover m x).resp = s.resp ∧ (s.setMover m x).outs = s.outs ∧ (s.setMover m x).tile = s.tile ∧
    (s.setMover m x).audio = s.audio ∧ (s.setMover m x).vault = s.vault ∧ (s.setMover m x).host = s.host ∧
    (s.setMover m x).port = s.port ∧ (s.setMover m x).net = s.net ∧ (s.setMover m x).time = s.time ∧
    (s.setMover m x).dpll = s.dpll ∧ (s.setMover m x).syn = s.syn ∧ (s.setMover m x).casc = s.casc ∧
    (s.setMover m x).sched = s.sched ∧ (s.setMover m x).core = s.core ∧ (s.setMover m x).meter = s.meter ∧
    (s.setMover m x).health = s.health ∧ (s.setMover m x).power = s.power ∧ (s.setMover m x).pads = s.pads :=
  ⟨rfl, rfl, rfl, rfl, rfl, rfl, rfl, rfl, rfl, rfl, rfl, rfl, rfl, rfl, rfl, rfl, rfl, rfl, rfl, rfl, rfl, rfl, rfl, rfl⟩

/-- setAport changes port alone. -/
@[simp] theorem State.setAport_others (s : State) (p : Nat) (x : Port) :
    (s.setAport p x).pending = s.pending ∧ (s.setAport p x).free = s.free ∧ (s.setAport p x).lap = s.lap ∧
    (s.setAport p x).regs = s.regs ∧ (s.setAport p x).hiLatch = s.hiLatch ∧ (s.setAport p x).loHold = s.loHold ∧
    (s.setAport p x).resp = s.resp ∧ (s.setAport p x).outs = s.outs ∧ (s.setAport p x).tile = s.tile ∧
    (s.setAport p x).audio = s.audio ∧ (s.setAport p x).vault = s.vault ∧ (s.setAport p x).host = s.host ∧
    (s.setAport p x).fab = s.fab ∧ (s.setAport p x).net = s.net ∧ (s.setAport p x).time = s.time ∧
    (s.setAport p x).dpll = s.dpll ∧ (s.setAport p x).syn = s.syn ∧ (s.setAport p x).casc = s.casc ∧
    (s.setAport p x).sched = s.sched ∧ (s.setAport p x).core = s.core ∧ (s.setAport p x).meter = s.meter ∧
    (s.setAport p x).health = s.health ∧ (s.setAport p x).power = s.power ∧ (s.setAport p x).pads = s.pads :=
  ⟨rfl, rfl, rfl, rfl, rfl, rfl, rfl, rfl, rfl, rfl, rfl, rfl, rfl, rfl, rfl, rfl, rfl, rfl, rfl, rfl, rfl, rfl, rfl, rfl⟩

/-- setCs changes port alone. -/
@[simp] theorem State.setCs_others (s : State) (r c : Nat) (b : CsBlock) :
    (s.setCs r c b).pending = s.pending ∧ (s.setCs r c b).free = s.free ∧ (s.setCs r c b).lap = s.lap ∧
    (s.setCs r c b).regs = s.regs ∧ (s.setCs r c b).hiLatch = s.hiLatch ∧ (s.setCs r c b).loHold = s.loHold ∧
    (s.setCs r c b).resp = s.resp ∧ (s.setCs r c b).outs = s.outs ∧ (s.setCs r c b).tile = s.tile ∧
    (s.setCs r c b).audio = s.audio ∧ (s.setCs r c b).vault = s.vault ∧ (s.setCs r c b).host = s.host ∧
    (s.setCs r c b).fab = s.fab ∧ (s.setCs r c b).net = s.net ∧ (s.setCs r c b).time = s.time ∧
    (s.setCs r c b).dpll = s.dpll ∧ (s.setCs r c b).syn = s.syn ∧ (s.setCs r c b).casc = s.casc ∧
    (s.setCs r c b).sched = s.sched ∧ (s.setCs r c b).core = s.core ∧ (s.setCs r c b).meter = s.meter ∧
    (s.setCs r c b).health = s.health ∧ (s.setCs r c b).power = s.power ∧ (s.setCs r c b).pads = s.pads :=
  ⟨rfl, rfl, rfl, rfl, rfl, rfl, rfl, rfl, rfl, rfl, rfl, rfl, rfl, rfl, rfl, rfl, rfl, rfl, rfl, rfl, rfl, rfl, rfl, rfl⟩

/-- setNport changes net alone. -/
@[simp] theorem State.setNport_others (s : State) (p : Nat) (x : NetPort) :
    (s.setNport p x).pending = s.pending ∧ (s.setNport p x).free = s.free ∧ (s.setNport p x).lap = s.lap ∧
    (s.setNport p x).regs = s.regs ∧ (s.setNport p x).hiLatch = s.hiLatch ∧ (s.setNport p x).loHold = s.loHold ∧
    (s.setNport p x).resp = s.resp ∧ (s.setNport p x).outs = s.outs ∧ (s.setNport p x).tile = s.tile ∧
    (s.setNport p x).audio = s.audio ∧ (s.setNport p x).vault = s.vault ∧ (s.setNport p x).host = s.host ∧
    (s.setNport p x).fab = s.fab ∧ (s.setNport p x).port = s.port ∧ (s.setNport p x).time = s.time ∧
    (s.setNport p x).dpll = s.dpll ∧ (s.setNport p x).syn = s.syn ∧ (s.setNport p x).casc = s.casc ∧
    (s.setNport p x).sched = s.sched ∧ (s.setNport p x).core = s.core ∧ (s.setNport p x).meter = s.meter ∧
    (s.setNport p x).health = s.health ∧ (s.setNport p x).power = s.power ∧ (s.setNport p x).pads = s.pads :=
  ⟨rfl, rfl, rfl, rfl, rfl, rfl, rfl, rfl, rfl, rfl, rfl, rfl, rfl, rfl, rfl, rfl, rfl, rfl, rfl, rfl, rfl, rfl, rfl, rfl⟩

/-- setCtx changes net alone. -/
@[simp] theorem State.setCtx_others (s : State) (c : Nat) (x : Ctx) :
    (s.setCtx c x).pending = s.pending ∧ (s.setCtx c x).free = s.free ∧ (s.setCtx c x).lap = s.lap ∧
    (s.setCtx c x).regs = s.regs ∧ (s.setCtx c x).hiLatch = s.hiLatch ∧ (s.setCtx c x).loHold = s.loHold ∧
    (s.setCtx c x).resp = s.resp ∧ (s.setCtx c x).outs = s.outs ∧ (s.setCtx c x).tile = s.tile ∧
    (s.setCtx c x).audio = s.audio ∧ (s.setCtx c x).vault = s.vault ∧ (s.setCtx c x).host = s.host ∧
    (s.setCtx c x).fab = s.fab ∧ (s.setCtx c x).port = s.port ∧ (s.setCtx c x).time = s.time ∧
    (s.setCtx c x).dpll = s.dpll ∧ (s.setCtx c x).syn = s.syn ∧ (s.setCtx c x).casc = s.casc ∧
    (s.setCtx c x).sched = s.sched ∧ (s.setCtx c x).core = s.core ∧ (s.setCtx c x).meter = s.meter ∧
    (s.setCtx c x).health = s.health ∧ (s.setCtx c x).power = s.power ∧ (s.setCtx c x).pads = s.pads :=
  ⟨rfl, rfl, rfl, rfl, rfl, rfl, rfl, rfl, rfl, rfl, rfl, rfl, rfl, rfl, rfl, rfl, rfl, rfl, rfl, rfl, rfl, rfl, rfl, rfl⟩

/-- setPtp changes time alone. -/
@[simp] theorem State.setPtp_others (s : State) (n : Nat) (x : Ptp) :
    (s.setPtp n x).pending = s.pending ∧ (s.setPtp n x).free = s.free ∧ (s.setPtp n x).lap = s.lap ∧
    (s.setPtp n x).regs = s.regs ∧ (s.setPtp n x).hiLatch = s.hiLatch ∧ (s.setPtp n x).loHold = s.loHold ∧
    (s.setPtp n x).resp = s.resp ∧ (s.setPtp n x).outs = s.outs ∧ (s.setPtp n x).tile = s.tile ∧
    (s.setPtp n x).audio = s.audio ∧ (s.setPtp n x).vault = s.vault ∧ (s.setPtp n x).host = s.host ∧
    (s.setPtp n x).fab = s.fab ∧ (s.setPtp n x).port = s.port ∧ (s.setPtp n x).net = s.net ∧
    (s.setPtp n x).dpll = s.dpll ∧ (s.setPtp n x).syn = s.syn ∧ (s.setPtp n x).casc = s.casc ∧
    (s.setPtp n x).sched = s.sched ∧ (s.setPtp n x).core = s.core ∧ (s.setPtp n x).meter = s.meter ∧
    (s.setPtp n x).health = s.health ∧ (s.setPtp n x).power = s.power ∧ (s.setPtp n x).pads = s.pads :=
  ⟨rfl, rfl, rfl, rfl, rfl, rfl, rfl, rfl, rfl, rfl, rfl, rfl, rfl, rfl, rfl, rfl, rfl, rfl, rfl, rfl, rfl, rfl, rfl, rfl⟩

/-- setTout changes time alone. -/
@[simp] theorem State.setTout_others (s : State) (n : Nat) (x : Tout) :
    (s.setTout n x).pending = s.pending ∧ (s.setTout n x).free = s.free ∧ (s.setTout n x).lap = s.lap ∧
    (s.setTout n x).regs = s.regs ∧ (s.setTout n x).hiLatch = s.hiLatch ∧ (s.setTout n x).loHold = s.loHold ∧
    (s.setTout n x).resp = s.resp ∧ (s.setTout n x).outs = s.outs ∧ (s.setTout n x).tile = s.tile ∧
    (s.setTout n x).audio = s.audio ∧ (s.setTout n x).vault = s.vault ∧ (s.setTout n x).host = s.host ∧
    (s.setTout n x).fab = s.fab ∧ (s.setTout n x).port = s.port ∧ (s.setTout n x).net = s.net ∧
    (s.setTout n x).dpll = s.dpll ∧ (s.setTout n x).syn = s.syn ∧ (s.setTout n x).casc = s.casc ∧
    (s.setTout n x).sched = s.sched ∧ (s.setTout n x).core = s.core ∧ (s.setTout n x).meter = s.meter ∧
    (s.setTout n x).health = s.health ∧ (s.setTout n x).power = s.power ∧ (s.setTout n x).pads = s.pads :=
  ⟨rfl, rfl, rfl, rfl, rfl, rfl, rfl, rfl, rfl, rfl, rfl, rfl, rfl, rfl, rfl, rfl, rfl, rfl, rfl, rfl, rfl, rfl, rfl, rfl⟩

/-- setSlot changes dpll alone. -/
@[simp] theorem State.setSlot_others (s : State) (n : Nat) (x : RefSlot) :
    (s.setSlot n x).pending = s.pending ∧ (s.setSlot n x).free = s.free ∧ (s.setSlot n x).lap = s.lap ∧
    (s.setSlot n x).regs = s.regs ∧ (s.setSlot n x).hiLatch = s.hiLatch ∧ (s.setSlot n x).loHold = s.loHold ∧
    (s.setSlot n x).resp = s.resp ∧ (s.setSlot n x).outs = s.outs ∧ (s.setSlot n x).tile = s.tile ∧
    (s.setSlot n x).audio = s.audio ∧ (s.setSlot n x).vault = s.vault ∧ (s.setSlot n x).host = s.host ∧
    (s.setSlot n x).fab = s.fab ∧ (s.setSlot n x).port = s.port ∧ (s.setSlot n x).net = s.net ∧
    (s.setSlot n x).time = s.time ∧ (s.setSlot n x).syn = s.syn ∧ (s.setSlot n x).casc = s.casc ∧
    (s.setSlot n x).sched = s.sched ∧ (s.setSlot n x).core = s.core ∧ (s.setSlot n x).meter = s.meter ∧
    (s.setSlot n x).health = s.health ∧ (s.setSlot n x).power = s.power ∧ (s.setSlot n x).pads = s.pads :=
  ⟨rfl, rfl, rfl, rfl, rfl, rfl, rfl, rfl, rfl, rfl, rfl, rfl, rfl, rfl, rfl, rfl, rfl, rfl, rfl, rfl, rfl, rfl, rfl, rfl⟩

/-- setFp changes dpll alone. -/
@[simp] theorem State.setFp_others (s : State) (n : Nat) (x : Fp) :
    (s.setFp n x).pending = s.pending ∧ (s.setFp n x).free = s.free ∧ (s.setFp n x).lap = s.lap ∧
    (s.setFp n x).regs = s.regs ∧ (s.setFp n x).hiLatch = s.hiLatch ∧ (s.setFp n x).loHold = s.loHold ∧
    (s.setFp n x).resp = s.resp ∧ (s.setFp n x).outs = s.outs ∧ (s.setFp n x).tile = s.tile ∧
    (s.setFp n x).audio = s.audio ∧ (s.setFp n x).vault = s.vault ∧ (s.setFp n x).host = s.host ∧
    (s.setFp n x).fab = s.fab ∧ (s.setFp n x).port = s.port ∧ (s.setFp n x).net = s.net ∧
    (s.setFp n x).time = s.time ∧ (s.setFp n x).syn = s.syn ∧ (s.setFp n x).casc = s.casc ∧
    (s.setFp n x).sched = s.sched ∧ (s.setFp n x).core = s.core ∧ (s.setFp n x).meter = s.meter ∧
    (s.setFp n x).health = s.health ∧ (s.setFp n x).power = s.power ∧ (s.setFp n x).pads = s.pads :=
  ⟨rfl, rfl, rfl, rfl, rfl, rfl, rfl, rfl, rfl, rfl, rfl, rfl, rfl, rfl, rfl, rfl, rfl, rfl, rfl, rfl, rfl, rfl, rfl, rfl⟩

/-- setSynth changes syn alone. -/
@[simp] theorem State.setSynth_others (s : State) (b : Bool) (x : Synth) :
    (s.setSynth b x).pending = s.pending ∧ (s.setSynth b x).free = s.free ∧ (s.setSynth b x).lap = s.lap ∧
    (s.setSynth b x).regs = s.regs ∧ (s.setSynth b x).hiLatch = s.hiLatch ∧ (s.setSynth b x).loHold = s.loHold ∧
    (s.setSynth b x).resp = s.resp ∧ (s.setSynth b x).outs = s.outs ∧ (s.setSynth b x).tile = s.tile ∧
    (s.setSynth b x).audio = s.audio ∧ (s.setSynth b x).vault = s.vault ∧ (s.setSynth b x).host = s.host ∧
    (s.setSynth b x).fab = s.fab ∧ (s.setSynth b x).port = s.port ∧ (s.setSynth b x).net = s.net ∧
    (s.setSynth b x).time = s.time ∧ (s.setSynth b x).dpll = s.dpll ∧ (s.setSynth b x).casc = s.casc ∧
    (s.setSynth b x).sched = s.sched ∧ (s.setSynth b x).core = s.core ∧ (s.setSynth b x).meter = s.meter ∧
    (s.setSynth b x).health = s.health ∧ (s.setSynth b x).power = s.power ∧ (s.setSynth b x).pads = s.pads := by
  unfold State.setSynth
  (try dsimp only)
  split <;> exact ⟨rfl, rfl, rfl, rfl, rfl, rfl, rfl, rfl, rfl, rfl, rfl, rfl, rfl, rfl, rfl, rfl, rfl, rfl, rfl, rfl, rfl, rfl, rfl, rfl⟩

/-- setCport changes casc alone. -/
@[simp] theorem State.setCport_others (s : State) (p : Nat) (x : CascPort) :
    (s.setCport p x).pending = s.pending ∧ (s.setCport p x).free = s.free ∧ (s.setCport p x).lap = s.lap ∧
    (s.setCport p x).regs = s.regs ∧ (s.setCport p x).hiLatch = s.hiLatch ∧ (s.setCport p x).loHold = s.loHold ∧
    (s.setCport p x).resp = s.resp ∧ (s.setCport p x).outs = s.outs ∧ (s.setCport p x).tile = s.tile ∧
    (s.setCport p x).audio = s.audio ∧ (s.setCport p x).vault = s.vault ∧ (s.setCport p x).host = s.host ∧
    (s.setCport p x).fab = s.fab ∧ (s.setCport p x).port = s.port ∧ (s.setCport p x).net = s.net ∧
    (s.setCport p x).time = s.time ∧ (s.setCport p x).dpll = s.dpll ∧ (s.setCport p x).syn = s.syn ∧
    (s.setCport p x).sched = s.sched ∧ (s.setCport p x).core = s.core ∧ (s.setCport p x).meter = s.meter ∧
    (s.setCport p x).health = s.health ∧ (s.setCport p x).power = s.power ∧ (s.setCport p x).pads = s.pads :=
  ⟨rfl, rfl, rfl, rfl, rfl, rfl, rfl, rfl, rfl, rfl, rfl, rfl, rfl, rfl, rfl, rfl, rfl, rfl, rfl, rfl, rfl, rfl, rfl, rfl⟩

/-- setRunner changes core alone. -/
@[simp] theorem State.setRunner_others (s : State) (k : Nat) (x : Runner) :
    (s.setRunner k x).pending = s.pending ∧ (s.setRunner k x).free = s.free ∧ (s.setRunner k x).lap = s.lap ∧
    (s.setRunner k x).regs = s.regs ∧ (s.setRunner k x).hiLatch = s.hiLatch ∧ (s.setRunner k x).loHold = s.loHold ∧
    (s.setRunner k x).resp = s.resp ∧ (s.setRunner k x).outs = s.outs ∧ (s.setRunner k x).tile = s.tile ∧
    (s.setRunner k x).audio = s.audio ∧ (s.setRunner k x).vault = s.vault ∧ (s.setRunner k x).host = s.host ∧
    (s.setRunner k x).fab = s.fab ∧ (s.setRunner k x).port = s.port ∧ (s.setRunner k x).net = s.net ∧
    (s.setRunner k x).time = s.time ∧ (s.setRunner k x).dpll = s.dpll ∧ (s.setRunner k x).syn = s.syn ∧
    (s.setRunner k x).casc = s.casc ∧ (s.setRunner k x).sched = s.sched ∧ (s.setRunner k x).meter = s.meter ∧
    (s.setRunner k x).health = s.health ∧ (s.setRunner k x).power = s.power ∧ (s.setRunner k x).pads = s.pads :=
  ⟨rfl, rfl, rfl, rfl, rfl, rfl, rfl, rfl, rfl, rfl, rfl, rfl, rfl, rfl, rfl, rfl, rfl, rfl, rfl, rfl, rfl, rfl, rfl, rfl⟩

/-- setTask changes sched alone. -/
@[simp] theorem State.setTask_others (s : State) (t : Nat) (x : Task) :
    (s.setTask t x).pending = s.pending ∧ (s.setTask t x).free = s.free ∧ (s.setTask t x).lap = s.lap ∧
    (s.setTask t x).regs = s.regs ∧ (s.setTask t x).hiLatch = s.hiLatch ∧ (s.setTask t x).loHold = s.loHold ∧
    (s.setTask t x).resp = s.resp ∧ (s.setTask t x).outs = s.outs ∧ (s.setTask t x).tile = s.tile ∧
    (s.setTask t x).audio = s.audio ∧ (s.setTask t x).vault = s.vault ∧ (s.setTask t x).host = s.host ∧
    (s.setTask t x).fab = s.fab ∧ (s.setTask t x).port = s.port ∧ (s.setTask t x).net = s.net ∧
    (s.setTask t x).time = s.time ∧ (s.setTask t x).dpll = s.dpll ∧ (s.setTask t x).syn = s.syn ∧
    (s.setTask t x).casc = s.casc ∧ (s.setTask t x).core = s.core ∧ (s.setTask t x).meter = s.meter ∧
    (s.setTask t x).health = s.health ∧ (s.setTask t x).power = s.power ∧ (s.setTask t x).pads = s.pads :=
  ⟨rfl, rfl, rfl, rfl, rfl, rfl, rfl, rfl, rfl, rfl, rfl, rfl, rfl, rfl, rfl, rfl, rfl, rfl, rfl, rfl, rfl, rfl, rfl, rfl⟩

/-- setQueue changes sched alone. -/
@[simp] theorem State.setQueue_others (s : State) (p : Nat) (q : List Nat) :
    (s.setQueue p q).pending = s.pending ∧ (s.setQueue p q).free = s.free ∧ (s.setQueue p q).lap = s.lap ∧
    (s.setQueue p q).regs = s.regs ∧ (s.setQueue p q).hiLatch = s.hiLatch ∧ (s.setQueue p q).loHold = s.loHold ∧
    (s.setQueue p q).resp = s.resp ∧ (s.setQueue p q).outs = s.outs ∧ (s.setQueue p q).tile = s.tile ∧
    (s.setQueue p q).audio = s.audio ∧ (s.setQueue p q).vault = s.vault ∧ (s.setQueue p q).host = s.host ∧
    (s.setQueue p q).fab = s.fab ∧ (s.setQueue p q).port = s.port ∧ (s.setQueue p q).net = s.net ∧
    (s.setQueue p q).time = s.time ∧ (s.setQueue p q).dpll = s.dpll ∧ (s.setQueue p q).syn = s.syn ∧
    (s.setQueue p q).casc = s.casc ∧ (s.setQueue p q).core = s.core ∧ (s.setQueue p q).meter = s.meter ∧
    (s.setQueue p q).health = s.health ∧ (s.setQueue p q).power = s.power ∧ (s.setQueue p q).pads = s.pads :=
  ⟨rfl, rfl, rfl, rfl, rfl, rfl, rfl, rfl, rfl, rfl, rfl, rfl, rfl, rfl, rfl, rfl, rfl, rfl, rfl, rfl, rfl, rfl, rfl, rfl⟩

/-- setLock changes sched alone. -/
@[simp] theorem State.setLock_others (s : State) (l : Nat) (x : Lock) :
    (s.setLock l x).pending = s.pending ∧ (s.setLock l x).free = s.free ∧ (s.setLock l x).lap = s.lap ∧
    (s.setLock l x).regs = s.regs ∧ (s.setLock l x).hiLatch = s.hiLatch ∧ (s.setLock l x).loHold = s.loHold ∧
    (s.setLock l x).resp = s.resp ∧ (s.setLock l x).outs = s.outs ∧ (s.setLock l x).tile = s.tile ∧
    (s.setLock l x).audio = s.audio ∧ (s.setLock l x).vault = s.vault ∧ (s.setLock l x).host = s.host ∧
    (s.setLock l x).fab = s.fab ∧ (s.setLock l x).port = s.port ∧ (s.setLock l x).net = s.net ∧
    (s.setLock l x).time = s.time ∧ (s.setLock l x).dpll = s.dpll ∧ (s.setLock l x).syn = s.syn ∧
    (s.setLock l x).casc = s.casc ∧ (s.setLock l x).core = s.core ∧ (s.setLock l x).meter = s.meter ∧
    (s.setLock l x).health = s.health ∧ (s.setLock l x).power = s.power ∧ (s.setLock l x).pads = s.pads :=
  ⟨rfl, rfl, rfl, rfl, rfl, rfl, rfl, rfl, rfl, rfl, rfl, rfl, rfl, rfl, rfl, rfl, rfl, rfl, rfl, rfl, rfl, rfl, rfl, rfl⟩

/-- meterMap changes meter alone. -/
@[simp] theorem State.meterMap_others (s : State) (f : MeterSt → MeterSt) :
    (s.meterMap f).pending = s.pending ∧ (s.meterMap f).free = s.free ∧ (s.meterMap f).lap = s.lap ∧
    (s.meterMap f).regs = s.regs ∧ (s.meterMap f).hiLatch = s.hiLatch ∧ (s.meterMap f).loHold = s.loHold ∧
    (s.meterMap f).resp = s.resp ∧ (s.meterMap f).outs = s.outs ∧ (s.meterMap f).tile = s.tile ∧
    (s.meterMap f).audio = s.audio ∧ (s.meterMap f).vault = s.vault ∧ (s.meterMap f).host = s.host ∧
    (s.meterMap f).fab = s.fab ∧ (s.meterMap f).port = s.port ∧ (s.meterMap f).net = s.net ∧
    (s.meterMap f).time = s.time ∧ (s.meterMap f).dpll = s.dpll ∧ (s.meterMap f).syn = s.syn ∧
    (s.meterMap f).casc = s.casc ∧ (s.meterMap f).sched = s.sched ∧ (s.meterMap f).core = s.core ∧
    (s.meterMap f).health = s.health ∧ (s.meterMap f).power = s.power ∧ (s.meterMap f).pads = s.pads :=
  ⟨rfl, rfl, rfl, rfl, rfl, rfl, rfl, rfl, rfl, rfl, rfl, rfl, rfl, rfl, rfl, rfl, rfl, rfl, rfl, rfl, rfl, rfl, rfl, rfl⟩

@[simp] theorem State.tileAt_setTile (s : State) (n : Nat) (x : Tile) : (s.setTile n x).tileAt n = x := by
  simp [State.setTile, State.tileAt]

theorem State.tileAt_setTile_ne (s : State) {n k : Nat} (x : Tile) (h : k ≠ n) : (s.setTile n x).tileAt k = s.tileAt k := by
  simp [State.setTile, State.tileAt, Tbl.get_insert, h]

@[simp] theorem State.heat_setHeat (s : State) (n : Nat) (x : Heat) : (s.setHeat n x).heat n = x := by
  simp [State.setHeat, State.heat]

theorem State.heat_setHeat_ne (s : State) {n k : Nat} (x : Heat) (h : k ≠ n) : (s.setHeat n x).heat k = s.heat k := by
  simp [State.setHeat, State.heat, Tbl.get_insert, h]

@[simp] theorem State.mover_setMover (s : State) (n : Nat) (x : Mover) : (s.setMover n x).mover n = x := by
  simp [State.setMover, State.mover]

theorem State.mover_setMover_ne (s : State) {n k : Nat} (x : Mover) (h : k ≠ n) : (s.setMover n x).mover k = s.mover k := by
  simp [State.setMover, State.mover, Tbl.get_insert, h]

@[simp] theorem State.aport_setAport (s : State) (n : Nat) (x : Port) : (s.setAport n x).aport n = x := by
  simp [State.setAport, State.aport]

theorem State.aport_setAport_ne (s : State) {n k : Nat} (x : Port) (h : k ≠ n) : (s.setAport n x).aport k = s.aport k := by
  simp [State.setAport, State.aport, Tbl.get_insert, h]

@[simp] theorem State.nport_setNport (s : State) (n : Nat) (x : NetPort) : (s.setNport n x).nport n = x := by
  simp [State.setNport, State.nport]

theorem State.nport_setNport_ne (s : State) {n k : Nat} (x : NetPort) (h : k ≠ n) : (s.setNport n x).nport k = s.nport k := by
  simp [State.setNport, State.nport, Tbl.get_insert, h]

@[simp] theorem State.ctx_setCtx (s : State) (n : Nat) (x : Ctx) : (s.setCtx n x).ctx n = x := by
  simp [State.setCtx, State.ctx]

theorem State.ctx_setCtx_ne (s : State) {n k : Nat} (x : Ctx) (h : k ≠ n) : (s.setCtx n x).ctx k = s.ctx k := by
  simp [State.setCtx, State.ctx, Tbl.get_insert, h]

@[simp] theorem State.ptp_setPtp (s : State) (n : Nat) (x : Ptp) : (s.setPtp n x).ptp n = x := by
  simp [State.setPtp, State.ptp]

theorem State.ptp_setPtp_ne (s : State) {n k : Nat} (x : Ptp) (h : k ≠ n) : (s.setPtp n x).ptp k = s.ptp k := by
  simp [State.setPtp, State.ptp, Tbl.get_insert, h]

@[simp] theorem State.tout_setTout (s : State) (n : Nat) (x : Tout) : (s.setTout n x).tout n = x := by
  simp [State.setTout, State.tout]

theorem State.tout_setTout_ne (s : State) {n k : Nat} (x : Tout) (h : k ≠ n) : (s.setTout n x).tout k = s.tout k := by
  simp [State.setTout, State.tout, Tbl.get_insert, h]

@[simp] theorem State.slot_setSlot (s : State) (n : Nat) (x : RefSlot) : (s.setSlot n x).slot n = x := by
  simp [State.setSlot, State.slot]

theorem State.slot_setSlot_ne (s : State) {n k : Nat} (x : RefSlot) (h : k ≠ n) : (s.setSlot n x).slot k = s.slot k := by
  simp [State.setSlot, State.slot, Tbl.get_insert, h]

@[simp] theorem State.fp_setFp (s : State) (n : Nat) (x : Fp) : (s.setFp n x).fp n = x := by
  simp [State.setFp, State.fp]

theorem State.fp_setFp_ne (s : State) {n k : Nat} (x : Fp) (h : k ≠ n) : (s.setFp n x).fp k = s.fp k := by
  simp [State.setFp, State.fp, Tbl.get_insert, h]

@[simp] theorem State.cport_setCport (s : State) (n : Nat) (x : CascPort) : (s.setCport n x).cport n = x := by
  simp [State.setCport, State.cport]

theorem State.cport_setCport_ne (s : State) {n k : Nat} (x : CascPort) (h : k ≠ n) : (s.setCport n x).cport k = s.cport k := by
  simp [State.setCport, State.cport, Tbl.get_insert, h]

@[simp] theorem State.runner_setRunner (s : State) (n : Nat) (x : Runner) : (s.setRunner n x).runner n = x := by
  simp [State.setRunner, State.runner]

theorem State.runner_setRunner_ne (s : State) {n k : Nat} (x : Runner) (h : k ≠ n) : (s.setRunner n x).runner k = s.runner k := by
  simp [State.setRunner, State.runner, Tbl.get_insert, h]

@[simp] theorem State.task_setTask (s : State) (n : Nat) (x : Task) : (s.setTask n x).task n = x := by
  simp [State.setTask, State.task]

theorem State.task_setTask_ne (s : State) {n k : Nat} (x : Task) (h : k ≠ n) : (s.setTask n x).task k = s.task k := by
  simp [State.setTask, State.task, Tbl.get_put, h]

@[simp] theorem State.queue_setQueue (s : State) (n : Nat) (x : List Nat) : (s.setQueue n x).queue n = x := by
  simp [State.setQueue, State.queue]

theorem State.queue_setQueue_ne (s : State) {n k : Nat} (x : List Nat) (h : k ≠ n) : (s.setQueue n x).queue k = s.queue k := by
  simp [State.setQueue, State.queue, Tbl.get_put, h]

@[simp] theorem State.lock_setLock (s : State) (n : Nat) (x : Lock) : (s.setLock n x).lock n = x := by
  simp [State.setLock, State.lock]

theorem State.lock_setLock_ne (s : State) {n k : Nat} (x : Lock) (h : k ≠ n) : (s.setLock n x).lock k = s.lock k := by
  simp [State.setLock, State.lock, Tbl.get_put, h]

end Sys2Proof.Machine
end

