-- ==== Sys2Proof/Laws/Memory.lean ====
section
/-! SUPPORT. The canonical form of the memories: every operation that writes one keeps it, and reset has it. -/

namespace Sys2Proof.Machine

/-- The memories hold the same. -/
def SameMemory (s t : State) : Prop :=
  t.fab.cellar = s.fab.cellar ∧ t.fab.netBuf = s.fab.netBuf ∧ t.fab.runnerRam = s.fab.runnerRam ∧
  t.fab.keeperRam = s.fab.keeperRam ∧ t.fab.keeperPatch = s.fab.keeperPatch ∧ t.fab.pmem = s.fab.pmem ∧
  t.host.snapArea = s.host.snapArea

theorem SameMemory.refl (s : State) : SameMemory s s := ⟨rfl, rfl, rfl, rfl, rfl, rfl, rfl⟩

theorem SameMemory.trans {s t u : State} (h : SameMemory s t) (g : SameMemory t u) : SameMemory s u := by
  obtain ⟨h1, h2, h3, h4, h5, h6, h7⟩ := h
  obtain ⟨g1, g2, g3, g4, g5, g6, g7⟩ := g
  exact ⟨g1.trans h1, g2.trans h2, g3.trans h3, g4.trans h4, g5.trans h5, g6.trans h6, g7.trans h7⟩

theorem Memory.wf_iff (s : State) : Memory.wf s = true ↔
    Tbl.wf 0 s.fab.cellar = true ∧ Tbl.wf 0 s.fab.netBuf = true ∧ Tbl.wf 0 s.fab.runnerRam = true ∧
    Tbl.wf 0 s.fab.keeperRam = true ∧ Tbl.wf 0 s.fab.keeperPatch = true ∧ Tbl.wf 0 s.fab.pmem = true ∧
    Tbl.wf 0 s.host.snapArea = true := by
  simp [Memory.wf, and_assoc]

theorem SameMemory.wf {s t : State} (h : SameMemory s t) (w : Memory.wf s = true) : Memory.wf t = true := by
  obtain ⟨h1, h2, h3, h4, h5, h6, h7⟩ := h
  rw [Memory.wf_iff] at w ⊢
  rw [h1, h2, h3, h4, h5, h6, h7]
  exact w

theorem Memory.wf_reset : Memory.wf State.reset = true := by decide

/-- The canonical form after a write of the cellar alone. -/
theorem Memory.wf_cellar (s : State) (c : Tbl Byte) (w : Memory.wf s = true) (h : Tbl.wf 0 c = true) :
    Memory.wf { s with fab := { s.fab with cellar := c } } = true := by
  rw [Memory.wf_iff] at w ⊢
  exact ⟨h, w.2⟩

theorem twinPut_wf (a : Alloc) (addr : Nat) (bs : List Byte) (m : Tbl Byte) (h : Tbl.wf 0 m = true) :
    Tbl.wf 0 (twinPut a addr bs m) = true := by
  unfold twinPut
  split
  · exact h
  · generalize bs.zipIdx = l
    induction l generalizing m with
    | nil => exact h
    | cons e l ih =>
      refine ih _ ?_
      dsimp only
      split
      · exact Tbl.wf_put _ _ _ _ h
      · exact h

theorem cellarPut_wf (s : State) (addr : Nat) (bs : List Byte) (w : Memory.wf s = true) :
    Memory.wf (s.cellarPut addr bs) = true := by
  refine Memory.wf_cellar _ _ w ?_
  have h : Tbl.wf 0 (putBytes s.fab.cellar addr bs) = true := wf_putBytes _ _ _ ((Memory.wf_iff s).1 w).1
  generalize s.fab.allocs = l at *
  generalize putBytes s.fab.cellar addr bs = m at h
  induction l generalizing m with
  | nil => exact h
  | cons a l ih => exact ih _ (twinPut_wf _ _ _ _ h)

theorem linePut_wf (s : State) (first count : Nat) (m : Int) (v : A48) (w : Memory.wf s = true) :
    Memory.wf (s.linePut first count m v) = true := by
  unfold State.linePut
  split
  · exact w
  · exact cellarPut_wf _ _ _ w

theorem clearRun_wf (s : State) (first count : Nat) (w : Memory.wf s = true) :
    Memory.wf (s.clearRun first count) = true :=
  Memory.wf_cellar _ _ w (Tbl.wf_drop _ _ _ ((Memory.wf_iff s).1 w).1)

theorem clearAlloc_wf (s : State) (kind index : Nat) (w : Memory.wf s = true) :
    Memory.wf (s.clearAlloc kind index) = true := by
  have clear (s : State) (first count : Nat) (twin : Option Nat) (w : Memory.wf s = true) : Memory.wf
      (match twin with
        | none => s.clearRun first count
        | some t => (s.clearRun first count).clearRun t count) = true := by
    cases twin with
    | none => exact clearRun_wf _ _ _ w
    | some t => exact clearRun_wf _ _ _ (clearRun_wf _ _ _ w)
  unfold State.clearAlloc
  dsimp only
  have hw : Memory.wf (match s.allocOf kind index with
      | none => s
      | some a => match a.twin with
        | none => s.clearRun a.first a.count
        | some t => (s.clearRun a.first a.count).clearRun t a.count) = true := by
    split
    · exact w
    · exact clear _ _ _ _ w
  split
  · exact hw
  · exact clear _ _ _ _ hw

theorem clearStorage_wf (s : State) (o : Nat) (w : Memory.wf s = true) : Memory.wf (s.clearStorage o) = true := by
  unfold State.clearStorage
  split
  · exact clearAlloc_wf _ _ _ w
  · split
    · split
      · exact w
      · exact Memory.wf_cellar _ _ w (Tbl.wf_drop _ _ _ ((Memory.wf_iff s).1 w).1)
    · exact clearAlloc_wf _ _ _ w

/-- A store of the network buffer memory. -/
theorem netBuf_wf (s : State) (addr : Nat) (bs : List Byte) (w : Memory.wf s = true) :
    Memory.wf { s with fab := { s.fab with netBuf := putBytes s.fab.netBuf addr bs } } = true := by
  rw [Memory.wf_iff] at w ⊢
  exact ⟨w.1, wf_putBytes _ _ _ w.2.1, w.2.2⟩

/-- A store of the runners' memory. -/
theorem runnerRam_wf (s : State) (addr : Nat) (bs : List Byte) (w : Memory.wf s = true) :
    Memory.wf { s with fab := { s.fab with runnerRam := putBytes s.fab.runnerRam addr bs } } = true := by
  rw [Memory.wf_iff] at w ⊢
  exact ⟨w.1, w.2.1, wf_putBytes _ _ _ w.2.2.1, w.2.2.2⟩

/-- A store of the keeper's memory. -/
theorem keeperRam_wf (s : State) (addr : Nat) (bs : List Byte) (w : Memory.wf s = true) :
    Memory.wf { s with fab := { s.fab with keeperRam := putBytes s.fab.keeperRam addr bs } } = true := by
  rw [Memory.wf_iff] at w ⊢
  exact ⟨w.1, w.2.1, w.2.2.1, wf_putBytes _ _ _ w.2.2.2.1, w.2.2.2.2⟩

/-- A store of the keeper's patch. -/
theorem keeperPatch_wf (s : State) (addr : Nat) (bs : List Byte) (w : Memory.wf s = true) :
    Memory.wf { s with fab := { s.fab with keeperPatch := putBytes s.fab.keeperPatch addr bs } } = true := by
  rw [Memory.wf_iff] at w ⊢
  exact ⟨w.1, w.2.1, w.2.2.1, w.2.2.2.1, wf_putBytes _ _ _ w.2.2.2.2.1, w.2.2.2.2.2⟩

/-- A change of the movers' program memory. -/
theorem pmem_wf (s : State) (m : Tbl (BitVec 64)) (h : Tbl.wf 0 m = true) (w : Memory.wf s = true) :
    Memory.wf { s with fab := { s.fab with pmem := m } } = true := by
  rw [Memory.wf_iff] at w ⊢
  exact ⟨w.1, w.2.1, w.2.2.1, w.2.2.2.1, w.2.2.2.2.1, h, w.2.2.2.2.2.2⟩

/-- A table keeps its form through a fold of puts. -/
theorem foldl_put_wf {β : Type} (key : β → Nat) (val : Tbl (BitVec 64) → β → BitVec 64) (l : List β)
    (t : Tbl (BitVec 64)) (h : Tbl.wf 0 t = true) :
    Tbl.wf 0 (l.foldl (fun t e => t.put 0 (key e) (val t e)) t) = true := by
  induction l generalizing t with
  | nil => exact h
  | cons e l ih => exact ih _ (Tbl.wf_put _ _ _ _ h)

/-- A store of the snapshot area. -/
theorem snapArea_wf (s : State) (addr : Nat) (bs : List Byte) (w : Memory.wf s = true) :
    Memory.wf { s with host := { s.host with snapArea := putBytes s.host.snapArea addr bs } } = true := by
  rw [Memory.wf_iff] at w ⊢
  exact ⟨w.1, w.2.1, w.2.2.1, w.2.2.2.1, w.2.2.2.2.1, w.2.2.2.2.2.1, wf_putBytes _ _ _ w.2.2.2.2.2.2⟩

theorem wr_sameMemory (s : State) (f : Fld) (v : Nat) : SameMemory s (s.wr f v) := SameMemory.refl s

theorem writeRwl_sameMemory (s : State) (off v : Nat) : SameMemory s (s.writeRwl off v) := by
  unfold State.writeRwl
  split
  · exact SameMemory.refl s
  · rename_i d _ _
    generalize d.fields = l
    induction l generalizing s with
    | nil => exact SameMemory.refl s
    | cons f l ih =>
      simp only [List.foldl]
      split
      · exact (wr_sameMemory s _ _).trans (ih _)
      · exact ih s

theorem configEntry_sameMemory (s : State) (off v : Nat) : SameMemory s (s.configEntry off v) := by
  unfold State.configEntry
  split
  · exact wr_sameMemory s _ _
  · exact writeRwl_sameMemory s _ _

theorem loadSection_wf (s : State) (x : ImgSection) (w : Memory.wf s = true) :
    Memory.wf (s.loadSection x) = true := by
  unfold State.loadSection
  split
  · exact keeperPatch_wf _ _ _ w
  · exact runnerRam_wf _ _ _ w
  · refine SameMemory.wf (wr_sameMemory _ _ _) (pmem_wf _ _ ?_ w)
    exact foldl_put_wf _ _ _ _ ((Memory.wf_iff s).1 w).2.2.2.2.2.1
  · dsimp only
    have h := keeperRam_wf s 0 (x.words.flatMap (leBytes 8)) w
    generalize { s with fab := { s.fab with keeperRam := putBytes s.fab.keeperRam 0 (x.words.flatMap (leBytes 8)) } } = u at h
    generalize x.config = l
    induction l generalizing u with
    | nil => exact h
    | cons e l ih => exact ih _ ((configEntry_sameMemory u _ _).wf h)
  · exact w

theorem lenWrite_sameMemory (s : State) (m r v : Nat) : SameMemory s (s.lenWrite m r v) := by
  unfold State.lenWrite
  dsimp only
  split
  · split <;> exact SameMemory.refl s
  · exact SameMemory.refl s

theorem setArWord_sameMemory (s : State) (m addr : Nat) (v : Word) : SameMemory s (s.setArWord m addr v) := by
  unfold State.setArWord
  dsimp only
  split
  · exact SameMemory.refl s
  · split
    · exact SameMemory.refl s
    · split
      · exact lenWrite_sameMemory _ _ _ _
      · split <;> exact SameMemory.refl s

theorem setMover_sameMemory (s : State) (m : Nat) (x : Mover) : SameMemory s (s.setMover m x) := SameMemory.refl s

theorem ownPut_sameMemory (s : State) (m addr : Nat) (bs : List Byte) : SameMemory s (s.ownPut m addr bs) := by
  have h : ∀ (l : List Nat) (s : State), SameMemory s
      (l.foldl (fun s w => s.setArWord m w (mergeWord (s.arWord m w) w addr bs)) s) := by
    intro l
    induction l with
    | nil => exact SameMemory.refl
    | cons w l ih => exact fun s => (setArWord_sameMemory s _ _ _).trans (ih _)
  exact (h _ s).trans (setMover_sameMemory _ _ _)

/-- A fold of operations that leave the memories leaves them. -/
theorem foldl_sameMemory {β : Type} (f : State → β → State) (h : ∀ s b, SameMemory s (f s b)) (l : List β) (s : State) :
    SameMemory s (l.foldl f s) := by
  induction l generalizing s with
  | nil => exact .refl s
  | cons b l ih => exact (h s b).trans (ih _)

theorem setTile_sameMemory (s : State) (t : Nat) (x : Tile) : SameMemory s (s.setTile t x) := SameMemory.refl s

/-- A mover's store of an element, whichever space it goes to. -/
theorem elemPut_wf (s : State) (m a n v : Nat) (w : Memory.wf s = true) : Memory.wf (s.elemPut m a n v) = true := by
  unfold State.elemPut
  dsimp only
  split
  · exact cellarPut_wf _ _ _ w
  · split
    · split
      · exact w
      · exact ((setTile_sameMemory s _ _).trans (foldl_sameMemory _ (fun s t => setTile_sameMemory s t _) _ _)).wf w
    · split
      · exact SameMemory.wf (SameMemory.refl s) w
      · split
        · exact netBuf_wf _ _ _ w
        · exact (ownPut_sameMemory _ _ _ _).wf w

theorem xTilePut_sameMemory (s : State) (addr : Nat) (b : Byte) (t : Nat) : SameMemory s (s.xTilePut addr b t) :=
  SameMemory.refl s

theorem portBytePut_sameMemory (s : State) (addr : Nat) (b : Byte) : SameMemory s (s.portBytePut addr b) :=
  SameMemory.refl s

theorem xPut_sameMemory (s : State) (addr : Nat) (b : Byte) : SameMemory s (s.xPut addr b) := by
  unfold State.xPut
  split
  · exact .refl s
  · split
    · exact (xTilePut_sameMemory s _ _ _).trans (foldl_sameMemory _ (fun s t => xTilePut_sameMemory s _ _ t) _ _)
    · exact .refl s

/-- What a crossbar write stores, whichever target but the registers it goes to (R228, R230). -/
theorem targetWrite_wf (s : State) (master target addr : Nat) (bs : List Byte) (h : target ≠ 8)
    (w : Memory.wf s = true) : Memory.wf (s.targetWrite master target addr bs) = true := by
  unfold State.targetWrite
  split
  · exact cellarPut_wf _ _ _ w
  · exact snapArea_wf _ _ _ w
  · exact (foldl_sameMemory _ (fun s e => xPut_sameMemory s _ _) _ _).wf w
  · exact (foldl_sameMemory _ (fun s e => portBytePut_sameMemory s _ _) _ _).wf w
  · exact netBuf_wf _ _ _ w
  · exact runnerRam_wf _ _ _ w
  · exact keeperRam_wf _ _ _ w
  · exact absurd rfl h
  · exact pmem_wf _ _ (foldl_put_wf _ _ _ _ ((Memory.wf_iff s).1 w).2.2.2.2.2.1) w
  · exact w

end Sys2Proof.Machine
end

