-- ==== Sys2Proof/Laws/Ops.lean ====
section
/-! SUPPORT. What the shared operations can do: a register write touches one register, completing a descriptor touches
the host interface and the outputs only, and setting an event touches its register, the two registers a lost record
writes, the host interface and the outputs. -/

namespace Sys2Proof.Machine

variable {s t u : State}

/-! ### Registers -/

@[simp] theorem reg_setReg_same (s : State) (o : Nat) (v : Word) : (s.setReg o v).reg o = v := by
  simp [State.reg, State.setReg]

theorem reg_setReg (s : State) (o a : Nat) (v : Word) : (s.setReg o v).reg a = if a = o then v else s.reg a := by
  simp only [State.reg, State.setReg, Tbl.get_insert]

theorem reg_setReg_ne (s : State) {o a : Nat} (v : Word) (h : a ≠ o) : (s.setReg o v).reg a = s.reg a := by
  simp [reg_setReg, h]

theorem reg_wr_ne (s : State) (f : Fld) {a : Nat} (v : Nat) (h : a ≠ f.off) : (s.wr f v).reg a = s.reg a :=
  reg_setReg_ne s _ h

/-- The bits of a number around a field. -/
theorem bitsOf_putBits (x lo w v : Nat) : bitsOf (putBits x lo w v) lo w = v % 2 ^ w := by
  unfold putBits bitsOf
  have hp : 0 < 2 ^ lo := Nat.pos_of_ne_zero (by simp)
  have hw : 0 < 2 ^ w := Nat.pos_of_ne_zero (by simp)
  have hle : x / 2 ^ lo % 2 ^ w * 2 ^ lo ≤ x := by
    calc x / 2 ^ lo % 2 ^ w * 2 ^ lo ≤ x / 2 ^ lo * 2 ^ lo := Nat.mul_le_mul_right _ (Nat.mod_le _ _)
      _ ≤ x := Nat.div_mul_le_self _ _
  rw [Nat.add_mul_div_right _ _ hp, Nat.add_mod]
  have : (x - x / 2 ^ lo % 2 ^ w * 2 ^ lo) / 2 ^ lo = x / 2 ^ lo - x / 2 ^ lo % 2 ^ w := by
    rw [Nat.mul_comm]; exact Nat.sub_mul_div_of_le x (2 ^ lo) _ (by rw [Nat.mul_comm]; exact hle)
  rw [this, Nat.sub_mod_eq_zero_of_mod_eq (by simp)]
  simp

theorem putBits_lt (x lo w v : Nat) (hx : x < 2 ^ 32) (h : lo + w ≤ 32) : putBits x lo w v < 2 ^ 32 := by
  unfold putBits bitsOf
  have hp : 0 < 2 ^ lo := Nat.pos_of_ne_zero (by simp)
  have h1 : v % 2 ^ w < 2 ^ w := Nat.mod_lt _ (Nat.pos_of_ne_zero (by simp))
  -- the number splits as high bits, field, low bits
  have hx' : x = x / 2 ^ lo / 2 ^ w * 2 ^ (lo + w) + x / 2 ^ lo % 2 ^ w * 2 ^ lo + x % 2 ^ lo := by
    have a := Nat.div_add_mod x (2 ^ lo)
    have b := Nat.div_add_mod (x / 2 ^ lo) (2 ^ w)
    rw [Nat.pow_add]
    calc x = 2 ^ lo * (x / 2 ^ lo) + x % 2 ^ lo := a.symm
      _ = 2 ^ lo * (2 ^ w * (x / 2 ^ lo / 2 ^ w) + x / 2 ^ lo % 2 ^ w) + x % 2 ^ lo := by rw [b]
      _ = _ := by rw [Nat.mul_add, Nat.mul_comm _ (2 ^ lo * 2 ^ w), Nat.mul_assoc, Nat.mul_comm (x / 2 ^ lo % 2 ^ w)]
  have hh : x / 2 ^ lo / 2 ^ w < 2 ^ (32 - (lo + w)) := by
    rw [Nat.div_div_eq_div_mul, ← Nat.pow_add, Nat.div_lt_iff_lt_mul (Nat.pos_of_ne_zero (by simp)), ← Nat.pow_add]
    have : 32 - (lo + w) + (lo + w) = 32 := by omega
    rw [this]; exact hx
  have e : (2 : Nat) ^ 32 = 2 ^ (32 - (lo + w)) * 2 ^ (lo + w) := by
    rw [← Nat.pow_add]; congr 1; omega
  have hl : x % 2 ^ lo < 2 ^ lo := Nat.mod_lt _ hp
  have hf : v % 2 ^ w * 2 ^ lo + 2 ^ lo ≤ 2 ^ (lo + w) := by
    rw [Nat.pow_add, Nat.mul_comm (2 ^ lo)]
    calc v % 2 ^ w * 2 ^ lo + 2 ^ lo = (v % 2 ^ w + 1) * 2 ^ lo := by rw [Nat.add_mul, Nat.one_mul]
      _ ≤ 2 ^ w * 2 ^ lo := Nat.mul_le_mul_right _ h1
  have hk : (x / 2 ^ lo / 2 ^ w + 1) * 2 ^ (lo + w) ≤ 2 ^ 32 := by
    rw [e]; exact Nat.mul_le_mul_right _ hh
  have hs : x - x / 2 ^ lo % 2 ^ w * 2 ^ lo = x / 2 ^ lo / 2 ^ w * 2 ^ (lo + w) + x % 2 ^ lo := by omega
  rw [hs]
  have : (x / 2 ^ lo / 2 ^ w + 1) * 2 ^ (lo + w) = x / 2 ^ lo / 2 ^ w * 2 ^ (lo + w) + 2 ^ (lo + w) := by
    rw [Nat.add_mul, Nat.one_mul]
  omega

/-- A field reads what was written to it. -/
theorem rd_wr (s : State) (f : Fld) (v : Nat) (h : f.lo + f.width ≤ 32) : (s.wr f v).rd f = v % 2 ^ f.width := by
  have hlt := putBits_lt (s.reg f.off).toNat f.lo f.width v (s.reg f.off).isLt h
  simp only [State.rd, State.wr, reg_setReg_same, BitVec.toNat_ofNat, Nat.mod_eq_of_lt hlt, bitsOf_putBits]

/-- A field of another register reads as before. -/
theorem rd_wr_off (s : State) (f g : Fld) (v : Nat) (h : g.off ≠ f.off) : (s.wr f v).rd g = s.rd g := by
  simp only [State.rd, reg_wr_ne s f v h]

/-- Writing a field leaves the bits below it. -/
theorem putBits_mod (x lo w v : Nat) : putBits x lo w v % 2 ^ lo = x % 2 ^ lo := by
  unfold putBits bitsOf
  have hle : x / 2 ^ lo % 2 ^ w * 2 ^ lo ≤ x :=
    Nat.le_trans (Nat.mul_le_mul_right _ (Nat.mod_le _ _)) (Nat.div_mul_le_self _ _)
  rw [Nat.add_mul_mod_self_right, Nat.mul_comm, Nat.sub_mul_mod (by rw [Nat.mul_comm]; exact hle)]

/-- Writing a field leaves the bits above it. -/
theorem putBits_div (x lo w v : Nat) : putBits x lo w v / 2 ^ (lo + w) = x / 2 ^ (lo + w) := by
  have hp : 0 < 2 ^ lo := Nat.pos_of_ne_zero (by simp)
  have hw : 0 < 2 ^ w := Nat.pos_of_ne_zero (by simp)
  have hle : x / 2 ^ lo % 2 ^ w * 2 ^ lo ≤ x :=
    Nat.le_trans (Nat.mul_le_mul_right _ (Nat.mod_le _ _)) (Nat.div_mul_le_self _ _)
  unfold putBits bitsOf
  rw [Nat.pow_add, ← Nat.div_div_eq_div_mul, ← Nat.div_div_eq_div_mul, Nat.add_mul_div_right _ _ hp]
  have e : (x - x / 2 ^ lo % 2 ^ w * 2 ^ lo) / 2 ^ lo = x / 2 ^ lo - x / 2 ^ lo % 2 ^ w := by
    rw [Nat.mul_comm]; exact Nat.sub_mul_div_of_le x (2 ^ lo) _ (by rw [Nat.mul_comm]; exact hle)
  rw [e]
  have d := Nat.div_add_mod (x / 2 ^ lo) (2 ^ w)
  have : x / 2 ^ lo - x / 2 ^ lo % 2 ^ w = 2 ^ w * (x / 2 ^ lo / 2 ^ w) := by omega
  rw [this, Nat.mul_comm, Nat.add_comm, Nat.add_mul_div_right _ _ hw, Nat.div_eq_of_lt (Nat.mod_lt _ hw), Nat.zero_add]

theorem bitsOf_below (x lo glo gw : Nat) (h : glo + gw ≤ lo) : bitsOf x glo gw = bitsOf (x % 2 ^ lo) glo gw := by
  unfold bitsOf
  have e : (2 : Nat) ^ lo = 2 ^ glo * 2 ^ (lo - glo) := by rw [← Nat.pow_add]; congr 1; omega
  rw [e, Nat.mod_mul_right_div_self, Nat.mod_mod_of_dvd _ (Nat.pow_dvd_pow 2 (by omega))]

theorem bitsOf_above (x m glo gw : Nat) (h : m ≤ glo) : bitsOf x glo gw = bitsOf (x / 2 ^ m) (glo - m) gw := by
  unfold bitsOf
  rw [Nat.div_div_eq_div_mul, ← Nat.pow_add]
  congr 3; omega

/-- Another field reads as before: it lies in another register, or in other bits. -/
theorem rd_wr_ne (s : State) (f g : Fld) (v : Nat) (hf : f.lo + f.width ≤ 32)
    (h : g.off ≠ f.off ∨ g.lo + g.width ≤ f.lo ∨ f.lo + f.width ≤ g.lo) : (s.wr f v).rd g = s.rd g := by
  by_cases ho : g.off = f.off
  · have hlt := putBits_lt (s.reg f.off).toNat f.lo f.width v (s.reg f.off).isLt hf
    simp only [State.rd, State.wr, ho, reg_setReg_same, BitVec.toNat_ofNat, Nat.mod_eq_of_lt hlt]
    rcases h with h | h | h
    · exact absurd ho h
    · rw [bitsOf_below _ f.lo _ _ h, putBits_mod, ← bitsOf_below _ f.lo _ _ h]
    · rw [bitsOf_above _ _ _ _ h, putBits_div, ← bitsOf_above _ _ _ _ h]
  · exact rd_wr_off s f g v ho

/-! ### What changes only the host interface and the outputs -/

theorem HostOut.refl (s : State) : HostOut s s := rfl

theorem HostOut.trans (h : HostOut s t) (g : HostOut t u) : HostOut s u := by
  unfold HostOut at *
  rw [g, h]

theorem HostOut.reg (h : HostOut s t) (a : Nat) : t.reg a = s.reg a := by
  unfold HostOut at h; rw [h]; rfl

theorem emit_hostOut (s : State) (o : Out) : HostOut s (s.emit o) := rfl

theorem setRing_hostOut (s : State) (r : Nat) (g : Ring) : HostOut s (s.setRing r g) := rfl

theorem setDesc_hostOut (s : State) (r : Nat) (d : Desc) : HostOut s (s.setDesc r d) := rfl

theorem msix_hostOut (s : State) (v : Nat) : HostOut s (s.msix v) := by
  unfold State.msix; dsimp only; split <;> rfl

theorem signalRing_hostOut (s : State) (r : Nat) : HostOut s (s.signalRing r) := by
  unfold State.signalRing; dsimp only
  split
  · exact (setRing_hostOut s r _).trans (msix_hostOut _ _)
  · exact setRing_hostOut s r _

theorem countDone_hostOut (s : State) (r : Nat) (i : Bool) : HostOut s (s.countDone r i) := by
  unfold State.countDone; dsimp only
  split
  · split
    · exact (setRing_hostOut s r _).trans (signalRing_hostOut _ _)
    · exact setRing_hostOut s r _
  · exact .refl s

theorem foldl_hostOut {β : Type} (f : State → β → State) (h : ∀ s b, HostOut s (f s b)) (l : List β) (s : State) :
    HostOut s (l.foldl f s) := by
  induction l generalizing s with
  | nil => exact .refl s
  | cons b l ih => exact (h s b).trans (ih _)

theorem writeBack_hostOut (s : State) (r : Nat) (d : Desc) : HostOut s (s.writeBack r d) := by
  unfold State.writeBack; dsimp only
  refine .trans ?_ (countDone_hostOut _ _ _)
  refine .trans (foldl_hostOut _ (fun s _ => emit_hostOut s _) _ _) (foldl_hostOut _ (fun s _ => emit_hostOut s _) _ _)

theorem flushList_hostOut (r : Nat) (l : List Desc) (s : State) : HostOut s (flushList r l s) := by
  induction l generalizing s with
  | nil => exact .refl s
  | cons d l ih =>
    unfold flushList
    split
    · exact ((setRing_hostOut s r _).trans (writeBack_hostOut _ r d)).trans (ih _)
    · exact .refl s

theorem flushRing_hostOut (s : State) (r : Nat) : HostOut s (s.flushRing r) := by
  unfold State.flushRing; split
  · exact flushList_hostOut r _ s
  · exact .refl s

theorem complete_hostOut (s : State) (r id code xfer detail : Nat) (wb : List (Nat × Word)) :
    HostOut s (s.complete r id code xfer detail wb) := by
  unfold State.complete; dsimp only
  exact (setRing_hostOut s r _).trans (flushRing_hostOut _ r)

@[simp] theorem setRing_ring (s : State) (r : Nat) (g : Ring) : (s.setRing r g).ring r = g := by
  simp [State.setRing, State.ring]

theorem setRing_ring_ne (s : State) {r q : Nat} (g : Ring) (h : q ≠ r) : (s.setRing r g).ring q = s.ring q := by
  simp [State.setRing, State.ring, Tbl.get_insert, h]

@[simp] theorem emit_ring (s : State) (o : Out) (q : Nat) : (s.emit o).ring q = s.ring q := rfl

@[simp] theorem msix_ring (s : State) (v q : Nat) : (s.msix v).ring q = s.ring q := by
  unfold State.msix; dsimp only; split <;> rfl

theorem msix_outs (s : State) (v : Nat) : s.outs <+: (s.msix v).outs := by
  unfold State.msix; dsimp only
  split
  · exact List.prefix_append _ _
  · exact List.prefix_rfl

theorem signalRing_outs (s : State) (r : Nat) : s.outs <+: (s.signalRing r).outs := by
  unfold State.signalRing; dsimp only
  split
  · refine List.IsPrefix.trans ?_ (msix_outs _ _)
    exact List.prefix_rfl
  · exact List.prefix_rfl

theorem signalRing_descs (s : State) (r : Nat) : ((s.signalRing r).ring r).descs = (s.ring r).descs := by
  unfold State.signalRing; dsimp only; split <;> simp

theorem signalRing_ring_ne (s : State) {r q : Nat} (h : q ≠ r) : (s.signalRing r).ring q = s.ring q := by
  unfold State.signalRing; dsimp only; split <;> simp [setRing_ring_ne _ _ h]

theorem countDone_outs (s : State) (r : Nat) (i : Bool) : s.outs <+: (s.countDone r i).outs := by
  unfold State.countDone; dsimp only
  split
  · split
    · refine List.IsPrefix.trans ?_ (signalRing_outs _ _)
      exact List.prefix_rfl
    · exact List.prefix_rfl
  · exact List.prefix_rfl

theorem countDone_descs (s : State) (r : Nat) (i : Bool) : ((s.countDone r i).ring r).descs = (s.ring r).descs := by
  unfold State.countDone; dsimp only
  split
  · split <;> simp [signalRing_descs]
  · rfl

theorem countDone_ring_ne (s : State) {r q : Nat} (i : Bool) (h : q ≠ r) : (s.countDone r i).ring q = s.ring q := by
  unfold State.countDone; dsimp only
  split
  · split <;> simp [signalRing_ring_ne _ h, setRing_ring_ne _ _ h]
  · rfl

theorem foldl_emit {β : Type} (f : State → β → Out) (g : β → Out) (l : List β) (s : State)
    (hf : ∀ s' b, s'.regs = s.regs → f s' b = g b) :
    l.foldl (fun s b => s.emit (f s b)) s = { s with outs := s.outs ++ l.map g } := by
  induction l generalizing s with
  | nil => simp
  | cons b l ih =>
    rw [List.foldl_cons, ih (s.emit (f s b)) (fun s' c h => hf s' c h), hf s b rfl]
    simp [State.emit]

/-- The writes that a write-back makes, and nothing else but messages: the ring keeps its descriptors. -/
theorem writeBack_writes (s : State) (r : Nat) (d : Desc) :
    (s.outs ++ d.wb.map (fun e => Out.hostWrite (s.entryAddr r d.index + 4 * e.1) (leBytes 4 e.2.toNat)) ++
      d.segs.zipIdx.map (fun e => Out.hostWrite (s.entryAddr r (d.index + e.2))
        (doneWords (e.1.headD 0) d.code d.xfer d.detail))) <+: (s.writeBack r d).outs ∧
    ((s.writeBack r d).ring r).descs = (s.ring r).descs ∧ ∀ q, q ≠ r → (s.writeBack r d).ring q = s.ring q := by
  have ea : ∀ (s s' : State) i, s'.regs = s.regs → s'.entryAddr r i = s.entryAddr r i := by
    intro s s' i h
    simp only [State.entryAddr, State.ringSize, State.rd64, State.rd, State.reg, h]
  unfold State.writeBack
  dsimp only
  rw [foldl_emit (fun _ e => Out.hostWrite (s.entryAddr r d.index + 4 * e.1) (leBytes 4 e.2.toNat))
      (fun e => Out.hostWrite (s.entryAddr r d.index + 4 * e.1) (leBytes 4 e.2.toNat)) d.wb s (fun _ _ _ => rfl),
    foldl_emit (fun (s' : State) (e : List Word × Nat) => Out.hostWrite (s'.entryAddr r (d.index + e.2)) (doneWords (e.1.headD 0) d.code d.xfer d.detail))
      (fun (e : List Word × Nat) => Out.hostWrite (s.entryAddr r (d.index + e.2))
        (doneWords (e.1.headD 0) d.code d.xfer d.detail)) _ _
      (fun s' b h => by rw [ea s s' _ h])]
  refine ⟨List.IsPrefix.trans ?_ (countDone_outs _ _ _), ?_, fun q hq => ?_⟩
  · exact List.prefix_rfl
  · rw [countDone_descs]; rfl
  · rw [countDone_ring_ne _ _ hq]; rfl

theorem flushList_outs (r : Nat) (l : List Desc) (s : State) : s.outs <+: (flushList r l s).outs := by
  induction l generalizing s with
  | nil => exact List.prefix_rfl
  | cons d l ih =>
    unfold flushList
    split
    · refine List.IsPrefix.trans ?_ (ih _)
      have h := (writeBack_writes (s.setRing r { s.ring r with descs := l }) r d).1
      rw [List.append_assoc] at h
      exact List.IsPrefix.trans (List.prefix_append _ _) h
    · exact List.prefix_rfl

theorem flushList_ring_ne (r : Nat) (l : List Desc) (s : State) {q : Nat} (h : q ≠ r) :
    (flushList r l s).ring q = s.ring q := by
  induction l generalizing s with
  | nil => rfl
  | cons d l ih =>
    unfold flushList
    split
    · rw [ih, (writeBack_writes _ r d).2.2 q h, setRing_ring_ne _ _ h]
    · rfl

theorem flushList_descs (r : Nat) (l : List Desc) (s : State) (h : (s.ring r).descs = l) :
    ((flushList r l s).ring r).descs <:+ l := by
  induction l generalizing s with
  | nil => unfold flushList; exact ⟨[], h⟩
  | cons d l ih =>
    unfold flushList
    split
    · refine List.IsSuffix.trans (ih _ ?_) (List.suffix_cons d l)
      rw [(writeBack_writes _ r d).2.1, setRing_ring]
    · exact ⟨[], h⟩

/-- A descriptor at the head of its ring that completes is written back. -/
theorem complete_head (s : State) (r : Nat) (d : Desc) (rest : List Desc) (code xfer detail : Nat)
    (wb : List (Nat × Word)) (hd : (s.ring r).descs = d :: rest) (hb : s.on Reg.HST_STATUS_bme = true) :
    HeadCompletes r d rest code xfer detail wb s (s.complete r d.id code xfer detail wb) := by
  refine ⟨complete_hostOut _ _ _ _ _ _ _, ?_, ?_, ?_⟩
  all_goals
    unfold State.complete State.flushRing
    dsimp only
    rw [if_pos (show (s.setRing r _).on Reg.HST_STATUS_bme = true from hb), setRing_ring, hd, List.map_cons, if_pos rfl]
    unfold flushList
    rw [if_pos rfl]
  · refine List.IsPrefix.trans ?_ (flushList_outs _ _ _)
    refine List.IsPrefix.trans ?_ (writeBack_writes _ r _).1
    exact List.prefix_rfl
  · refine flushList_descs _ _ _ ?_
    rw [(writeBack_writes _ r _).2.1, setRing_ring]
  · intro q hq
    rw [flushList_ring_ne _ _ _ hq, (writeBack_writes _ r _).2.2 q hq, setRing_ring_ne _ _ hq, setRing_ring_ne _ _ hq]

/-- A descriptor that completes without an effect; only a COMMIT shows in a register too (R176, R190). -/
theorem completeXfer_hostOut (s : State) (r : Nat) (d : Desc) (x : Nat) :
    HostOut (if d.type = 3 then s.noteCommit r (bitsOf (d.word 0) 18 2) 0x10 else s) (s.completeXfer r d x) := by
  unfold State.completeXfer; dsimp only
  generalize (if d.type = 3 then s.noteCommit r (bitsOf (d.word 0) 18 2) 0x10 else s) = u
  split <;> exact complete_hostOut _ _ _ _ _ _ _

theorem deliver_hostOut (s : State) (r : Nat) (d : Desc) (data : List Byte) (wb : List (Nat × Word)) :
    HostOut s (s.deliver r d data wb) := by
  unfold State.deliver; dsimp only
  exact (emit_hostOut s _).trans (complete_hostOut _ _ _ _ _ _ _)

theorem stampEvent_hostOut (s : State) (c : Nat) : HostOut s (s.stampEvent c) := rfl

theorem eventRecord_hostOut (s : State) (c : Nat) (h : s.eventRecord c = some t) : HostOut s t := by
  unfold State.eventRecord at h; dsimp only at h
  split at h
  · cases h
  · simp only [Option.some.injEq] at h
    subst h
    have : ∀ n, HostOut s { s with host := { s.host with lost := n } } := fun _ => rfl
    exact (this _).trans (complete_hostOut _ _ _ _ _ _ _)

theorem HostOut.rd (h : HostOut s t) (f : Fld) : t.rd f = s.rd f := by
  simp only [State.rd, h.reg]

/-! ### Events -/

theorem Noticed.refl (l : List Nat) (s : State) : Noticed l s s := ⟨rfl, fun _ _ => rfl⟩

theorem Noticed.trans {l : List Nat} (h : Noticed l s t) (g : Noticed l t u) : Noticed l s u := by
  refine ⟨?_, fun a ha => (g.2 a ha).trans (h.2 a ha)⟩
  have h := h.1
  have g := g.1
  rw [g, h]

theorem Noticed.mono {l m : List Nat} (h : Noticed l s t) (g : ∀ a, a ∈ l → a ∈ m) : Noticed m s t := by
  refine ⟨h.1, fun a ha => h.2 a (fun x => ha ?_)⟩
  rcases List.mem_append.mp x with x | x
  · exact List.mem_append_left _ (g a x)
  · exact List.mem_append_right _ x

theorem HostOut.noticed (l : List Nat) (h : HostOut s t) : Noticed l s t := by
  refine ⟨?_, fun a _ => h.reg a⟩
  unfold HostOut at h
  rw [h]

theorem setReg_noticed (l : List Nat) (s : State) (o : Nat) (v : Word)
    (ho : o ∈ l ++ [Reg.HST_EVENT_ev.off, Reg.HST_EVT_DROP_count.off]) : Noticed l s (s.setReg o v) :=
  ⟨rfl, fun _ ha => reg_setReg_ne s v (fun e => ha (e ▸ ho))⟩

theorem eventLost_noticed (l : List Nat) (s : State) : Noticed l s s.eventLost := by
  have : HostOut s { s with host := { s.host with lost := s.host.lost + 1 } } := rfl
  exact (this.noticed l).trans (setReg_noticed l _ _ _ (by simp))

theorem raise_noticed (l : List Nat) (s : State) (c : Nat) : Noticed l s (s.raise c) := by
  unfold State.raise; dsimp only
  split
  · split
    · exact (eventRecord_hostOut s c ‹_›).noticed l
    · refine (eventLost_noticed l s).trans ?_
      split
      · exact .refl l _
      · refine (show Noticed l s.eventLost (s.eventLost.setBit Reg.HST_EVENT_ev.off evtDropBit) from
          setReg_noticed l _ _ _ (by simp)).trans
          (((stampEvent_hostOut _ (9 * 256 + evtDropBit)).noticed l).trans ?_)
        split
        · split
          · exact (eventRecord_hostOut _ _ ‹_›).noticed l
          · exact eventLost_noticed l _
        · exact .refl l _
  · exact (msix_hostOut s _).noticed l

theorem setEvent_noticed (s : State) (ev : Fld) (b : Nat) : Noticed [ev.off] s (s.setEvent ev b) := by
  unfold State.setEvent; dsimp only
  split
  · exact .refl _ s
  · refine (show Noticed [ev.off] s (s.setBit ev.off b) from setReg_noticed _ _ _ _ (by simp)).trans ?_
    split
    · exact .refl _ _
    · split
      · exact ((stampEvent_hostOut _ _).noticed _).trans (raise_noticed _ _ _)
      · exact (stampEvent_hostOut _ _).noticed _

theorem setEventIf_noticed (s : State) (c : Bool) (ev : Fld) (b : Nat) : Noticed [ev.off] s (s.setEventIf c ev b) := by
  unfold State.setEventIf; split
  · exact setEvent_noticed s ev b
  · exact .refl _ s

theorem Noticed.rd {l : List Nat} (h : Noticed l s t) (f : Fld)
    (hf : f.off ∉ l ++ [Reg.HST_EVENT_ev.off, Reg.HST_EVT_DROP_count.off]) : t.rd f = s.rd f := by
  simp only [State.rd, h.2 _ hf]

theorem setEvent_rd (s : State) (ev f : Fld) (b : Nat)
    (hf : f.off ∉ [ev.off, Reg.HST_EVENT_ev.off, Reg.HST_EVT_DROP_count.off]) : (s.setEvent ev b).rd f = s.rd f :=
  (setEvent_noticed s ev b).rd f hf

/-- Raising an event leaves every bit of HST_EVENT that was 1. -/
theorem raise_hstEvent (s : State) (c b : Nat) (h : (s.reg Reg.HST_EVENT_ev.off).getLsbD b = true) :
    ((s.raise c).reg Reg.HST_EVENT_ev.off).getLsbD b = true := by
  have lost : ∀ s : State, s.eventLost.reg Reg.HST_EVENT_ev.off = s.reg Reg.HST_EVENT_ev.off := fun s =>
    reg_wr_ne _ _ _ (by decide)
  unfold State.raise; dsimp only
  split
  · split
    · rw [(eventRecord_hostOut s c ‹_›).reg]; exact h
    · split
      · rw [lost]; exact h
      · have k : (((s.eventLost.setBit Reg.HST_EVENT_ev.off evtDropBit).stampEvent (9 * 256 + evtDropBit)).reg
            Reg.HST_EVENT_ev.off).getLsbD b = true := by
          rw [(stampEvent_hostOut _ _).reg]
          simp [State.setBit, lost, h]
        split
        · split
          · rw [(eventRecord_hostOut _ _ ‹_›).reg]; exact k
          · rw [lost]; exact k
        · exact k
  · rw [(msix_hostOut s _).reg]; exact h

/-- The event bit reads 1 afterwards. -/
theorem setEvent_bit (s : State) (ev : Fld) (b : Nat) (hb : b < 32) (hd : ev.off ≠ Reg.HST_EVT_DROP_count.off) :
    ((s.setEvent ev b).reg ev.off).getLsbD b = true := by
  unfold State.setEvent; dsimp only
  split
  · assumption
  · have k : ((s.setBit ev.off b).reg ev.off).getLsbD b = true := by
      simp [State.setBit, hb]
    split
    · exact k
    · split
      · by_cases e : ev.off = Reg.HST_EVENT_ev.off
        · rw [e] at k ⊢
          refine raise_hstEvent _ _ _ ?_
          rw [(stampEvent_hostOut _ _).reg]; exact k
        · rw [(raise_noticed [] _ _).2 ev.off (by simp [e, hd]), (stampEvent_hostOut _ _).reg]
          exact k
      · rw [(stampEvent_hostOut _ _).reg]; exact k

end Sys2Proof.Machine
end

