-- ==== Sys2Proof/Laws/Tile.lean ====
section
/-! SUPPORT. The shared operations of a tile's processor: accumulators, data registers, stores, and what a command of
the processor leaves. -/

namespace Sys2Proof.Machine

theorem whenWf_next {i : Instr} (h : i.wf = true) (t : State) : whenWf i t = .next t := by simp [whenWf, h]

@[simp] theorem setTile_tileAt (s : State) (n : Nat) (k : Tile) : (s.setTile n k).tileAt n = k := by
  simp [State.setTile, State.tileAt]

theorem setTile_tileAt_ne (s : State) {n m : Nat} (k : Tile) (h : m ≠ n) : (s.setTile n k).tileAt m = s.tileAt m := by
  simp [State.setTile, State.tileAt, Tbl.get_insert, h]

@[simp] theorem setTile_setTile (s : State) (n : Nat) (k m : Tile) : (s.setTile n k).setTile n m = s.setTile n m := by
  simp [State.setTile]

theorem setAcc_only (k : Tile) (a : Nat) (v : Acc) : AccOnly a k (k.setAcc a v) := by
  refine ⟨rfl, fun b hb => ?_⟩
  simp [Tile.accAt, Tile.setAcc, Tbl.get_put, hb]

@[simp] theorem setAcc_accAt (k : Tile) (a : Nat) (v : Acc) : (k.setAcc a v).accAt a = v := by
  simp [Tile.accAt, Tile.setAcc]

theorem setAcc_accAt_ne (k : Tile) {a b : Nat} (v : Acc) (h : b ≠ a) : (k.setAcc a v).accAt b = k.accAt b :=
  (setAcc_only k a v).2 b h

theorem setD_only (k : Tile) (d : Nat) (v : A48) : DregOnly d k (k.setD d v) := by
  refine ⟨rfl, fun b hb => ?_⟩
  simp [Tile.dreg, Tile.setD, Tbl.get_put, hb]

@[simp] theorem setD_dreg (k : Tile) (d : Nat) (v : A48) : (k.setD d v).dreg d = v := by
  simp [Tile.dreg, Tile.setD]

@[simp] theorem src_acc (pg : Nat → A48) (k : Tile) (x : Src) : (k.src pg x).2.2.acc = k.acc := by
  cases x <;> rfl

/-- `Acc.plus` is one addition of R32 and R36. -/
theorem plus_adds (e : Int) (a : Acc) : Adds e a (a.plus e) := by
  unfold Adds Acc.plus Acc.val
  generalize a.v.toInt + e = x
  dsimp only
  refine ⟨rfl, rfl, fun h => ?_, fun h => ?_, fun h => ?_⟩
  · have h1 : decide (x ≥ 2 ^ 111) = false := decide_eq_false (by omega)
    have h2 : decide (x < -(2 ^ 111)) = false := decide_eq_false (by omega)
    rw [h1, h2]; simp
  · have h1 : decide (x ≥ 2 ^ 111) = true := decide_eq_true h
    have h2 : decide (x < 0) = false := decide_eq_false (by omega)
    rw [h1, h2]; cases a.ovg <;> simp
  · have h1 : decide (x < -(2 ^ 111)) = true := decide_eq_true h
    have h2 : decide (x < 0) = true := decide_eq_true (by omega)
    rw [h1, h2]; cases a.ovg <;> simp

/-- `convRound` rounds half to even. -/
theorem convRound_rounds (k : Nat) (hk : 0 < k) (v : Int) : Rounds k v (convRound v k) := by
  have hp : (2 : Int) ^ k = 2 * 2 ^ (k - 1) := by
    conv => lhs; rw [show k = k - 1 + 1 by omega, Int.pow_succ]
    omega
  have hpos : (0 : Int) < 2 ^ (k - 1) := Int.pow_pos (by decide)
  unfold Rounds convRound
  dsimp only
  generalize (2 : Int) ^ (k - 1) = h at *
  rw [hp]
  have e := Int.emod_add_mul_ediv v (2 * h)
  have l := Int.emod_lt_of_pos v (show 0 < 2 * h by omega)
  have p := Int.emod_nonneg v (show 2 * h ≠ 0 by omega)
  rw [Int.mul_comm (2 * h)] at e
  generalize v / (2 * h) = q at *
  have m : (q + 1) * (2 * h) = q * (2 * h) + 2 * h := by rw [Int.add_mul, Int.one_mul]
  split
  · rw [m]; generalize q * (2 * h) = P at *; omega
  · generalize q * (2 * h) = P at *; omega

/-- `Acc.store` is a store of R38. -/
theorem store_stores (a : Acc) (k w : Nat) (hk : 0 < k) (lo hi : Int) (sat : Bool) :
    StoresAs k w lo hi sat a (a.store k w lo hi sat).1 (a.store k w lo hi sat).2 := by
  refine ⟨convRound a.val k, convRound_rounds k hk _, ?_, ?_⟩
  · intro h; subst h
    unfold Acc.store; dsimp only
    cases hg : a.ovg
    · simp only [Bool.false_eq_true, if_false, if_true]
      split
      · refine ⟨rfl, by simp, fun _ => ?_⟩
        split
        · simp [*]
        · have : convRound a.val k < lo := by omega
          simp [*]
      · refine ⟨rfl, by simp, fun _ => ?_⟩
        rw [if_neg (by omega), if_neg (by omega)]
    · simp
  · intro h; subst h
    unfold Acc.store; dsimp only
    cases hg : a.ovg
    · simp only [Bool.false_eq_true, if_false]
      split
      · refine ⟨rfl, ?_⟩
        have : (decide (convRound a.val k < lo) || decide (convRound a.val k > hi)) = true := by simpa using ‹_›
        simp [Bool.or_assoc, this]
      · refine ⟨rfl, ?_⟩
        have h1 : decide (convRound a.val k < lo) = false := by simp; omega
        have h2 : decide (convRound a.val k > hi) = false := by simp; omega
        rw [h1, h2]; simp; cases a; simp_all
    · simp

/-- Signed products in order are additions in order. -/
theorem maccs_runs (pg : Nat → A48) (l : List (Nat × Bool × Prod)) (k : Tile) :
    TermsRun pg l k (k.maccs pg l).2 (k.maccs pg l).1 := by
  induction l generalizing k with
  | nil => exact ⟨rfl, rfl⟩
  | cons p r ih =>
    obtain ⟨a, neg, p⟩ := p
    refine ⟨k.macc pg a neg p, _, setAcc_only _ a _, ?_, ih _, rfl⟩
    simp only [Tile.macc, Tile.accum, setAcc_accAt]
    exact plus_adds _ _

/-- An operation of a tile whose processing runs (R27, R63). -/
theorem onTile_runs (s : State) (n : Nat) (f : Tile → Tile) (h : s.tileRuns n = true) :
    s.onTile n f = s.setTile n (f (s.tileAt n)) := by
  simp [State.onTile, h]

/-- An operation of a tile that is halted or has no clock changes nothing. -/
theorem onTile_stands (s : State) (n : Nat) (f : Tile → Tile) (h : s.tileRuns n = false) : s.onTile n f = s := by
  simp [State.onTile, h]

/-- The new tile is stored, and ag_fault is set where an access used a reserved code. -/
theorem agFaultIf_becomes (s : State) (n : Nat) (k : Tile) (b : Bool) :
    TileBecomes n k b s ((s.setTile n k).agFaultIf b) := by
  unfold TileBecomes State.agFaultIf State.setEventIf
  cases b
  · rfl
  · exact ⟨setEvent_noticed _ _ _, setEvent_bit _ _ _ (by decide) (by decide)⟩

end Sys2Proof.Machine
end

