-- ==== Sys2Proof/Tests/Slice0.lean ====
section
/-! SUPPORT. Checks of the model: ill-formed commands are refused, single steps give what the spec says, and every statement
for the provers has states that meet its hypotheses. -/

set_option Elab.async false

namespace Sys2Proof.Tests

open Sys2Proof Sys2Proof.Machine

/-! ### Operands of commands that need one -/

def noHop : CascHop := ⟨none, none⟩
def noSub : SubFrame := ⟨false, 0, false, false, false, true⟩
def noFrame : CascFrame := ⟨0, 0, 0, ⟨[], [], 0, 0, none⟩, [], [], []⟩

/-- A header whose checks all pass, with a section of the runners' code. -/
def goodImage : ImageSrc where
  answers := true
  magic := 0x3639454B
  hdrVer := 1
  nsec := 1
  image := { sv := 5, fwVer := 7, keySlot := 0, vendor := 0x1111, subVendor := 0x2222, subId := 0x3333, hash := 9 }
  keyHash := 42
  sigOk := true
  sections := [{ kind := 2, offset := 4096, length := 8, hashOk := true, words := [0x1234], config := [] }]
  size := 0x800000

/-- An image that the flash does not answer for. -/
def noImage : ImageSrc := { goodImage with answers := false }

def boot : BootSrc := ⟨goodImage, noImage, ⟨[], []⟩⟩
def noBoot : BootSrc := ⟨noImage, noImage, ⟨[], []⟩⟩

def illFormed1 : List Instr := [
  .registerWrite .host 0x100000 0,
  .registerWrite (.runner 9) 0 0,
  .registerWrite .host 2 0,
  .unsupportedAccess 0 0 false,
  .unsupportedAccess 0 0 false,
  .unsupportedAccess 0xFFFFF 2 false,
  .pairLoRead 0x100000,
  .pairLoRead 2,
  .pairHiWrite .host 0x100000 0,
  .pairHiWrite (.runner 9) 0 0,
  .pairHiWrite .host 2 0,
  .msixTableAccess 0x408 4 false 0,
  .msixTableAccess 0 2 false 0,
  .msixTableAccess 4 8 false 0,
  .bar4Access 0 0 false [] [] 0,
  .bar4Access 0 4097 false [] [] 0,
  .bar4Access 0xFFFFFFF 4 false [] [] 0,
  .bar4Access 0 4 true [0, 0] [] 0,
  .configRequest (.barRead 6),
  .configRequest (.barWrite 6 0),
  .eventEnableWrite 0x100000 0,
  .eventEnableWrite 2 0,
  .exchangeWindow [(0x6000000, 0, .ok)],
  .exchangeWindow [(0, 16, .ok)],
  .placedProcessing 36,
  .checkerCompare 4 false,
  .tileOverrun 36,
  .clr 36 0,
  .clr 0 8,
  .ld 36 0 (.reg .a48 1)]

theorem test_wf_refuses_1 : illFormed1.all (fun c => !c.wf) = true := by decide +kernel

def illFormed2 : List Instr := [
  .ld 0 8 (.reg .a48 1),
  .ld 0 0 (.reg .a48 16),
  .ld 0 0 (.mem .a48 8),
  .accAdd 36 0 (.reg .a48 1),
  .accAdd 0 8 (.reg .a48 1),
  .accAdd 0 0 (.reg .a48 16),
  .accAdd 0 0 (.mem .a48 8),
  .accSub 36 0 (.reg .a48 1),
  .accSub 0 8 (.reg .a48 1),
  .accSub 0 0 (.reg .a48 16),
  .accSub 0 0 (.mem .a48 8),
  .mac 36 0 ⟨.reg .a48 1, .reg .a48 2⟩,
  .mac 0 8 ⟨.reg .a48 1, .reg .a48 2⟩,
  .mac 0 0 ⟨.reg .d32 1, .reg .d32 2⟩,
  .mac 0 0 ⟨.reg .a48 16, .reg .a48 2⟩,
  .mac 0 0 ⟨.reg .a48 1, .mem .a48 8⟩,
  .mac 0 0 ⟨.x64 0, .reg .a48 2⟩,
  .msu 36 0 ⟨.reg .a48 1, .reg .a48 2⟩,
  .msu 0 8 ⟨.reg .a48 1, .reg .a48 2⟩,
  .msu 0 0 ⟨.reg .d32 1, .reg .d32 2⟩,
  .msu 0 0 ⟨.reg .a48 16, .reg .a48 2⟩,
  .msu 0 0 ⟨.reg .a48 1, .mem .a48 8⟩,
  .msu 0 0 ⟨.x64 0, .reg .a48 2⟩,
  .mac4 36 0 ⟨false, ⟨.reg .a48 1, .reg .a48 2⟩⟩ ⟨false, ⟨.reg .a48 1, .reg .a48 2⟩⟩ ⟨false, ⟨.reg .a48 1, .reg .a48 2⟩⟩ ⟨false, ⟨.reg .a48 1, .reg .a48 2⟩⟩,
  .mac4 0 8 ⟨false, ⟨.reg .a48 1, .reg .a48 2⟩⟩ ⟨false, ⟨.reg .a48 1, .reg .a48 2⟩⟩ ⟨false, ⟨.reg .a48 1, .reg .a48 2⟩⟩ ⟨false, ⟨.reg .a48 1, .reg .a48 2⟩⟩,
  .mac4 0 0 ⟨false, ⟨.reg .c48 1, .reg .c48 2⟩⟩ ⟨false, ⟨.reg .a48 1, .reg .a48 2⟩⟩ ⟨false, ⟨.reg .a48 1, .reg .a48 2⟩⟩ ⟨false, ⟨.reg .a48 1, .reg .a48 2⟩⟩,
  .mac4 0 0 ⟨false, ⟨.reg .a48 1, .reg .a48 2⟩⟩ ⟨false, ⟨.reg .c48 1, .reg .c48 2⟩⟩ ⟨false, ⟨.reg .a48 1, .reg .a48 2⟩⟩ ⟨false, ⟨.reg .a48 1, .reg .a48 2⟩⟩,
  .mac4 0 0 ⟨false, ⟨.reg .a48 1, .reg .a48 2⟩⟩ ⟨false, ⟨.reg .a48 1, .reg .a48 2⟩⟩ ⟨false, ⟨.reg .c48 1, .reg .c48 2⟩⟩ ⟨false, ⟨.reg .a48 1, .reg .a48 2⟩⟩,
  .mac4 0 0 ⟨false, ⟨.reg .a48 1, .reg .a48 2⟩⟩ ⟨false, ⟨.reg .a48 1, .reg .a48 2⟩⟩ ⟨false, ⟨.reg .a48 1, .reg .a48 2⟩⟩ ⟨false, ⟨.reg .c48 1, .reg .c48 2⟩⟩,
  .macPar 36 0 ⟨false, ⟨.reg .a48 1, .reg .a48 2⟩⟩ 1 ⟨false, ⟨.reg .a48 1, .reg .a48 2⟩⟩ 2 ⟨false, ⟨.reg .a48 1, .reg .a48 2⟩⟩ 3 ⟨false, ⟨.reg .a48 1, .reg .a48 2⟩⟩]

theorem test_wf_refuses_2 : illFormed2.all (fun c => !c.wf) = true := by decide +kernel

def illFormed3 : List Instr := [
  .macPar 0 8 ⟨false, ⟨.reg .a48 1, .reg .a48 2⟩⟩ 1 ⟨false, ⟨.reg .a48 1, .reg .a48 2⟩⟩ 2 ⟨false, ⟨.reg .a48 1, .reg .a48 2⟩⟩ 3 ⟨false, ⟨.reg .a48 1, .reg .a48 2⟩⟩,
  .macPar 0 0 ⟨false, ⟨.reg .a48 1, .reg .a48 2⟩⟩ 8 ⟨false, ⟨.reg .a48 1, .reg .a48 2⟩⟩ 2 ⟨false, ⟨.reg .a48 1, .reg .a48 2⟩⟩ 3 ⟨false, ⟨.reg .a48 1, .reg .a48 2⟩⟩,
  .macPar 0 0 ⟨false, ⟨.reg .a48 1, .reg .a48 2⟩⟩ 1 ⟨false, ⟨.reg .a48 1, .reg .a48 2⟩⟩ 8 ⟨false, ⟨.reg .a48 1, .reg .a48 2⟩⟩ 3 ⟨false, ⟨.reg .a48 1, .reg .a48 2⟩⟩,
  .macPar 0 0 ⟨false, ⟨.reg .a48 1, .reg .a48 2⟩⟩ 1 ⟨false, ⟨.reg .a48 1, .reg .a48 2⟩⟩ 2 ⟨false, ⟨.reg .a48 1, .reg .a48 2⟩⟩ 8 ⟨false, ⟨.reg .a48 1, .reg .a48 2⟩⟩,
  .macPar 0 0 ⟨false, ⟨.reg .c48 1, .reg .c48 2⟩⟩ 1 ⟨false, ⟨.reg .a48 1, .reg .a48 2⟩⟩ 2 ⟨false, ⟨.reg .a48 1, .reg .a48 2⟩⟩ 3 ⟨false, ⟨.reg .a48 1, .reg .a48 2⟩⟩,
  .macPar 0 0 ⟨false, ⟨.reg .a48 1, .reg .a48 2⟩⟩ 1 ⟨false, ⟨.reg .c48 1, .reg .c48 2⟩⟩ 2 ⟨false, ⟨.reg .a48 1, .reg .a48 2⟩⟩ 3 ⟨false, ⟨.reg .a48 1, .reg .a48 2⟩⟩,
  .macPar 0 0 ⟨false, ⟨.reg .a48 1, .reg .a48 2⟩⟩ 1 ⟨false, ⟨.reg .a48 1, .reg .a48 2⟩⟩ 2 ⟨false, ⟨.reg .c48 1, .reg .c48 2⟩⟩ 3 ⟨false, ⟨.reg .a48 1, .reg .a48 2⟩⟩,
  .macPar 0 0 ⟨false, ⟨.reg .a48 1, .reg .a48 2⟩⟩ 1 ⟨false, ⟨.reg .a48 1, .reg .a48 2⟩⟩ 2 ⟨false, ⟨.reg .a48 1, .reg .a48 2⟩⟩ 3 ⟨false, ⟨.reg .c48 1, .reg .c48 2⟩⟩,
  .macPar 0 0 ⟨false, ⟨.reg .a48 1, .reg .a48 2⟩⟩ 0 ⟨false, ⟨.reg .a48 1, .reg .a48 2⟩⟩ 2 ⟨false, ⟨.reg .a48 1, .reg .a48 2⟩⟩ 3 ⟨false, ⟨.reg .a48 1, .reg .a48 2⟩⟩,
  .macPar 0 0 ⟨false, ⟨.reg .a48 1, .reg .a48 2⟩⟩ 1 ⟨false, ⟨.reg .a48 1, .reg .a48 2⟩⟩ 0 ⟨false, ⟨.reg .a48 1, .reg .a48 2⟩⟩ 3 ⟨false, ⟨.reg .a48 1, .reg .a48 2⟩⟩,
  .macPar 0 0 ⟨false, ⟨.reg .a48 1, .reg .a48 2⟩⟩ 1 ⟨false, ⟨.reg .a48 1, .reg .a48 2⟩⟩ 2 ⟨false, ⟨.reg .a48 1, .reg .a48 2⟩⟩ 0 ⟨false, ⟨.reg .a48 1, .reg .a48 2⟩⟩,
  .macPar 0 0 ⟨false, ⟨.reg .a48 1, .reg .a48 2⟩⟩ 1 ⟨false, ⟨.reg .a48 1, .reg .a48 2⟩⟩ 1 ⟨false, ⟨.reg .a48 1, .reg .a48 2⟩⟩ 3 ⟨false, ⟨.reg .a48 1, .reg .a48 2⟩⟩,
  .macPar 0 0 ⟨false, ⟨.reg .a48 1, .reg .a48 2⟩⟩ 1 ⟨false, ⟨.reg .a48 1, .reg .a48 2⟩⟩ 2 ⟨false, ⟨.reg .a48 1, .reg .a48 2⟩⟩ 1 ⟨false, ⟨.reg .a48 1, .reg .a48 2⟩⟩,
  .macPar 0 0 ⟨false, ⟨.reg .a48 1, .reg .a48 2⟩⟩ 1 ⟨false, ⟨.reg .a48 1, .reg .a48 2⟩⟩ 2 ⟨false, ⟨.reg .a48 1, .reg .a48 2⟩⟩ 2 ⟨false, ⟨.reg .a48 1, .reg .a48 2⟩⟩,
  .cmac 36 0 (.reg .a48 1) (.reg .a48 1) (.reg .a48 1) (.reg .a48 1),
  .cmac 0 4 (.reg .a48 1) (.reg .a48 1) (.reg .a48 1) (.reg .a48 1),
  .cmac 0 0 (.reg .a48 16) (.reg .a48 1) (.reg .a48 1) (.reg .a48 1),
  .cmac 0 0 (.mem .a48 8) (.reg .a48 1) (.reg .a48 1) (.reg .a48 1),
  .cmac 0 0 (.reg .a48 1) (.reg .a48 16) (.reg .a48 1) (.reg .a48 1),
  .cmac 0 0 (.reg .a48 1) (.mem .a48 8) (.reg .a48 1) (.reg .a48 1),
  .cmac 0 0 (.reg .a48 1) (.reg .a48 1) (.reg .a48 16) (.reg .a48 1),
  .cmac 0 0 (.reg .a48 1) (.reg .a48 1) (.mem .a48 8) (.reg .a48 1),
  .cmac 0 0 (.reg .a48 1) (.reg .a48 1) (.reg .a48 1) (.reg .a48 16),
  .cmac 0 0 (.reg .a48 1) (.reg .a48 1) (.reg .a48 1) (.mem .a48 8),
  .cmac 0 0 (.reg .a48 1) (.reg .d32 1) (.reg .a48 1) (.reg .a48 1),
  .cmac 0 0 (.reg .a48 1) (.reg .a48 1) (.reg .a48 1) (.reg .d32 1),
  .cmac 0 0 (.reg .a48 1) (.reg .c48 1) (.reg .a48 1) (.reg .c48 1),
  .cmac 0 0 (.reg .d32 1) (.reg .d32 1) (.reg .a48 1) (.reg .a48 1),
  .stA48 36 0 (.reg 1) false,
  .stA48 0 8 (.reg 1) false]

theorem test_wf_refuses_3 : illFormed3.all (fun c => !c.wf) = true := by decide +kernel

def illFormed4 : List Instr := [
  .stA48 0 0 (.reg 16) false,
  .stA48 0 0 (.mem 8) false,
  .stX64 36 0 0 0,
  .stX64 0 8 0 0,
  .stX64 0 0 256 0,
  .stX64 0 0 0 8,
  .stD32 36 0 (.reg 1) false,
  .stD32 0 8 (.reg 1) false,
  .stD32 0 0 (.reg 16) false,
  .stD32 0 0 (.mem 8) false,
  .regAdd 36 .a48 0 0 0,
  .regAdd 0 .a48 16 0 0,
  .regAdd 0 .a48 0 16 0,
  .regAdd 0 .a48 0 0 16,
  .regSub 36 .a48 0 0 0,
  .regSub 0 .a48 16 0 0,
  .regSub 0 .a48 0 16 0,
  .regSub 0 .a48 0 0 16,
  .neg 36 .a48 0 0,
  .neg 0 .a48 16 0,
  .neg 0 .a48 0 16,
  .abs 36 .a48 0 0,
  .abs 0 .a48 16 0,
  .abs 0 .a48 0 16,
  .min 36 .a48 0 0 0,
  .min 0 .a48 16 0 0,
  .min 0 .a48 0 16 0,
  .min 0 .a48 0 0 16,
  .max 36 .a48 0 0 0,
  .max 0 .a48 16 0 0]

theorem test_wf_refuses_4 : illFormed4.all (fun c => !c.wf) = true := by decide +kernel

def illFormed5 : List Instr := [
  .max 0 .a48 0 16 0,
  .max 0 .a48 0 0 16,
  .lt 36 .a48 0 0,
  .lt 0 .a48 16 0,
  .lt 0 .a48 0 16,
  .le 36 .a48 0 0,
  .le 0 .a48 16 0,
  .le 0 .a48 0 16,
  .eq 36 .a48 0 0,
  .eq 0 .a48 16 0,
  .eq 0 .a48 0 16,
  .shl 36 .a48 0 0 1,
  .shl 0 .a48 0 0 0,
  .shl 0 .a48 0 0 48,
  .shl 0 .a48 16 0 1,
  .shl 0 .a48 0 16 1,
  .shr 36 .a48 0 0 1,
  .shr 0 .a48 0 0 0,
  .shr 0 .a48 0 0 48,
  .shr 0 .a48 16 0 1,
  .shr 0 .a48 0 16 1,
  .db2lin 36 0 0,
  .db2lin 0 16 0,
  .db2lin 0 0 16,
  .lin2db 36 0 0,
  .lin2db 0 16 0,
  .lin2db 0 0 16,
  .agAccess 36 0 none false 0 .ok none,
  .agAccess 0 8 none false 0 .ok none,
  .agAccess 0 0 none false 16 .ok none]

theorem test_wf_refuses_5 : illFormed5.all (fun c => !c.wf) = true := by decide +kernel

def illFormed6 : List Instr := [
  .agAccess 0 0 none false 0 .ok (some 2048),
  .agAccess 0 0 (some ⟨2 ^ 17, 1, 0, .linear⟩) false 0 .ok none,
  .agAccess 0 0 (some ⟨0, 0, 0, .linear⟩) false 0 .ok none,
  .agAccess 0 0 (some ⟨0, 16385, 0, .linear⟩) false 0 .ok none,
  .agAccess 0 0 (some ⟨0, 8, -16385, .linear⟩) false 0 .ok none,
  .agAccess 0 0 (some ⟨0, 8, 16384, .linear⟩) false 0 .ok none,
  .agAccess 0 0 (some ⟨0, 8, -8, .modulo⟩) false 0 .ok none,
  .agAccess 0 0 (some ⟨0, 1, 1, .bitrev⟩) false 0 .ok none,
  .agAccess 0 0 (some ⟨0, 6, 1, .bitrev⟩) false 0 .ok none,
  .agLengthWrite 36 0 1,
  .agLengthWrite 0 8 1,
  .agLengthWrite 0 0 0,
  .agLengthWrite 0 0 16385,
  .checkerAttach 4,
  .checkerCopyComplete 4,
  .checkerWindowEnd 4,
  .residueError 36,
  .keeperTakeoverCommand 4 none,
  .keeperTakeoverCommand 0 (some 36),
  .spareTakeover 36 [] false,
  .eccWriteBack 36,
  .warmUpRampEnd 2048,
  .migrationCopy 2048,
  .paramWrite 64 [],
  .paramRead 64 [] [],
  .commitApply 64,
  .commitDiscard 64,
  .commitAbandon 64,
  .snapCfg 64,
  .waitingDescriptorRelease 64]

theorem test_wf_refuses_6 : illFormed6.all (fun c => !c.wf) = true := by decide +kernel

def illFormed7 : List Instr := [
  .pageExchange 32,
  .slotReload 32 [],
  .reloadComplete 32,
  .snapshotWrite 4,
  .doorbellWrite 0 0 false 0,
  .doorbellWrite 0 9 false 0,
  .doorbellWrite 0xFFFF 4 false 0,
  .descriptorTake 64 [],
  .descriptorTake 0 [[0]],
  .ringEnable 64,
  .ringDisable 64,
  .ringDrained 64,
  .hostReadTimeout 64 none,
  .hostReadError 64 none,
  .moderationTimer 64,
  .snapshotBuffer 64,
  .audioPlay 64 [],
  .audioRec 64,
  .frameTx 64 [],
  .frameRxBuf 64,
  .eventBuffer 64,
  .healthBuffer 64,
  .svcCall 64 [],
  .getIdent 64,
  .ptpState 64,
  .mcastList 64,
  .sfpRead 64 none,
  .sfpRead 0 (some [0]),
  .echo 64,
  .halt 16 .ok]

theorem test_wf_refuses_7 : illFormed7.all (fun c => !c.wf) = true := by decide +kernel

def illFormed8 : List Instr := [
  .move 16 .ok [],
  .loop 16 .ok,
  .wait 16 .ok,
  .signal 16 .ok,
  .jump 16 .ok,
  .waitSatisfied 16,
  .waitTimeout 16,
  .pacedBurst 16 [] 0,
  .moverStart .host 16 0,
  .moverStart (.runner 9) 0 0,
  .moverStop .host 16 0,
  .moverStop (.runner 9) 0 0,
  .moverStartAtLap 16,
  .systemMoverRestart 16,
  .inboxWrite .host 16 0,
  .inboxWrite (.runner 9) 0 0,
  .programMemoryWrite .host 0x4000 0,
  .programMemoryWrite (.runner 9) 0 0,
  .programMemoryWrite .host 2 0,
  .moverLenWrite .host 16 0 0,
  .moverLenWrite .host 0 8 0,
  .moverLenWrite (.runner 9) 0 0 0,
  .allocate (.runner 9) false false false,
  .free (.runner 9),
  .resize (.runner 9) false,
  .bankOwnerWrite 68 0,
  .bankHandover 68,
  .cellarPiece 36 0 0 false [0] false [] none,
  .cellarPiece 0 64 0 false [0] false [] none,
  .cellarPiece 0 64 0 false [0] false [] none]

theorem test_wf_refuses_8 : illFormed8.all (fun c => !c.wf) = true := by decide +kernel

def illFormed9 : List Instr := [
  .cellarPiece 0 8 2 false [0, 0, 0, 0] false [] none,
  .cellarPiece 0 0 0 false [] false [] none,
  .cellarPiece 0 0 15 false (List.replicate 242 0) false [] none,
  .cellarPiece 0 0 0xFFFFFFFF false [0, 0] false [] none,
  .cellarPiece 0 0 0x17FFFF false [0, 0] false [] none,
  .crossbarTimeout 36 0 0 false,
  .crossbarTimeout 0 12 0 false,
  .portStart 32,
  .portStop 32,
  .portStopClocks 32,
  .portAcquire 32,
  .csLoad 32,
  .tdmFrameIn 16 0 ⟨true, false, true⟩ [],
  .tdmFrameOut 16 0,
  .aes3SubframeIn 8 0 0 0 noSub,
  .aes3SubframeIn 0 2 0 0 noSub,
  .aes3FrameOut 8 0,
  .portClockStop 32,
  .portClockReturn 32,
  .portDataEnable 32,
  .unmuteTimeout 32 0 0,
  .unmuteTimeout 0 64 0,
  .stopFadeEnd 32,
  .linkChange 2 false,
  .sfpSignalChange 2 false false,
  .i2cGo 2 0,
  .i2cDone 2 0 false,
  .networkFrameReceive 2 0 0 0 [],
  .streamLost 512,
  .pathDown 512 0]

theorem test_wf_refuses_9 : illFormed9.all (fun c => !c.wf) = true := by decide +kernel

def illFormed10 : List Instr := [
  .pathDown 0 2,
  .drxTakeEffect 512,
  .lenTakeEffect 512,
  .packetTransmit 512,
  .egressFrame 2 0 0,
  .igmpReport 512,
  .clockAutoset 2 0,
  .acceptEpoch 2,
  .announceTimeout 2 false,
  .ptpSyncTransmit 2,
  .toutArm 8 0 0,
  .toutFire 8 0,
  .tcapEdge 8 0 false false,
  .tcapPop 8,
  .refSample 8 0 0 false,
  .refQualify 8,
  .fpAlign 4 0,
  .fpPulse 4 0,
  .linkTrained 2 0 (List.replicate 8 noHop),
  .linkTrained 0 8 (List.replicate 8 noHop),
  .linkTrained 0 0 [],
  .hopMeasureDone 2 (List.replicate 16 (0, 0)),
  .hopMeasureDone 0 [],
  .laneLockLoss 2 0,
  .laneLockLoss 0 3,
  .cascFrameReceive 2 noFrame [],
  .cascFrameLate 2,
  .runnerCheckIn 9 0,
  .runnerWatchdogExpire 9 0,
  .runnerFault 9 0]

theorem test_wf_refuses_10 : illFormed10.all (fun c => !c.wf) = true := by decide +kernel

def illFormed11 : List Instr := [
  .runnerRetestDone 9 false,
  .setup 0 9 0 0,
  .setup 0 0 4096 0,
  .setup 0 0 0 16,
  .release 0 9 0,
  .release 0 0 4096,
  .ready 0 9 0,
  .ready 0 0 4096,
  .delay 0 9 0 0,
  .delay 0 0 4096 0,
  .cancel 0 9 0,
  .cancel 0 0 4096,
  .take 0 9,
  .done 0 9 0,
  .done 0 0 4096,
  .grab 0 9 0,
  .grab 0 0 256,
  .drop 0 9 0,
  .drop 0 0 256,
  .readStatus 65,
  .readLog 0x400000 0 none,
  .readLog 2 0 none,
  .readLog 0 0x400001 none,
  .readKey 65,
  .readCfg 65,
  .temperatureSample [],
  .marginLow 40 0,
  .porNRelease noBoot 0 1,
  .porNRelease noBoot 5 1,
  .porNRelease noBoot 1 3]

theorem test_wf_refuses_11 : illFormed11.all (fun c => !c.wf) = true := by decide +kernel

def illFormed12 : List Instr := [
  .perstNRelease 0 1,
  .perstNRelease 5 1,
  .perstNRelease 1 3,
  .startProcessing 0 [36],
  .autoStart 0 [36],
  .keepResume noImage [36],
  .powerCmdReserved 5,
  .powerCmdReserved 8,
  .gpioEdge 16 false,
  .ptpDelayReqTransmit 2,
  .ptpAnnounceTransmit 2,
  .bankTestDone 68 false,
  .tileRetestDone 36 false]

theorem test_wf_refuses_12 : illFormed12.all (fun c => !c.wf) = true := by decide +kernel

def wellFormed1 : List Instr := [
  .registerWrite .host 0 0,
  .unsupportedAccess 0 1 false,
  .pairLoRead 0,
  .pairHiWrite .host 0 0,
  .msixTableAccess 0 4 false 0,
  .bar4Access 0 4 false [] [] 0,
  .configRequest .other,
  .eventEnableWrite 0 0,
  .lapBoundary,
  .exchangeWindow [],
  .placedProcessing 0,
  .checkerCompare 0 false,
  .tileOverrun 0,
  .clr 0 0,
  .ld 0 0 (.reg .a48 1),
  .accAdd 0 0 (.reg .a48 1),
  .accSub 0 0 (.reg .a48 1),
  .mac 0 0 ⟨.reg .a48 1, .reg .a48 2⟩,
  .msu 0 0 ⟨.reg .a48 1, .reg .a48 2⟩,
  .mac4 0 0 ⟨false, ⟨.reg .a48 1, .reg .a48 2⟩⟩ ⟨false, ⟨.reg .a48 1, .reg .a48 2⟩⟩ ⟨false, ⟨.reg .a48 1, .reg .a48 2⟩⟩ ⟨false, ⟨.reg .a48 1, .reg .a48 2⟩⟩,
  .macPar 0 0 ⟨false, ⟨.reg .a48 1, .reg .a48 2⟩⟩ 1 ⟨false, ⟨.reg .a48 1, .reg .a48 2⟩⟩ 2 ⟨false, ⟨.reg .a48 1, .reg .a48 2⟩⟩ 3 ⟨false, ⟨.reg .a48 1, .reg .a48 2⟩⟩,
  .cmac 0 0 (.reg .a48 1) (.reg .a48 1) (.reg .a48 1) (.reg .a48 1),
  .stA48 0 0 (.reg 1) false,
  .stX64 0 0 0 0,
  .stD32 0 0 (.reg 1) false,
  .regAdd 0 .a48 0 0 0,
  .regSub 0 .a48 0 0 0,
  .neg 0 .a48 0 0,
  .abs 0 .a48 0 0,
  .min 0 .a48 0 0 0,
  .max 0 .a48 0 0 0,
  .lt 0 .a48 0 0,
  .le 0 .a48 0 0,
  .eq 0 .a48 0 0,
  .shl 0 .a48 0 0 1,
  .shr 0 .a48 0 0 1,
  .db2lin 0 0 0,
  .lin2db 0 0 0,
  .agAccess 0 0 none false 0 .ok none,
  .agLengthWrite 0 0 1,
  .checkerAttach 0,
  .checkerCopyComplete 0,
  .checkerWindowEnd 0,
  .residueError 0,
  .keeperTakeoverCommand 0 none,
  .spareTakeover 0 [] false,
  .eccWriteBack 0,
  .warmUpRampEnd 0]

theorem test_wf_accepts_1 : wellFormed1.all Instr.wf = true := by decide +kernel

def wellFormed2 : List Instr := [
  .placeDataAccess false 0,
  .placeApplyAtLap,
  .placeApplyEarliest,
  .placeAbandon,
  .migrationCopy 0,
  .placementTakeEffect,
  .layoutApplyAtLap,
  .layoutApplyEarliest,
  .layoutAbandon,
  .layoutFadeOutStart,
  .layoutTakeEffect,
  .layoutFadeInStart,
  .layoutDone,
  .routeFadeEnd (.gen 0),
  .delayFadeEnd 0,
  .polarityFadeEnd 0,
  .sectionFadeEnd 0 0,
  .gateHoldExpire 0 0,
  .muteTimeout 0 0,
  .paramWrite 0 [],
  .paramRead 0 [] [],
  .commitApply 0,
  .commitDiscard 0,
  .commitAbandon 0,
  .snapCfg 0,
  .waitingDescriptorRelease 0,
  .groupChange 0,
  .batonDistribute,
  .entryLap,
  .pageExchange 0,
  .loftRefreshComplete 0 false,
  .lockRelease,
  .engineJoin,
  .slotReload 0 [],
  .reloadComplete 0,
  .snapshotWrite 0,
  .doorbellWrite 0 4 false 0,
  .descriptorTake 0 [],
  .ringEnable 0,
  .ringDisable 0,
  .ringDrained 0,
  .hostReadTimeout 0 none,
  .hostReadError 0 none,
  .busMasterEnable false,
  .moderationTimer 0,
  .functionLevelReset,
  .flrDone,
  .snapshotBuffer 0]

theorem test_wf_accepts_2 : wellFormed2.all Instr.wf = true := by decide +kernel

def wellFormed3 : List Instr := [
  .audioPlay 0 [],
  .audioRec 0,
  .frameTx 0 [],
  .frameRxBuf 0,
  .eventBuffer 0,
  .healthBuffer 0,
  .svcCall 0 [],
  .getIdent 0,
  .ptpState 0,
  .mcastList 0,
  .sfpRead 0 none,
  .echo 0,
  .halt 0 .ok,
  .move 0 .ok [],
  .loop 0 .ok,
  .wait 0 .ok,
  .signal 0 .ok,
  .jump 0 .ok,
  .waitSatisfied 0,
  .waitTimeout 0,
  .pacedBurst 0 [] 0,
  .moverStart .host 0 0,
  .moverStop .host 0 0,
  .moverStartAtLap 0,
  .systemMoverRestart 0,
  .inboxWrite .host 0 0,
  .programMemoryWrite .host 0 0,
  .moverLenWrite .host 0 0 0,
  .allocate .host false false false,
  .free .host,
  .resize .host false,
  .query,
  .allocComplete,
  .relocationSwitch 0 0,
  .bankOwnerWrite 0 0,
  .bankHandover 0,
  .cellarPiece 0 0 0 false [0] false [] none,
  .crossbarTimeout 0 0 0 false,
  .portStart 0,
  .portStop 0,
  .portStopClocks 0,
  .portAcquire 0,
  .csLoad 0,
  .tdmFrameIn 0 0 ⟨true, false, true⟩ [],
  .tdmFrameOut 0 0,
  .aes3SubframeIn 0 0 0 0 noSub,
  .aes3FrameOut 0 0,
  .portClockStop 0]

theorem test_wf_accepts_3 : wellFormed3.all Instr.wf = true := by decide +kernel

def wellFormed4 : List Instr := [
  .portClockReturn 0,
  .portDataEnable 0,
  .unmuteTimeout 0 0 0,
  .stopFadeEnd 0,
  .csDataAccess false false 0,
  .linkChange 0 false,
  .sfpSignalChange 0 false false,
  .i2cGo 0 0,
  .i2cDone 0 0 false,
  .networkFrameReceive 0 0 0 0 [],
  .streamLost 0,
  .pathDown 0 0,
  .streamEnable,
  .streamDisable,
  .streamApplyDrxLen,
  .drxTakeEffect 0,
  .lenTakeEffect 0,
  .streamCsLoad,
  .packetTransmit 0,
  .egressFrame 0 0 0,
  .igmpReport 0,
  .timeLatchRead 0,
  .timeSet,
  .clockAutoset 0 0,
  .acceptEpoch 0,
  .epochStep,
  .announceTimeout 0 false,
  .ptpSyncTransmit 0,
  .toutArm 0 0 0,
  .toutFire 0 0,
  .tcapEdge 0 0 false false,
  .tcapPop 0,
  .dpllTick 0,
  .refSample 0 0 0 false,
  .refQualify 0,
  .holdoverHistory,
  .dpllLock,
  .dpllUnlock,
  .phaseStepWrite 0,
  .refConfigWrite 0 0,
  .fpAlign 0 0,
  .fpPulse 0 0,
  .synthLock false,
  .synthSettled false,
  .synthUnlock false 0,
  .xoInLoss 0,
  .ratioUpdate,
  .rampStart]

theorem test_wf_accepts_4 : wellFormed4.all Instr.wf = true := by decide +kernel

def wellFormed5 : List Instr := [
  .rampAbort,
  .rampReturn,
  .rampDone,
  .syncInEdge,
  .dividerReset,
  .rateApply 0,
  .rateGate 0,
  .rateRestart 0,
  .programTimeout,
  .cascadeEnable,
  .selfTestDone false,
  .cascadeInsert,
  .cascadeWithdraw,
  .cascadeMeasure,
  .cascadeDisable,
  .bypassSwitch,
  .linkTrained 0 0 (List.replicate 8 noHop),
  .hopMeasureDone 0 (List.replicate 16 (0, 0)),
  .laneLockLoss 0 0,
  .cascFrameSend,
  .cascFrameReceive 0 noFrame [],
  .cascFrameLate 0,
  .ringCommandAction,
  .masterTimeout,
  .svAdvance 0,
  .bootFromCellar noImage ⟨[], []⟩,
  .runnerCheckIn 0 0,
  .runnerWatchdogExpire 0 0,
  .runnerFault 0 0,
  .runnerRetestDone 0 false,
  .keeperBusError 0,
  .setup 0 0 0 0,
  .release 0 0 0,
  .ready 0 0 0,
  .delay 0 0 0 0,
  .cancel 0 0 0,
  .take 0 0,
  .done 0 0 0,
  .grab 0 0 0,
  .drop 0 0 0,
  .delayDue 0,
  .statsWindowEnd 0,
  .slmPowerOn,
  .slmReset,
  .slmResetRelease,
  .meterSample 0 0,
  .meterPeriodEnd,
  .readStatus 0]

theorem test_wf_accepts_5 : wellFormed5.all Instr.wf = true := by decide +kernel

def wellFormed6 : List Instr := [
  .readLog 0 0 none,
  .readKey 0,
  .readCfg 0,
  .setTime 0,
  .stageCfg [],
  .commitCfg 0,
  .sealCmd 0,
  .unsealCmd 0,
  .fuseBurnDone,
  .retireTile 0,
  .substituteBank 0 false,
  .bankSubstSwitch,
  .fieldRepair 0 false 0,
  .scrubPassEnd,
  .scrubLate,
  .temperatureSample (List.replicate 8 250),
  .marginLow 0 0,
  .keeperWatchdogExpire 0,
  .lifeUsedUpdate 0,
  .healthRecord,
  .porNAssert,
  .porNRelease noBoot 1 1,
  .perstNAssert,
  .perstNRelease 1 1,
  .startProcessing 0 [],
  .autoStart 0 [],
  .enterQuiet,
  .quietGate,
  .returnToRun,
  .tileUngate,
  .runResume,
  .enterKeep,
  .keepResume noImage [],
  .chipReset noBoot,
  .powerCmdReserved 6,
  .mainPowerRemove,
  .gpioEdge 0 false,
  .keeperCheckIn 0,
  .xoInReturn,
  .slmPowerRemove,
  .ptpDelayReqTransmit 0,
  .ptpAnnounceTransmit 0,
  .bankTestDone 0 false,
  .tileRetestDone 0 false,
  .keeperFuseBurnDone]

theorem test_wf_accepts_6 : wellFormed6.all Instr.wf = true := by decide +kernel

/-! ### States -/

/-- The main engine powered, POR_N and PERST_N high, the boot chain run, Bus Master Enable set. -/
def ready : State :=
  let s := { State.reset with power := { State.reset.power with porLow := false } }
  let s := ((s.wr Reg.COR_BOOT_state 3).wr Reg.GLB_PWR_STATUS_state 1).releaseRunners
  (s.wr Reg.HST_STATUS_bme 1).wr Reg.HST_STATUS_speed 4

/-- Processing in lap 100, the root on a settled Synth A, every heat with its spare. -/
def live : State :=
  let s := { ready with lap := 100, syn := { ready.syn with onRoot := true, a := ⟨true, true, false⟩ } }
  let s := ((s.wr Reg.TIM_STATUS_run 1).wr Reg.GLB_PWR_STATUS_state 2).wr Reg.SYN_STATUS_gated 0
  [0, 1, 2, 3].foldl (fun s h => s.mapHeat [] h) s

/-- A ring of a function with one descriptor just taken. -/
def ringed (r func : Nat) (d : Desc) : State :=
  let s := ((live.wr (Reg.HST_RCTRL_en r) 1).wr (Reg.HST_RSTAT_state r) 1).wr (Reg.HST_RCFG_func r) func
  s.setRing r { Ring.reset with descs := [d] }

/-- The next state of a command, or the state itself where it stops. -/
def after (c : Instr) (s : State) : State :=
  match exec c s with
  | .next t => t
  | _ => s

/-! ### Tiles -/

theorem wit_OperandsAlignAsTabled : Tile.reset.wordKey (Tile.reset.agAt 0).addr = some 0 ∧
    (Tile.reset.setAg 0 ⟨2 ^ 17 - 1, 1, 0, 0, .linear, none⟩).wordKey
      ((Tile.reset.setAg 0 ⟨2 ^ 17 - 1, 1, 0, 0, .linear, none⟩).agAt 0).addr = none := by decide +kernel

theorem wit_AccumulatorOperations : live.tileRuns 35 = true ∧ Src.wf (.mem .d32 7) = true ∧
    Prod.wf ⟨.reg .d32 15, .mem .c48 7⟩ = true ∧ Term.wf ⟨true, ⟨.reg .c48 0, .reg .a48 15⟩⟩ = true ∧
    (Instr.macPar 35 7 ⟨true, ⟨.reg .a48 0, .reg .a48 15⟩⟩ 6 ⟨false, ⟨.reg .c48 0, .reg .d32 15⟩⟩ 5
      ⟨false, ⟨.reg .a48 0, .reg .c48 15⟩⟩ 0 ⟨true, ⟨.mem .a48 0, .mem .a48 7⟩⟩).wf = true := by decide +kernel

theorem wit_ComplexMultiplyAccumulate : live.tileRuns 35 = true ∧
    (Instr.cmac 35 3 (.mem .a48 7) (.reg .a48 15) (.reg .c48 0) (.mem .c48 7)).wf = true := by decide +kernel

theorem wit_StoresRoundSaturateOrWrap : live.tileRuns 35 = true ∧ Dst.wf (.reg 15) = true ∧
    Dst.wf (.mem 7) = true ∧
    (let k := Tile.reset.setAg 7 ⟨2 * 16384, 1, 0, 0, .linear, none⟩
     (k.wordKey (k.agAt 7).addr).isSome = true ∧ 2 ≤ (k.agAt 7).addr / 16384 % 8) := by decide +kernel

theorem wit_RegisterArithmetic : live.tileRuns 35 = true ∧
    fmtVal .d32 0xFFFF80000000 = -(2 ^ 31) ∧ fmtVal .d32 0xFFFF80000001 = -(2 ^ 31) + 1 := by decide +kernel

theorem wit_ComparisonsAndLevelConversions : live.tileRuns 35 = true ∧
    BitVec.setWidth 32 (0xFFFF80000000#48) = d32NegInf ∧ BitVec.setWidth 32 (0#48) ≠ d32NegInf := by decide +kernel

theorem wit_GeneratorsWriteBackAndAHaltedTile :
    (let k := Tile.reset.setAg 7 ⟨0, 8, 0, 1, .modulo, none⟩
     live.tileRuns 35 = true ∧ (Tile.reset.agAt 0).mode = .linear ∧ (k.agAt 7).mode ≠ .linear ∧
     (k.agAt 7).lenOk 16384 = true ∧ (k.agAt 7).lenOk 1 = false) ∧
    agSetupOk (some ⟨2 ^ 17 - 1, 16384, -(2 ^ 14), .linear⟩) = true ∧
    ((live.setTile 35 { Tile.reset with wb := [⟨2, 16383, 5⟩] }).tileAt 35).wb = [⟨2, 16383, 5⟩] ∧
    (live.setTile 35 { Tile.reset with halted := true }).tileRuns 35 = false ∧ ready.tileRuns 35 = false ∧
    (Instr.clr 35 7).wf = true := by decide +kernel

/-- R33: an addition that carries the accumulator past its guard bits wraps and leaves OVG and the direction. -/
theorem test_add_guard :
    ((after (.accAdd 0 0 (.x64 1)) (live.setTile 0 (Tile.reset.setAcc 0 ⟨2 ^ 111 - 2 ^ 44, false, false, false⟩))).tileAt 0).accAt 0 =
    ⟨BitVec.ofInt 112 (-(2 ^ 111)), false, true, false⟩ := by decide +kernel

/-- R38: half-way values round to the even code: 1.5 gives 2 and 2.5 gives 2. -/
theorem test_st_rounds :
    ((after (.stA48 0 0 (.reg 0) false) (live.setTile 0 (Tile.reset.setAcc 0 ⟨3 * 2 ^ 43, false, false, false⟩))).tileAt 0).dreg 0 = 2 ∧
    ((after (.stA48 0 0 (.reg 0) false) (live.setTile 0 (Tile.reset.setAcc 0 ⟨5 * 2 ^ 43, false, false, false⟩))).tileAt 0).dreg 0 = 2 := by
  decide +kernel

/-- R41, R42: 0 dB is 1.0 in A48 and the reverse; 20 log10 2 dB, 6.0206, reads 2.0 within a code of D32. -/
theorem test_levels : db2linV 0 = a48One ∧ lin2dbV a48One = 0 ∧ (lin2dbV (2 * a48One)).toNat = 101008905 := by decide +kernel

/-! ### Heats -/

theorem wit_CheckerDuty :
    (let s := live
     let h := s.heat 3
     s.spare 3 = some 35 ∧ s.on Reg.TIL_CHK_CFG_chk_en = true ∧ h.step = .idle ∧ s.run = true ∧ s.power.gated = false ∧
     (s.attachTarget 3).isSome = true ∧ ((s.setHeat 3 { h with step := .copying }).heat 3).step = .copying) ∧
    (let s := live.setHeat 0 { live.heat 0 with step := .window, lapsLeft := 0 }
     let u := live.setHeat 0 { live.heat 0 with step := .window, suspect := some 2 }
     (s.heat 0).step = .window ∧ (s.heat 0).lapsLeft = 0 ∧ (s.heat 0).suspect = none ∧
     (u.heat 0).suspect ≠ none ∧ u.rd (Reg.TIL_HEAT_chk_state 0) ≠ 3 ∧
     (u.wr (Reg.TIL_HEAT_chk_state 0) 3).rd (Reg.TIL_HEAT_chk_state 0) = 3) := by decide +kernel

theorem wit_TileFaults : live.tileActive 0 = true ∧ live.spare 0 ≠ some 0 ∧ live.spare 0 ≠ none ∧ live.keeperOk = true ∧
    live.on Reg.TIL_CHK_CFG_takeover_en = true ∧ live.tileActive 34 = true ∧
    (let s := (live.mapHeat [8] 0).wr Reg.TIL_CHK_CFG_takeover_en 0
     s.spare 0 = none ∧ s.tileActive 7 = true ∧ s.on Reg.TIL_CHK_CFG_takeover_en = false) ∧
    (let s := (live.setHeat 0 { live.heat 0 with step := .window, lapsLeft := 0, suspect := some 7 }).wr
        (Reg.TIL_HEAT_chk_state 0) 4
     (s.heat 0).suspect = some 7 ∧ s.rd (Reg.TIL_HEAT_chk_state 0) = 4 ∧ s.tileActive 7 = true) := by decide +kernel

theorem wit_SpareTakesOverAndReturns :
    (let s := live.setHeat 3 { live.heat 3 with takeover := some 27 }
     s.power.gated = false ∧
     s.spare (27 / 9) = some 35 ∧ (s.heat (27 / 9)).takeover = some 27) ∧
    (let s := live.mapHeat [35] 3
     s.tstate 35 = 6 ∧ s.keeperOk = true ∧ s.spare (35 / 9) = none) := by decide +kernel

theorem wit_PlacementIsStagedAndTakesEffect :
    (let s := (live.wr Reg.TIL_PLACE_LAP_LO_lap 106)
     s.placeCheck (some (s.rd64 Reg.TIL_PLACE_LAP_LO_lap Reg.TIL_PLACE_LAP_HI_lap)) = (0, 0) ∧
     s.placeCheck none = (0, 0)) ∧
    (let s := live.wr Reg.TIL_PLACE_LAP_LO_lap 105
     s.run = true ∧ s.rd64 Reg.TIL_PLACE_LAP_LO_lap Reg.TIL_PLACE_LAP_HI_lap < s.lap + 6 ∧ s.power.gated = false ∧
     s.tile.pend = none) ∧
    (let s := { live with tile := { live.tile with placed := [(0, 1)], pend := some ⟨100, [(0, 2)], []⟩ } }
     movers s.tile.placed [(0, 2)] = [0] ∧ s.run = true ∧ s.lap = 100 ∧ s.tile.pend ≠ none) ∧
    (let s := { live with tile := { live.tile with placed := [(2047, 1)], ramp := [(2047, some ⟨32, 32⟩)] } }.setTstate 0 1
     s.tile.ramp.get none 2047 = some ⟨32, 32⟩ ∧ s.slotOf 2047 = some 0 ∧ s.slotTile 0 = some 0 ∧ s.tstate 0 = 1 ∧
     s.objsOn 0 = [2047]) := by decide +kernel

/-! ### The signal graph and the lap -/

def ended : Fade := ⟨32, 32, false⟩

theorem wit_LapBoundary : live.run = true ∧ live.on Reg.SYN_STATUS_gated = false ∧ live.spare (34 / 9) ≠ some 34 ∧
    (let s := ({ live with tile := { live.tile with placed := [(0, 32)] }
                           audio := { live.audio with stripsW := [(0, Strip.cold)] } }).setTile 34 { Tile.reset with ranLap := 101 }
     s.audio.stripsW.has 0 = true ∧ s.lapLost 0 = false ∧ live.lapLost 0 = true) := by decide +kernel

theorem wit_ExchangeAndPlacedProcessing : (Instr.exchangeWindow [(5, 15, .allBad)]).wf = true ∧ live.run = true ∧
    live.on Reg.SYN_STATUS_gated = false ∧ live.pstate < 6 ∧ live.audio.exchLap ≠ live.lap + 1 ∧
    (let s := { live with tile := { live.tile with placed := [(0, 32)] } }
     (0, 32) ∈ s.tile.placed ∧ (s.slotOf 0).isSome = true) ∧
    (live.setOutPt 0x5000 (RoutePt.at 0)).audio.outPt.has 0x5000 = true ∧
    (let s := { live with tile := { live.tile with placed := [(0, 32)] }, audio := { live.audio with exchLap := 101 } }
     s.tileSlot 34 = some 31 ∧ s.tileActive 34 = true ∧ s.tileRuns 34 = true ∧ (s.tileAt 34).ranLap ≠ s.lap + 1 ∧
     s.power.gated = false ∧ s.audio.exchLap = s.lap + 1 ∧ s.objsOn 31 = [0] ∧ s.objFrozen 0 = false) := by decide +kernel

theorem wit_LayoutChanges :
    (let s := live.wr Reg.GRF_LAYOUT_LAP_LO_lap 122
     s.audio.layout = none ∧ s.run = true ∧ s.lap + 6 + s.fLap = 122 ∧
     s.rd64 Reg.GRF_LAYOUT_LAP_LO_lap Reg.GRF_LAYOUT_LAP_HI_lap = 122 ∧
     live.rd64 Reg.GRF_LAYOUT_LAP_LO_lap Reg.GRF_LAYOUT_LAP_HI_lap < 122) ∧
    (let at_ (lap st : Nat) (m : MutePhase) : State := { live with
        audio := { live.audio with layout := some ⟨lap, 0⟩, mutePhase := m } }.wr Reg.GRF_LAYOUT_STATUS_state st
     (at_ 200 1 .pass).rd Reg.GRF_LAYOUT_STATUS_state = 1 ∧ live.lap + live.fLap = 116 ∧
     (at_ 116 1 .pass).audio.mutePhase = .pass ∧ (at_ 100 2 .fadeOut).rd Reg.GRF_LAYOUT_STATUS_state = 2 ∧
     (at_ (98 - live.layout.sMtx) 3 .silent).lap = 98 - live.layout.sMtx + live.layout.sMtx + 2 ∧
     (at_ 0 3 .silent).casc.layoutMute = false ∧
     (82 - live.layout.sMtx) + live.layout.sMtx + 2 + live.fLap ≤ live.lap) := by decide +kernel

theorem wit_FadesAndStripStagesEnd : ended.runs = false ∧
    ((live.setInPt 511 { RoutePt.at 0 with fade := some ended }).inPt 511).fade = some ended ∧
    ((live.setOutPt 5 { RoutePt.at 0 with fade := some ended }).outPt 5).fade = some ended ∧
    ((live.setGen 7 { Gen.reset 7 with fade := some ended }).genAt 7).fade = some ended ∧
    ((live.setGen 7 { Gen.reset 7 with fade := some ended }).genAt 7).held = none ∧
    (let d : DelayU := ⟨0, 48, some ended, true⟩
     let s := { live with audio := { live.audio with delay := [(8, d)], insPt := [(1, { RoutePt.at 0 with fade := some ended })]
                                                     dirPt := [(0, { RoutePt.at 0 with fade := some ended })] } }
     s.audio.delay.get DelayU.reset 8 = d ∧ (s.vault.live (delayPid 8)).toNat = d.cur ∧
     (s.insPt (2 * 0 + 1)).fade = some ended ∧ (s.dirPt 0).fade = some ended) ∧
    (let sec : Section := { Section.cold with fade := some ⟨⟨0, 0, 0, 0, 0⟩, 5, 6, 16, 16⟩ }
     let x : Strip := { Strip.cold with pol := { Polarity.cold with fade := some ended }, d1 := { Dyn.cold with gate := true, hc := 0 }
                                        secs := [Section.cold, sec], mute := { Mute.cold with searching := true, c := live.msSamples (live.code 1 0 0x102), yPrev := 5 } }
     let s := { live with audio := { live.audio with strips := [(0, x)] }
                          vault := { live.vault with page0 := [(pid 1 0 0x200, 2)] } }
     let p := s.dynPar (placeClass 0) (placeIndex 0) 1
     s.audio.strips.has 0 = true ∧ (s.stripNow 0).pol.fade = some ended ∧ (s.stripNow 0).d1.gate = true ∧
     ((s.stripNow 0).secs.getD 1 Section.cold).fade = sec.fade ∧ p.mode ≠ 0 ∧ p.mode ≠ 1 ∧
     (s.stripNow 0).d1.hc = 0 ∧ (s.stripNow 0).mute.searching = true ∧
     (s.stripNow 0).mute.c = s.msSamples (s.code (placeClass 0) (placeIndex 0) 0x102) ∧ sgn 7 = sgn (5#48) ∧
     (d32NegInf : D32).toInt < (dSub p.thresh p.hyst).toInt) := by decide +kernel

/-- R16, R17: a boundary moves the lap index on by one. -/
theorem test_lap : (after .lapBoundary live).lap = 101 := by decide +kernel

/-! ### The vault -/

/-- A descriptor of a type just taken: word 0 with its type and length, then the words given. -/
def desc (type w0 : Nat) (ws : List Word) : Desc where
  id := 1
  index := 0
  segs := [BitVec.ofNat 32 (w0 + type * 2 ^ 24) :: ws]
  stage := .taken
  code := 0
  xfer := 0
  detail := 0
  wb := []
  moved := 0
  count0 := 0
  data := []
  items := []

/-- The vault with its store in place. -/
def vaulted (d : Desc) : State := (ringed 63 1 d).wr Reg.VLT_STATUS_store_ok 1

/-- The fader of input strip 0. -/
def fader : Nat := pid 1 0 0x100

theorem wit_ParametersAreWrittenAndRead :
    (let d := desc 1 1 []
     let s := vaulted d
     let good := [(BitVec.ofNat 32 fader, (0 : Word), (0 : BitVec 64))]
     let badItem := [(BitVec.ofNat 32 fader, (1 : Word), (0 : BitVec 64))]
     s.ringFunc 63 = 1 ∧ good.length = d.itemCount ∧ s.vaultTurn = some 63 ∧ (s.ring 63).descs = [d] ∧ d.type = 1 ∧ d.stage = .taken ∧
     s.on Reg.HST_STATUS_bme = true ∧ s.mustWait (s.itemMask good) = false ∧
     (s.writeItems good 0 s.vault).isRight = true ∧ s.itemMask good &&& s.vault.armedMask = 0 ∧
     storeWords s.vault ≤ storeRoom ∧ s.mustWait (s.itemMask badItem) = false ∧
     s.writeItems badItem 0 s.vault = .inl 0 ∧
     (let u := { s with vault := { s.vault with arms := [⟨0, 1, 200, 0, Prof.cut, 0, false, false, none, false, 200, none⟩] } }
      u.itemMask good &&& u.vault.armedMask ≠ 0)) ∧
    (let d := desc 2 1 []
     let s := vaulted d
     let items := [(BitVec.ofNat 32 fader, (0 : Word), (0 : BitVec 64))]
     (s.ring 63).descs = [d] ∧ d.type = 2 ∧ s.vaultTurn = some 63 ∧ s.on Reg.VLT_STATUS_store_ok = true ∧
     items.findIdx? (fun e => e.2.1 != 0 || !s.vault.pidOk false (itemPid e)) = none) := by decide +kernel

/-- A COMMIT of an operation over group 0. -/
def commit (op : Nat) : Desc := desc 3 (op * 2 ^ 18) [0, 1, 0]

def anArm : Arm := ⟨0, 1, 200, 0, Prof.cut, 0, false, false, none, false, 200, none⟩

theorem wit_CommitsAreJudged :
    (let s (op : Nat) := (vaulted (commit op)).wr Reg.VLT_CFG_commit_en 1
     let q (op : Nat) := (s op).requestOf 63 (commit op)
     let armed (op : Nat) : State := { s op with vault := { (s op).vault with arms := [anArm] } }
     (s 0).ringFunc 63 = 1 ∧ ((s 0).ring 63).descs = [commit 0] ∧ (commit 3).type = 3 ∧ (s 0).vaultTurn = some 63 ∧ (s 0).inRing = false ∧
     (s 0).mustWait (q 0).mask = false ∧ (q 0).op = 0 ∧ (s 0).applyCode (q 0) = 0 ∧
     (armed 0).applyCode (q 0) = 0x23 ∧ (q 3).op = 3 ∧ (q 1).op = 1 ∧ (s 1).formCode (q 1) = 0 ∧
     (q 1).mask &&& (s 1).vault.armedMask = 0 ∧ (q 1).mask &&& (armed 1).vault.armedMask ≠ 0 ∧ (q 2).op = 2 ∧
     (armed 2).vault.arms.find? (fun a => a.mask == (q 2).mask) = some anArm ∧ (s 2).earliest (q 2) ≤ anArm.lap ∧
     (s 2).vault.arms.find? (fun a => a.mask == (q 2).mask) = none) ∧
    (let d := { commit 0 with stage := .waiting, count0 := 1 }
     let s := vaulted d
     (s.ring 63).descs.find? (fun d => d.stage == .waiting) = some d ∧
     s.mustWait (BitVec.ofNat 64 d.count0) = false) := by decide +kernel

theorem wit_CommitsApplyInTheirEntryLap :
    (let a := { anArm with slot := 0, lap := 100, reach := 100, dist := true, own := some (63, 1) }
     let s := { live with vault := { live.vault with arms := [a, { anArm with slot := 1, mask := 2, reach := 101 }] } }
     s.vault.arms.filter (fun b => b.dist && b.reach == s.lap) = [a] ∧ s.vault.requests = [] ∧ a.num = none ∧ a.lap = s.lap ∧ (2 : BitVec 64).getLsbD 1 = true ∧
     { anArm with mask := (2 : BitVec 64), reach := 101 }.reach = s.lap + 1) := by decide +kernel

/-- A store with one object that has its own word. -/
def stored : State :=
  { live with vault := { live.vault with page0 := [(fader, 7)] } }

theorem wit_PagesExchangeAndOpen :
    (let sw : Switching := ⟨1, 69, 1, Prof.cut, []⟩
     let e := elemOf fader
     let s := { stored with vault := { stored.vault with switching := [sw], storeBit := [(objOf fader, true)],
                                                         bankBit := [(e + 1, true)] } }
     s.vault.switching.filter (fun x => x.lap + 31 == s.lap && !x.exchanged.contains 31) = [sw] ∧
     s.pendingElems sw 31 = [e] ∧ objOf fader ∈ s.vault.objects) ∧
    (let s := { stored with vault := { stored.vault with refresh := [(objOf fader, 0)] } }
     s.vault.refresh.has (objOf fader) = true ∧ s.exchangedObj (objOf fader) = true) ∧
    (let sw : Switching := ⟨1, 10, 1, Prof.cut, []⟩
     let s := { stored with vault := { stored.vault with switching := [sw] } }
     sw ∈ s.vault.switching ∧ s.releaseLap sw ≤ s.lap ∧ s.exchangedObj (objOf fader) = true ∧
     s.vault.refresh.has (objOf fader) = false) := by decide +kernel

theorem wit_GroupsJoiningAndSnapshotSettings :
    (let s := live.wr Reg.VLT_GROUP_ADDR_class 1
     let u := { s with vault := { s.vault with arms := [anArm] } }
     objectExists (pid 1 0 0) = true ∧ (s.vault.armedMask ||| s.vault.switchMask).getLsbD 63 = false ∧
     (s.vault.armedMask ||| s.vault.switchMask).getLsbD (s.vault.groupOf (pid 1 0 0)) = false ∧
     (u.vault.armedMask ||| u.vault.switchMask).getLsbD 0 = true) ∧
    (let s := { live with casc := { live.casc with pos := 1, pieces := List.range 16 } }.wr Reg.EXL_STATUS_state 4
     s.inRing = true ∧ s.isMaster = false ∧ s.casc.joined = false ∧ ∀ p, p < 16 → p ∈ s.casc.pieces) ∧
    (let d := desc 4 0 [0, 0, 0, BitVec.ofNat 32 (3 + 31 * 2 ^ 8 + 62 * 2 ^ 16), BitVec.ofNat 32 (2 + 1 * 2 ^ 16)]
     let s := ((vaulted d).wr (Reg.HST_RCTRL_en 62) 1).wr (Reg.HST_RCFG_func 62) 2
     (s.ring 63).descs = [d] ∧ d.type = 4 ∧ s.vaultTurn = some 63 ∧ s.on Reg.VLT_STATUS_store_ok = true ∧ d.word 5 % 65536 = 2 ∧ d.word 5 / 65536 = 1 ∧ bitsOf (d.word 4) 8 8 = 31 ∧
     bitsOf (d.word 4) 16 6 = 62 ∧ s.ringOn 62 = true ∧ s.ringFunc 62 = 2 ∧ (vaulted d).ringOn 62 = false) := by
  decide +kernel

theorem wit_ReloadsAndSnapshots :
    (let s := { live with vault := { live.vault with slotReload := [(31, true)] } }.wr Reg.VLT_STATUS_store_ok 1
     s.needsReload 31 = true ∧ s.vault.reloading.get false 31 = false ∧ s.on Reg.VLT_STATUS_store_ok = true ∧
     s.reloadObs 31 = [] ∧
     { s with vault := { s.vault with reloading := [(31, true)] } }.vault.reloading.get false 31 = true) ∧
    (let x : Snap := ⟨3, 50, 0, 0, 0, 0, true, 0, []⟩
     let s := { live with vault := { live.vault with snaps := [x] } }
     s.vault.snaps.find? (fun x => x.stream == 3) = some x ∧ x.judged = true ∧ x.lap + s.layout.pTile + 1 ≤ s.lap) := by decide +kernel

/-- R156, R158: an apply commit without a lap is armed for the earliest one. -/
theorem test_commit : (after (.commitApply 63) ((vaulted (commit 0)).wr Reg.VLT_CFG_commit_en 1)).vault.arms.map (·.lap) =
    [102 + live.layout.h] := by decide +kernel

/-! ### Descriptor rings -/

/-- A running ring of a function with descriptors taken and entries that the host has handed on. -/
def rung (r func n : Nat) (ds : List Desc) : State :=
  let s := ((live.wr (Reg.HST_RCTRL_en r) 1).wr (Reg.HST_RSTAT_state r) 1).wr (Reg.HST_RCFG_func r) func
  { s.setRing r { Ring.reset with descs := ds, next := 9 } with host := { (s.setRing r { Ring.reset with descs := ds, next := 9 }).host with doorbell := [(r, n)] } }

/-- An entry that the engine owns, of a type and length. -/
def entry (type len : Nat) : List Word := (desc type (len + 2 ^ 31) (List.replicate 7 0)).segs.headD []

theorem wit_DoorbellsAndDescriptors :
    (let s := rung 63 1 0 []
     s.hostReaches = true ∧ s.pstate ≠ 6 ∧ s.ringOn 63 = true ∧ s.ringRuns 63 = true ∧ s.ringRuns 0 = false ∧
     s.ringOn 0 = false ∧ s.ringSize 63 = 64 ∧ (rung 63 1 65 []).owned 63 = 65 ∧ s.on Reg.HST_MISS_INFO_valid = false) ∧
    (let s := rung 63 1 1 []
     (entry 1 8).length = 8 ∧ s.ringRuns 63 = true ∧ s.on Reg.HST_STATUS_bme = true ∧ (s.ring 63).hold = false ∧
     (s.ring 63).descs = [] ∧ s.owned 63 ≠ 0 ∧ ownBit (List.replicate 8 0) = false ∧ ownBit (entry 1 8) = true ∧
     typeFunc (entryType (entry 1 8)) = some (1, true) ∧ s.ringFunc 63 = 1 ∧ chained (entry 1 8) = false ∧
     formOk 1 true (entry 1 8) = true ∧ typeFunc (entryType (entry 8 8)) = some (3, false) ∧ ownBit (entry 8 8) = true) := by
  decide +kernel

theorem wit_RingsStartAndStop :
    (let s := (live.wr (Reg.HST_RCFG_func 63) 3).wr (Reg.HST_RAUD_lead 63) 6
     s.rd (Reg.HST_RSTAT_state 63) = 0 ∧ funcDir 3 = some (s.on (Reg.HST_RCFG_dir 63)) ∧ s.rangeOk 63 = true ∧
     (s.engineAlloc 4 63 (s.stagingShelves 63) false).isSome = true ∧
     funcDir 3 ≠ some ((s.wr (Reg.HST_RCFG_dir 63) 1).on (Reg.HST_RCFG_dir 63)) ∧
     (s.wr (Reg.HST_RBASE_LO_base 63) 1).rd64 (Reg.HST_RBASE_LO_base 63) (Reg.HST_RBASE_HI_base 63) % 2048 ≠ 0) ∧
    (rung 63 1 1 [desc 1 1 []]).ringOn 63 = true ∧
    (let s := live.wr (Reg.HST_RSTAT_state 63) 3
     s.rd (Reg.HST_RSTAT_state 63) = 3 ∧ (s.ring 63).descs = [] ∧ s.allocHeld 4 63 = none) := by decide +kernel

theorem wit_HostFailuresModerationAndReset :
    ((rung 63 1 1 [desc 1 1 []]).ringRuns 63 = true ∧ ((rung 63 1 1 [desc 1 1 []]).ring 63).descs = [desc 1 1 []] ∧
     (desc 1 1 []).stage = .taken ∧ (rung 63 1 1 []).on Reg.HST_STATUS_bme = true) ∧
    (let s := ((live.setRing 63 { Ring.reset with since := some 60 }).wr (Reg.HST_RMOD_laps 63) 40).wr (Reg.HST_RMOD_irq_en 63) 1
     let e : MsixEntry := { MsixEntry.reset with ctl := 0 }
     let u := { s with host := { s.host with msixEn := true, msixMask := false, msix := [(0, e)] } }
     (u.ring 63).since = some 60 ∧ u.rd (Reg.HST_RMOD_laps 63) = 40 ∧ 60 + 40 ≤ u.lap ∧
     u.on (Reg.HST_RMOD_irq_en 63) = true ∧ u.on Reg.HST_STATUS_bme = true ∧ u.host.msixEn = true ∧
     u.host.msixMask = false ∧ (u.host.msix.get MsixEntry.reset 0).ctl.getLsbD 0 = false) ∧
    { live with host := { live.host with flr := true } }.host.flr = true := by decide +kernel

theorem wit_BuffersPlaybackAndRecord :
    ((rung 63 2 1 [desc 5 64 []]).oldest 63 5 .taken).isSome = true ∧
    ((rung 63 6 1 [desc 13 64 []]).oldest 63 13 .taken).isSome = true ∧
    ((rung 63 7 1 [desc 16 64 []]).oldest 63 16 .taken).isSome = true ∧
    ((rung 63 8 1 [desc 17 64 []]).oldest 63 17 .taken).isSome = true ∧
    ((rung 63 4 1 [desc 9 64 []]).oldest 63 9 .taken).isSome = true ∧
    (let d := desc 8 2 []
     let s := rung 63 3 1 [d]
     s.ringRuns 63 = true ∧ (s.ring 63).descs = [d] ∧ d.type = 8 ∧ d.stage = .taken ∧ s.on Reg.HST_STATUS_bme = true ∧
     d.len * (fmtBytes (s.rd (Reg.HST_RAUD_fmt 63)) * (s.chanRange 63).2) = [(1 : Byte), 2, 3, 4, 5, 6, 7, 8].length) := by decide +kernel

/-! ### Movers -/

/-- A running mover whose program memory holds one instruction at its pc. -/
def moving (m i : Nat) : State :=
  let s := live.wr (Reg.MOV_STAT_state m) 1
  { s with fab := { s.fab with pmem := Tbl.put 0 0 (BitVec.ofNat 64 i) [] } }

/-- Opcode and low bits of an instruction. -/
def opc (op low : Nat) : Nat := op * 2 ^ 58 + low

/-- A mover in a state with registers a and b on its scratch. -/
def scratchy (s : State) (m a b : Nat) : State :=
  ((((s.wr (Reg.MOV_ARCFG_space (arOf m a)) 4).wr (Reg.MOV_ARCFG_space (arOf m b)) 4).wr (Reg.MOV_ARLEN_len (arOf m a)) 16).wr
    (Reg.MOV_ARLEN_len (arOf m b)) 32).wr (Reg.MOV_ARBASE_base (arOf m b)) 16

/-- A MOVE from register 0 to register 1: widths 16 to 32, raw, one element. -/
def aMove (extra : Nat) : Nat := opc 1 (1 * 2 ^ 52 + 2 * 2 ^ 46 + 1 + extra)

theorem wit_MoverInstructions :
    let runs (m op i : Nat) : Bool :=
      let s := moving m i
      s.mstate m == 1 && (s.mover m).run.isNone && bitsOf (s.instrAt m) 58 6 == op &&
        decide ((s.mover m).used < s.rd (Reg.MOV_BUDGET_budget m))
    runs 15 0 0 = true ∧ runs 15 0 1 = true ∧ bitsOf 1 1 57 = 0 ∧
    runs 15 2 (opc 2 (2 ^ 16 + 5)) = true ∧ bitsOf (opc 2 (2 ^ 16 + 5)) 16 16 ≠ 0 ∧ bitsOf (opc 2 (2 ^ 16 + 5)) 32 24 = 0 ∧
    runs 15 3 (opc 3 25599) = true ∧ waitOk (opc 3 25599) = true ∧ runs 15 4 (opc 4 (15 * 2 ^ 54)) = true ∧
    bitsOf (opc 4 (15 * 2 ^ 54)) 0 54 = 0 ∧ runs 15 5 (opc 5 2047) = true ∧ bitsOf (opc 5 2047) 11 37 = 0 ∧
    bitsOf (opc 5 2047) 56 2 = 0 ∧ bitsOf (opc 5 2047) 48 8 = 0 := by decide +kernel

theorem wit_MoverFaultsEndExecution :
    (let s := moving 15 (opc 6 0)
     s.mstate 15 = 1 ∧ (s.mover 15).run = none ∧ 6 ≤ bitsOf (s.instrAt 15) 58 6 ∧
     (s.mover 15).used < s.rd (Reg.MOV_BUDGET_budget 15)) ∧
    (let s := (moving 15 0).setMover 15 { Mover.reset with used := 1000000 }
     s.mstate 15 = 1 ∧ s.rd (Reg.MOV_BUDGET_budget 15) ≤ (s.mover 15).used) ∧
    moveFields (opc 1 0) = none ∧ bitsOf 2 1 57 ≠ 0 ∧ bitsOf (opc 2 0) 16 16 = 0 ∧ waitOk (opc 3 25600) = false ∧
    bitsOf (opc 4 1) 0 54 ≠ 0 ∧ bitsOf (opc 5 2048) 11 37 ≠ 0 ∧
    (let s := (moving 15 (aMove (2 ^ 45))).wr (Reg.MOV_STAT_fill 15) 8
     s.fill 15 ≠ 0 ∧ (moveFields (aMove (2 ^ 45))).any (·.sample) = true) := by decide +kernel

theorem wit_MovesRunElementByElement :
    (let s := scratchy (moving 15 (aMove 0)) 15 0 1
     let f : MoveI := ⟨0, 1, 16, 32, false, false, false, false, false, 0, 1⟩
     moveFields (s.instrAt 15) = some f ∧ (s.moveElem 15 f false .ok).2 = none ∧
     ((s.moveElem 15 f false .ok).1.flushHold 15 f false).2 = none ∧ s.fill 15 = 0 ∧
     ((s.wr (Reg.MOV_ARCFG_space (arOf 15 0)) 7).moveElem 15 f false .ok).2 ≠ none) ∧
    (let s := moving 15 (aMove (2 ^ 41))
     let u := s.setMover 15 { Mover.reset with run := some ⟨1, false⟩, ir := aMove (2 ^ 41) }
     (moveFields (u.mover 15).ir).any (·.paced) = true ∧ (u.mover 15).run = some ⟨1, false⟩ ∧ u.mstate 15 = 1 ∧
     u.reqLine 0 = false ∧
     ({ u with audio := { u.audio with exchLap := 101 }, port := { u.port with ports := [(0, { u.aport 0 with inp := { Side.reset with data := true } })] } }).reqLine 0 = true) := by
  decide +kernel

theorem wit_ElementsConvertAndPack :
    (let s := scratchy live 15 0 1
     let f : MoveI := ⟨0, 1, 16, 32, true, false, false, false, false, 0, 1⟩
     s.elemFault 15 0 16 false = none ∧ (s.arAdvance 15 0).elemFault 15 1 32 true = none ∧
     moveFields (aMove 0) = some { f with sample := false } ∧ s.fill 15 < 32 ∧ (s.mover 15).h.toNat < 2 ^ s.fill 15 ∧
     (s.moveElem 15 { f with sample := false } false .ok).2 = none) ∧
    (let s := (live.wr (Reg.MOV_ARCFG_space (arOf 15 0)) 1).setTstate 0 0
     s.rd (Reg.MOV_ARCFG_space (arOf 15 0)) = 1 ∧ (s.xTile (s.arAddr 15 0)).isSome = true) := by decide +kernel

theorem wit_WaitsStartsAndWrites :
    (let i := opc 3 (3 * 2 ^ 55 + 2 ^ 16 + 4)
     let s := live.wr (Reg.MOV_STAT_state 15) 2
     let u := s.setMover 15 { Mover.reset with waited := 1, tick := true, ir := i }
     u.mstate 15 = 2 ∧ (u.mover 15).startWait = 0 ∧ bitsOf i 55 3 = 3 ∧ bitsOf i 16 16 = 1 ∧ u.waitMet 15 i = false ∧
     (s.wr (Reg.MOV_INBOX_inbox 15) 6).inbox 15 &&& bitsOf i 0 16 ≠ 0 ∧ (u.mover 15).tick = true ∧
     1 ≤ (u.mover 15).waited ∧ bitsOf (opc 3 0) 55 3 = 0 ∧ bitsOf (opc 3 (2 * 2 ^ 55 + 7 * 2 ^ 48)) 48 7 = 7 ∧
     { s with fab := { s.fab with tev := [(7, true)] } }.fab.tev.get false 7 = true) ∧
    live.mstate 15 = 0 ∧ live.on Reg.COR_LOCK_locked = false ∧
    (let s := ((live.wr Reg.MOV_LOCK_mov_lim 16).wr (Reg.MOV_STAT_state 15) 3).setMover 15 { Mover.reset with waited := 1 }
     s.systemMover 15 = true ∧ s.mstate 15 = 3 ∧ 1 ≤ (s.mover 15).waited ∧ s.keeperOk = true ∧
     (s.wr Reg.COR_LOCK_locked 1).on Reg.COR_LOCK_locked = true) ∧
    ((live.setMover 15 { Mover.reset with startWait := 2 }).mover 15).startWait = 2 ∧
    live.rd Reg.MOV_LOCK_pmem_lim ≤ 0x3FFC / 8 ∧ 0 < (live.wr Reg.MOV_LOCK_pmem_lim 1).rd Reg.MOV_LOCK_pmem_lim := by
  decide +kernel

/-! ### Cellar and crossbar -/

/-- CEL_ALLOC_OWNER and the count of CEL_ALLOC_REQ written. -/
def asks (kind index count : Nat) (s : State) : State :=
  ((s.wr Reg.CEL_ALLOC_OWNER_kind kind).wr Reg.CEL_ALLOC_OWNER_index index).wr Reg.CEL_ALLOC_REQ_count count

/-- The engine with allocations held. -/
def holding (l : List Alloc) : State := { live with fab := { live.fab with allocs := l } }

def line0 : Alloc := ⟨1, 4096, 100, 2, none, false⟩
def pool0 : Alloc := ⟨7, 255, 200, 2, some 1000, true⟩

theorem wit_AllocationCommands :
    { live with fab := { live.fab with busy := some ⟨1, 7, 0, 0⟩ } }.fab.busy ≠ none ∧ live.fab.busy = none ∧
    (let s := asks 7 255 24575 live
     agentKind .host 7 = true ∧ agentKind .keeper 8 = true ∧ ownerOk 7 255 = true ∧ countOk 7 24575 = true ∧ s.allocHeld 7 255 = none ∧
     s.rd Reg.CEL_ALLOC_OWNER_kind = 7 ∧ s.rd Reg.CEL_ALLOC_OWNER_index = 255 ∧ s.rd Reg.CEL_ALLOC_REQ_count = 24575 ∧
     (s.placeRun true false 24575).isRight = true ∧ (s.placeRun true true 24575).isLeft = true ∧
     (s.placeRun true true 384).isRight = true) ∧
    agentKind .host 5 = false ∧ agentKind .host 1 = true ∧ ownerOk 7 256 = false ∧ countOk 1 130 = false ∧ ownerOk 5 0 = true ∧
    (let s := asks 7 255 3 (holding [pool0])
     s.allocHeld 7 255 = some pool0 ∧ pool0.first + pool0.count ≤ 24576 ∧ runFree s.usedRuns 202 1 = true ∧
     runFree ((202, 1) :: s.usedRuns) 1002 1 = true ∧
     (asks 7 255 3 (holding [pool0, ⟨7, 0, 202, 1, none, false⟩])).usedRuns.any (fun u => u.1 == 202) = true) ∧
    (let s := asks 1 4096 129 (holding [line0])
     s.allocHeld 1 4096 = some line0 ∧ countOk 1 129 = true ∧ s.delayNeed (lineObj 4096) ≤ lineCap 129 ∧
     (s.placeRun true false 129).isRight = true ∧
     (let u := { s with vault := { s.vault with page0 := [(delayPid (lineObj 4096), 9000)] } }
      u.delayNeed (lineObj 4096) ≠ 0 ∧ lineCap 1 < u.delayNeed (lineObj 4096)) ∧
     { s with fab := { s.fab with relocs := [⟨1, 4096, 300, 3, none, false, 0, false, 0⟩] } }.fab.relocs.any (·.index == 4096) = true) ∧
    (let s := { asks 2 3 2 (holding [⟨2, 3, 300, 1, none, false⟩]) with tile := { live.tile with placed := [(1344 + 3, 1)] } }
     s.rackPlaced 3 = true ∧ (s.allocHeld 2 3).isSome = true) := by decide +kernel

theorem wit_AllocationsCompleteAndPiecesAreServed :
    (let r : Reloc := ⟨1, 4096, 300, 3, some 2000, true, 0, true, 99⟩
     let s := { holding [line0] with fab := { (holding [line0]).fab with busy := some ⟨3, 1, 4096, 2⟩, relocs := [r] } }
     s.fab.busy = some ⟨3, 1, 4096, 2⟩ ∧ s.run = true ∧ { s with regs := ready.regs }.run = false ∧
     s.fab.relocs.find? (fun x => x.index == 4096) = some r ∧
     s.fab.relocs.find? (fun x => x.kind == 1 && x.index == 4096 && x.copied && decide (x.lap < s.lap)) = some r ∧ s.allocHeld 1 4096 = some line0) ∧
    live.rd (Reg.CEL_PBANK_owner 63) = 0 ∧ live.bankIdle 63 = true ∧
    (let s := { live with fab := { live.fab with handover := [⟨67, 0, 99⟩, ⟨63, 2, 99⟩] } }
     s.fab.handover.find? (fun h => h.bank == 63 && (!s.run || decide (h.lap < s.lap))) = some ⟨63, 2, 99⟩ ∧
     s.fab.handover.find? (fun h => h.bank == 67 && (!s.run || decide (h.lap < s.lap))) = some ⟨67, 0, 99⟩) ∧
    (let s := holding [pool0]
     s.targetOk 35 0 (201 * 4096) 4 true = true ∧ pathOf 35 0 = some (true, true) ∧ s.targetOk 35 0 (201 * 4096) 4 false = true ∧
     (Instr.cellarPiece 35 0 (201 * 4096) true [1, 2, 3, 4] true [] none).wf = true ∧
     (Instr.cellarPiece 35 0 (201 * 4096) false [1, 2, 3, 4] true [(0, .allBad)] (some 1)).wf = true ∧
     inRun pool0.first pool0.count (201 * 4096) = true ∧ s.inTwin (201 * 4096) = false ∧ s.engineByte (201 * 4096) = false ∧
     pathOf 27 5 = some (true, true) ∧ s.targetOk 1 6 0 4 true = true ∧ s.targetOk 1 6 (0x400000 + 0x40000) 4 true = false ∧
     pathOf 0 7 = some (true, true) ∧ s.decodes 0x1FFC = false ∧ s.decodes 0 = true ∧ pathOf 35 8 = none ∧
     (Instr.cellarPiece 35 0 0x6000000 false [0] false [] none).wf = true ∧ s.targetOk 27 0 0 1 false = false ∧
     s.decodePolicy 0 = false ∧ (s.wr Reg.XBR_DPOL0_pol 1).decodePolicy 0 = true ∧ s.windowOffset 0 = none ∧
     ((s.wr (Reg.HST_WIN_CTL_en 7) 1).windowOffset 0).isSome = true ∧ s.targetOk 26 0 0 1 true = false ∧
     (let u := s.wr (Reg.MOV_STAT_state 15) 1
      u.mstate 15 = 1 ∧ u.cellarFault 15 0 1 true = some faultAccess ∧ u.targetOk 25 0 0 1 true = false)) := by
  decide +kernel
/-! ### Audio ports -/

/-- A port in a state. -/
def porting (p st : Nat) (x : Port) : State := (live.setAport p x).setPst p st

/-- A side with data enabled whose next frame takes a count. -/
def sided (m : Int) : Side := { Side.reset with data := true, count := some m, last := some 0 }

theorem wit_PortsStartStopAndAreLost :
    live.pst 31 = 0 ∧ live.portCheck 31 = 0 ∧ ((live.wr (Reg.APT_FMT_word_w 0) 3).wr (Reg.APT_FMT_slot_w 0) 0).portCheck 0 ≠ 0 ∧
    (porting 31 3 Port.reset).pst 31 = 3 ∧ ownMaster 31 0 = true ∧ ownMaster 16 0 = false ∧ (porting 31 7 Port.reset).pst 31 = 7 ∧
    ((porting 31 6 Port.reset).wr (Reg.APT_CTL_auto_acq 31) 1).on (Reg.APT_CTL_auto_acq 31) = true ∧
    ((porting 31 4 { Port.reset with stopAt := 85 }).aport 31).stopAt + live.fLap ≤ live.lap + 1 ∧
    ((porting 31 4 { Port.reset with heldStart := true }).aport 31).heldStart = true ∧
    (let s := porting 16 1 { Port.reset with blocks := 1000, okLaps := 1000 }
     s.pst 16 = 1 ∧ s.run = true ∧ s.pstate = 2 ∧ s.syn.change = none ∧ s.blocksMet 16 = true) ∧
    (let s := porting 0 3 { Port.reset with chans := [(63, .search 100000)], prev := [(63, 5)] }
     (s.aport 0).chans.get .closed 63 = .search 100000 ∧ s.msSamples (s.rd Reg.APT_GCFG_unmute_to) ≤ 100000 ∧
     sgn (7#48) = sgn ((s.aport 0).prev.get 0 63)) ∧
    (let s := porting 16 2 Port.reset
     s.clockOf 16 = [16] ∧ s.portMaster 16 (s.aport 16).fmt = false ∧ s.pst 16 = 2) := by decide +kernel

theorem wit_FramesTakeTheirCounts :
    live.portMaster 31 (live.aport 31).fmt = true ∧ live.portMaster 16 (live.aport 16).fmt = false ∧
    ((live.aport 16).side false).data = false ∧
    (let s := porting 16 3 { Port.reset with inp := sided 8 }
     ((s.aport 16).side false).data = true ∧ ((s.aport 16).side false).count = some 8 ∧ s.lapFirst (sided 8) 8 = true ∧ s.lapFirst (sided 8) 9 = false ∧
     ¬InPhase (s.phaseOf false 16 8 (10 * s.ts)) s.ts ∧ InPhase (s.phaseOf false 16 8 (6 * s.ts)) s.ts ∧
     s.phaseOf false 16 8 (4 * s.ts) ≥ 0 ∧ ¬InPhase (s.phaseOf false 16 8 (4 * s.ts)) s.ts ∧
     ((s.aport 16).side false).last = some 0 ∧ (s.glitchTol : Int) < ((0 - 0 - (s.ts : Int)).natAbs : Int)) := by
  unfold InPhase
  decide +kernel

theorem wit_FramesPassThroughTheFifos :
    (let s := ((porting 15 3 { Port.reset with clocks := true }).wr (Reg.APT_CTL_in_en 15) 1).wr (Reg.APT_CTL_out_en 15) 1
     s.portFollows 15 = true ∧ opensFrame (s.aport 15).fmt ⟨true, true, false⟩ = true ∧
     opensFrame (s.aport 15).fmt ⟨true, false, true⟩ = false ∧ live.portFollows 16 = false ∧ s.inUsed 15 = true ∧ s.outUsed 15 = true ∧ (s.frameStart 15 false 0).2 = some 1 ∧
     (s.outStart 15 (s.ts : Int)).2 = some 0) ∧
    (let s := porting 31 3 { Port.reset with clocks := true, csLoad := true }
     s.portFollows (24 + 7) = true ∧ (s.outStart 31 (s.ts : Int)).2 = some 0 ∧ (s.aport 31).csLoad = true) ∧
    (let s := porting 23 3 { Port.reset with inp := { sided 3 with frame := some 3 } }
     let u := { s with port := { s.port with cs := [(15, { CsBlock.reset with bits := some (List.replicate 191 true) })] } }
     s.portFollows (16 + 7) = true ∧ (s.aport 23).inp.frame = some 3 ∧ (s.csOf 7 1).bits = none ∧
     (u.csOf 7 1).bits.map (·.length) = some 191 ∧
     (let b := bytesOf (List.replicate 192 true) 24
      (b.headD 0).getLsbD 0 = true ∧ crcc (b.take 23) ≠ b.getD 23 0)) := by decide +kernel

/-! ### Network ports and media streams -/

/-- Both network ports up; a context's registers: one path, one channel of 24 bits, 6 frames to a packet. -/
def netted (c st : Nat) (x : Ctx) : State :=
  let s := (((live.wr (Reg.NT_CFG_mode 0) 1).wr (Reg.NT_STATUS_link 0) 1).wr (Reg.NT_CFG_mode 1) 1).wr (Reg.NT_STATUS_link 1) 1
  let s := (s.wr Reg.STM_SEL_ctx (c % 512)).wr Reg.STM_SEL_dir (c / 512)
  let s := (((s.cw c Reg.STM_CFG_paths 1).cw c Reg.STM_CFG_enc 1).cw c Reg.STM_DST_A_addr 0xEF000001).cw c Reg.STM_UDP_dst_port 5004
  let s := ((s.cw c Reg.STM_DRX_len64 8).cw c Reg.STM_DRX_d_rx 200).setCst c st
  if st = 0 then s else
    let s := s.setCtx c x
    { s with fab := { s.fab with allocs := [⟨3, c, 10, s.cShelves c 512, none, false⟩] } }

/-- A context that has played. -/
def ctxOn : Ctx := { Ctx.reset with k := 32, len := 512, dRx := 200, mRead := 400, w := 400, idle := 1000000, idleA := 1000000 }

/-- A frame of the context's stream: Ethernet, IPv4, UDP to port 5004, RTP with timestamp 0. -/
def aFrame (s : State) (c : Nat) : List Byte :=
  let l : List Byte := [0x01, 0x00, 0x5E, 0, 0, 1, 0, 0, 0, 0, 0, 0, 0x08, 0x00, 0x45, 0, 0, 184, 0, 0, 0, 0, 64, 17, 0, 0,
    10, 0, 0, 1, 0xEF, 0, 0, 1, 0x13, 0x8C, 0x13, 0x8C, 0, 164, 0, 0, 0x80, BitVec.ofNat 8 (s.cr c Reg.STM_RTP_pt), 0, 0,
    0, 0, 0, 0, 0, 0, 0, 0] ++ List.replicate (s.cPayload c) 7
  l ++ fcs l

theorem wit_StreamContextsAreCommanded :
    (let s := netted 511 0 Ctx.reset
     s.selCtx = 511 ∧ s.cst 511 = 0 ∧ s.enableReason 511 = 0 ∧ (s.cw 511 Reg.STM_CFG_paths 1).cst 511 = 0 ∧
     (s.engineAlloc 3 511 (s.cShelves 511 512) false).isSome = true ∧
     (s.cw 511 Reg.STM_DRX_len64 0).enableReason 511 ≠ 0) ∧
    (let s := netted 511 3 ctxOn
     s.selCtx < 512 ∧ s.cst 511 = 3 ∧ (s.ctx 511).k ≠ 0 ∧ s.drxOk 511 200 512 = true ∧
     s.cShelves 511 512 ≤ ((s.allocHeld 3 511).map (·.count)).getD 0 ∧
     (let u := s.cw 511 Reg.STM_DRX_len64 100
      u.drxOk 511 200 6400 = true ∧ ((u.allocHeld 3 511).map (·.count)).getD 0 < u.cShelves 511 6400 ∧
      ((u.freeAlloc 3 511).engineAlloc 3 511 (u.cShelves 511 6400) false).isSome = true) ∧
     (s.cw 511 Reg.STM_DRX_d_rx 5).drxOk 511 5 512 = false ∧ s.rd Reg.STM_GCFG_rx_timeout ≤ (s.ctx 511).idle ∧
     (s.cw 511 Reg.STM_STATUS_path_a 1).cr 511 (pathBit 0) = 1 ∧ s.rd Reg.STM_GCFG_rx_timeout ≤ (s.ctx 511).idleA) ∧
    (let s := netted 1023 2 ctxOn
     s.selCtx = 1023 ∧ s.cst 1023 = 2 ∧ s.run = true) ∧ (netted 511 5 ctxOn).cst 511 = 5 ∧
    (let s := netted 511 6 { ctxOn with newD := some 300, force := true, k := 0, newLen := some 256, here := [100, 600], reads := 512 }
     s.cst 511 = 6 ∧ (s.ctx 511).newD = some 300 ∧ (s.ctx 511).force = true ∧ (s.ctx 511).k = 0 ∧
     (s.ctx 511).newLen = some 256 ∧ (s.ctx 511).reads ≠ 0 ∧ (s.ctx 511).reads = (s.ctx 511).len) := by decide +kernel

set_option maxRecDepth 10000 in
theorem wit_FramesAndPacketsAreReceived :
    live.netUp 1 = false ∧ (netted 0 2 ctxOn).netUp 0 = true ∧ (netted 0 2 ctxOn).frameBad 0 [1, 2, 3] = true ∧
    (let s := netted 0 2 { ctxOn with mRead := 190, w := 190 }
     let f := aFrame s 0
     let l := f.take (f.length - 4)
     s.frameBad 0 f = false ∧ isTagged l = false ∧ ptpPayload l = none ∧ isUdp l = true ∧ s.mediaCtx 0 l = some 0 ∧
     s.formError 0 l = false ∧ (s.cw 0 Reg.STM_RTP_pt 5).formError 0 l = true ∧ s.syn.mult ≤ 2 ∧
     max (s.ctx 0).w (s.ctx 0).mRead ≤ s.countOfRtp 0 (be (udpPayload l) 4 4) + 5 ∧
     s.countOfRtp 0 (be (udpPayload l) 4 4) + 5 < max (s.ctx 0).w (s.ctx 0).mRead + 512 ∧
     (let u := netted 0 0 Ctx.reset
      u.mediaCtx 0 l = none ∧ ¬(be l 12 2 = 0x0800 ∧ be l 23 1 = 2) ∧ u.forHost 0 l = false ∧
      (u.wr (Reg.NT_CFG_mcast 0) 2).forHost 0 l = true ∧ u.buffer (u.rd (Reg.NT_CFG_rx_ring 0)) 6 = none ∧
      (let d := { desc 13 1024 [] with stage := .posted }
       let v := (rung 0 6 1 [d])
       v.buffer 0 6 = some d))) := by decide +kernel

theorem wit_PacketsAndFramesAreSent :
    (let s := netted 1023 2 { ctxOn with m0 := 144 }
     live.packetDue 1023 = false ∧ s.packetDue 1023 = true ∧ s.cst 1023 ≠ 6 ∧
     (let u := netted 1023 6 { ctxOn with m0 := 144, stopAt := 2 }
      u.packetDue 1023 = true ∧ u.cst 1023 = 6 ∧ ((u.ctx 1023).stopAt - 1) * u.nLap + 32 ≤ (u.ctx 1023).m0 + u.cP 1023)) ∧
    (let d := desc 12 2 [0, 0, 0, 2 + 5 * 4]
     let s := rung 63 5 1 [d]
     s.ringRuns 63 = true ∧ s.on Reg.HST_STATUS_bme = true ∧ s.oldest 63 0x0C .taken = some d ∧
     [(1 : Byte), 2].length = chainBytes d.segs ∧ bitsOf (d.word 4) 0 2 = 2 ∧ bitsOf (d.word 4) 2 3 = 5 ∧
     bitsOf ((desc 12 2 [0, 0, 0, 3]).word 4) 0 2 = 3) ∧
    (let s := netted 0 0 Ctx.reset
     let f : EgFrame := ⟨[1, 2, 3], .media 5 512⟩
     let u := s.setNport 1 { NetPort.reset with queues := [(7, [f])] }
     s.netUp 1 = true ∧ (∀ q, q < 8 → (s.nport 1).queues.get [] q = []) ∧ (u.nport 1).queues.get [] 7 = [f] ∧
     ∀ j, j < 7 → (u.nport 1).queues.get [] j = []) := by decide +kernel

theorem wit_LinksModulesGroupsAndChannelStatus :
    (let s := netted 511 2 ctxOn
     s.on (Reg.NT_STATUS_link 1) = true ∧ live.on (Reg.NT_STATUS_link 1) = false ∧ live.rd (Reg.NT_CFG_mode 1) = 0 ∧
     s.rd (Reg.NT_CFG_mode 1) ≠ 0 ∧ s.on (Reg.NT_STATUS_los 1) ≠ !s.on (Reg.NT_STATUS_los 1) ∧
     (0x1000000#32).getLsbD 24 = true ∧ s.on (Reg.NT_I2C_STAT_busy 1) = false ∧
     (s.wr (Reg.NT_I2C_STAT_busy 1) 1).on (Reg.NT_I2C_STAT_busy 1) = true ∧ 511 ∈ s.groupCtx 0 ∧ 511 ∉ s.groupCtx 1 ∧
     s.rd Reg.APT_CS_ADDR_port < 24 ∧ (s.wr Reg.APT_CS_ADDR_port 31).rd Reg.APT_CS_ADDR_port = 31 ∧
     (s.wr Reg.APT_CS_ADDR_byte 23).rd Reg.APT_CS_ADDR_byte = 23 ∧ s.cr 511 Reg.STM_CS_ADDR_byte < 24) := by decide +kernel

/-! ### Time -/

/-- An instance in a port state with a valid offset. -/
def timed (n st : Nat) (off : Int) (s : State) : State :=
  ((s.setPtp n { Ptp.reset with off := off }).wr (Reg.TIM_PTP_STATE_valid n) 1).setPtpState n st

/-- A timed output armed with a period. -/
def touts (n : Nat) (period : Int) (shape : Nat) : State :=
  ((live.setTout n ⟨true, 100, period, 5, 0, false⟩).wr (Reg.TIM_TOUT_CFG_oe n) 1).wr (Reg.TIM_TOUT_CFG_shape n) shape

theorem wit_TimeIsReadSetAndStepped : live.run = true ∧ ready.run = false ∧
    (let s := (timed 1 3 (5 * 65536) ready).wr (Reg.DPL_REF_CFG_rank 1) 3
     s.run = false ∧ s.on Reg.TIM_CFG_no_autoset = false ∧ s.time.autoset = false ∧ s.autosetFrom 1 = true ∧
     live.autosetFrom 1 = false) ∧
    (let s := timed 1 3 (10 ^ 9 * 65536 + 5) live
     s.offValid 1 = true ∧ s.epochBusy = false ∧ s.rateBusy = false ∧ s.inRing = false ∧ live.offValid 1 = false ∧
     (s.wr Reg.EXL_STATUS_state 4).inRing = true ∧ (s.wr Reg.EXL_STATUS_state 4).isMaster = false ∧
     ((s.wr Reg.EXL_STATUS_state 4).wr Reg.EXL_STATUS_master_ok 1).isMaster = true) ∧
    live.time.epoch = none ∧
    (let e : Epoch := ⟨100, 48000, 0, true⟩
     let s := { live with time := { live.time with epoch := some e } }
     s.time.epoch = some e ∧ e.lap ≤ s.lap) := by decide +kernel

theorem wit_TimedEventsAndPtpMessages :
    (let s := (live.wr (Reg.TIM_TOUT_PER_NS_ns 7) 9).wr (Reg.TIM_TOUT_WIDTH_cycles 7) 1
     let u := s.writePlain true (Reg.TIM_TOUT_CFG_arm 7).off 0xFFFFFFFF
     u.on (Reg.TIM_TOUT_CFG_periodic 7) = true ∧ s.rd (Reg.TIM_TOUT_PER_NS_ns 7) < 10 ∧ (1#32).getLsbD 0 = true ∧
     (live.writePlain true (Reg.TIM_TOUT_CFG_arm 7).off 1).on (Reg.TIM_TOUT_CFG_periodic 7) = false ∧
     (let v := { live with time := { live.time with clock := 2 ^ 60, ticking := true } }
      v.clockAt 1000 > (v.rd64 (Reg.TIM_TOUT_SEC_LO_sec 7) (Reg.TIM_TOUT_SEC_HI_sec 7) * 10 ^ 9 +
        v.rd (Reg.TIM_TOUT_NS_ns 7)) * 2 ^ 32) ∧
     live.clockAt 1000 ≤ ((live.wr (Reg.TIM_TOUT_NS_ns 7) 999999999).rd (Reg.TIM_TOUT_NS_ns 7)) * 2 ^ 32) ∧
    (let s := touts 7 1000 1
     (s.tout 7).armed = true ∧ (live.clockAt 0 : Int) < (s.tout 7).trigger ∧
     (s.tout 7).trigger ≤ { s with time := { s.time with clock := 7, ticking := true } }.clockAt 5 ∧ (s.tout 7).period ≠ 0 ∧ ((touts 7 0 0).tout 7).period = 0 ∧ (live.tout 7).armed = false ∧
     s.on (Reg.TIM_TOUT_CFG_oe 7) = true ∧ s.rd (Reg.TIM_TOUT_CFG_shape 7) = 1 ∧ (touts 7 0 0).rd (Reg.TIM_TOUT_CFG_shape 7) = 0) ∧
    (let s := live.wr (Reg.TIM_TCAP_CFG_edge 7) 3
     let full := { s with time := { s.time with tcap := [(7, [⟨1, 2, true⟩, ⟨1, 3, false⟩, ⟨1, 4, true⟩, ⟨1, 5, true⟩])] } }
     s.on (Reg.TIM_TCAP_CFG_filt 7) = false ∧ s.time.lastEdge.get 0 7 = 0 ∧
     s.clockAt 0 + 1 < { s with time := { s.time with lastEdge := [(7, 2 ^ 80)] } }.time.lastEdge.get 0 7 ∧
     bitAt (s.rd (Reg.TIM_TCAP_CFG_edge 7)) 1 = true ∧ (full.time.tcap.get [] 7).length = 4 ∧
     (s.wr (Reg.TIM_TCAP_CFG_filt 7) 1).on (Reg.TIM_TCAP_CFG_filt 7) = true) ∧
    (timed 1 5 0 live).ptpServed 1 = true ∧ (live.wr (Reg.SCH_SVC_affinity 1) 0).ptpServed 1 = false ∧
    (timed 1 5 0 live).ptpState 1 = 5 ∧ (timed 1 3 0 live).ptpState 1 = 3 ∧
    live.on (Reg.TIM_PTP_CFG_dmech 1) = false ∧ (live.wr (Reg.TIM_PTP_CFG_dmech 1) 1).on (Reg.TIM_PTP_CFG_dmech 1) = true := by
  decide +kernel

/-! ### References -/

/-- An edge slot with a rank and a rate of a frequency over a divisor. -/
def slotted (n num den : Nat) : State :=
  ((live.wr (Reg.DPL_REF_CFG_rank n) 1).wr (Reg.DPL_REF_NUM_num n) num).wr (Reg.DPL_REF_DEN_den n) den

theorem wit_ReferencesAreSampledAndTheDpllTicks :
    live.slotOn 6 = false ∧ (slotted 6 20000 1).slotOn 6 = true ∧ (slotted 6 1 1).slotOn 6 = true ∧
    (slotted 7 0 0).slotOn 7 = true ∧ live.syn.mult < 3 ∧ live.on (Reg.DPL_REF_CFG_falling 6) = false ∧
    (let s := (slotted 6 1 1).setSlot 6 { RefSlot.reset with clean := 100000 }
     (s.slot 6).qual = false ∧ 1000 * s.rd Reg.DPL_QUAL_qual_s ≤ (s.slot 6).clean) ∧
    (let s := { live with syn := { live.syn with xo := true } }
     s.syn.xo = true ∧ { live with syn := { live.syn with xo := false } }.syn.xo = false ∧
     (s.wrS Reg.SYN_RAMP_NOW_y 5).rdS Reg.SYN_RAMP_NOW_y ≠ 0 ∧ s.rdS Reg.SYN_RAMP_NOW_y = 0 ∧ s.dpll.suspend = none ∧
     s.dst ≠ 4 ∧ (s.wr Reg.DPL_CFG_mode 3).rd Reg.DPL_CFG_mode = 3 ∧ s.dpll.mode ≠ 3 ∧
     { s with dpll := { s.dpll with step := 3 } }.dpll.step ≠ 0) ∧
    (let s := { live with dpll := { live.dpll with lockTicks := 100000, unlockTicks := 100000, yCnt := 1000 } }
     1000 * s.rd Reg.DPL_LOCK_lock_s ≤ s.dpll.lockTicks ∧ (s.setDst 1).dst = 1 ∧ (s.setDst 2).dst = 2 ∧ 1000 ≤ s.dpll.yCnt) ∧
    (let s := (((live.wr (Reg.DPL_FP_NUM_num 3) 48000).wr (Reg.DPL_FP_DEN_den 3) 48000).wr (Reg.DPL_FP_CFG_width 3) 1).wr
        (Reg.DPL_FP_CFG_en 3) 1
     let num := s.rd (Reg.DPL_FP_NUM_num 3)
     let den := s.rd (Reg.DPL_FP_DEN_den 3)
     let w := s.rd (Reg.DPL_FP_CFG_width 3)
     (0 < den ∧ den ≤ num ∧ num ≤ 10 ^ 6 * den ∧ 0 < w ∧ 2 * w * num ≤ den * s.clkT) ∧ s.on (Reg.DPL_FP_CFG_en 3) = true ∧
     (s.wr (Reg.DPL_FP_CFG_width 3) 0).rd (Reg.DPL_FP_CFG_width 3) = 0 ∧
     (s.wr (Reg.DPL_FP_CTL_state 3) 2).rd (Reg.DPL_FP_CTL_state 3) = 2 ∧ (s.fp 3).g ≤ s.clockAt 5 ∧
     let u := { s with time := { s.time with clock := 2 ^ 40 } }
     let v := { u with dpll := { u.dpll with fp := [(3, ⟨48000, 48000, 1, 2 ^ 41, 0⟩)] } }
     (v.clockAt 0 : Int) < (v.fp 3).g) := by decide +kernel

/-! ### Synthesizers, ramps and the rate -/

/-- Both tables hold a band that serves the 48 kHz family, and synthesizer B has a state. -/
def synths (b : Synth) : State :=
  let s := (((live.wr (Reg.SYN_BANDA_lo 63) 20000).wr (Reg.SYN_BANDA_hi 63) 30000).wr (Reg.SYN_BANDB_lo 63) 20000).wr
    (Reg.SYN_BANDB_hi 63) 30000
  ({ s with syn := { s.syn with b := b } }.wr Reg.SYN_STATUS_lock_a 1)

/-- A change of the rate in progress. -/
def changing (st : RateStep) (run : Bool) (b : Synth) : State :=
  { synths b with syn := { (synths b).syn with change := some ⟨st, 83, 0, 1, true, run, true⟩, a := ⟨true, false, false⟩ } }

/-- R324: the envelope of the 48 kHz family in 2^-8. -/
theorem test_envelope : envLo (mNom 1) = 24569 ∧ envHi (mNom 1) = 26631 := by decide +kernel

theorem wit_SynthesizersLockAndRampsRun :
    live.syn.xo = true ∧ { live with syn := { live.syn with xo := false } }.syn.xo = false ∧
    (let e : Nat × Nat := ((synths Synth.reset).bandTable true).getD 63 (0, 0)
     e.1 < e.2 ∧ e.1 ≤ envLo (mNom 1) ∧ envHi (mNom 1) ≤ e.2) ∧
    (∀ e ∈ live.bandTable true, ¬(e.1 < e.2 ∧ e.1 ≤ envLo (mNom 1) ∧ envHi (mNom 1) ≤ e.2)) ∧
    (let s := synths ⟨false, false, true⟩
     (s.synth true).gated = true ∧ s.syn.onRoot = true ∧ s.syn.change = none ∧ ready.syn.onRoot = false ∧
     (let u := synths ⟨true, false, false⟩
      (u.synth true).prog = true ∧ u.on (lockBit true) = false ∧
      (u.wr (lockBit true) 1).on (lockBit true) = true ∧ (u.synth true).settled = false)) ∧
    (let s := synths ⟨true, false, false⟩
     let u := { s with syn := { s.syn with a := ⟨true, false, false⟩ } }.wr Reg.COR_BOOT_state 2
     u.on (lockBit false) = true ∧ (u.synth false).prog = true ∧ (u.synth false).settled = false ∧
     u.rd Reg.COR_BOOT_state = 2 ∧ u.activeSynth = false) ∧
    (let s := ((live.wr Reg.SYN_RAMP_CTL_nseg_m1 1).wrS (Reg.SYN_RAMP_Y_y 0) 8192).wr (Reg.SYN_RAMP_D_laps 0) 2
     s.rd Reg.SYN_RAMP_CTL_nseg_m1 = 1 ∧ s.rdS (Reg.SYN_RAMP_Y_y 0) = 8192 ∧ s.rd (Reg.SYN_RAMP_D_laps 0) = 2 ∧
     ((8192 : Int)).natAbs ≤ 4096 * 2 ∧ s.rdS (Reg.SYN_RAMP_Y_y 1) = 0 ∧ 4096 * s.rd (Reg.SYN_RAMP_D_laps 1) < 8192 ∧
     ((s.wr (Reg.SYN_RAMP_D_laps 1) 2).rd (Reg.SYN_RAMP_D_laps 1)) = 2) ∧
    (let s := { live with syn := { live.syn with ramp := some ⟨[], 5, 0⟩ } }
     s.syn.ramp = some ⟨[], 5, 0⟩ ∧ live.syn.ramp = none) ∧
    live.run = true ∧ ready.run = false ∧ (ready.wr Reg.SYN_CFG_sync_en 1).on Reg.SYN_CFG_sync_en = true ∧
    (ready.wr Reg.SYN_CFG_sync_en 0).on Reg.SYN_CFG_sync_en = false ∧ live.syn.divReset = false := by
  decide +kernel

theorem wit_RatesChangeAndTheRootIsGatedAndRestarts :
    (let s := synths Synth.reset
     let u := s.wr Reg.SYN_RATE_mult 1
     s.rd Reg.SYN_RATE_fam = s.syn.fam ∧ s.rd Reg.SYN_RATE_mult = s.syn.mult ∧ u.rd Reg.SYN_RATE_mult ≠ u.syn.mult ∧
     u.rdS Reg.SYN_RAMP_NOW_y = 0 ∧ u.syn.ramp = none ∧ u.syn.change = none ∧ u.rateBusy = false ∧ u.epochBusy = false ∧ u.inRing = false ∧
     ((u.wr Reg.EXL_STATUS_state 4).wr Reg.EXL_STATUS_master_ok 1).isMaster = true ∧
     (u.wr Reg.EXL_STATUS_state 4).isMaster = false ∧ (u.wr Reg.TIM_STATUS_run 0).run = false ∧
     (u.wr Reg.SYN_RATE_fam 0).rd Reg.SYN_RATE_fam ≠ u.syn.fam) ∧
    (let s := changing .fading true Synth.reset
     s.syn.change = some ⟨.fading, 83, 0, 1, true, true, true⟩ ∧ 83 + s.fLap + 1 ≤ s.lap) ∧
    (let s := changing .gated true ⟨true, true, false⟩
     (s.synth true).settled = true ∧ s.syn.change = some ⟨.gated, 83, 0, 1, true, true, true⟩ ∧ s.inRing = false ∧
     (changing .gated false Synth.reset).synth true = Synth.reset ∧ ((changing .gated false Synth.reset).synth false).settled = false) ∧
    (let s := synths ⟨true, true, false⟩
     s.on (lockBit false) = true ∧ false = s.activeSynth ∧ s.syn.onRoot = true ∧ s.on Reg.SYN_CFG_takeover_en = true ∧
     (s.synth true).settled = true ∧ ((synths Synth.reset).synth true).settled = false ∧
     (s.wr (lockBit true) 1).on (lockBit true) = true ∧ s.on (lockBit true) = false) ∧
    (let s := { live with syn := { live.syn with xo := false } }
     s.syn.xo = false ∧ s.syn.change = none ∧ s.rd Reg.COR_BOOT_state ≠ 2 ∧ (s.wr Reg.COR_BOOT_state 2).rd Reg.COR_BOOT_state = 2) ∧
    (let a : RingAct := ⟨.rate 0 1, 100⟩
     let s := { live with casc := { live.casc with acts := [a, ⟨.measure, 101⟩] } }
     s.casc.acts.filter (fun a => decide (a.lap ≤ s.lap)) = [a]) := by decide +kernel

/-! ### The cascade ring -/

/-- An engine in the ring at position 1, its EAST link up, position 0 one hop to the east and owner of the first block. -/
def inTheRing (st : Nat) : State :=
  let s := ((live.wr Reg.EXL_STATUS_state st).wr (Reg.EXL_PORT_link 0) 1).wr (Reg.EXL_PORT_lock 0) 7
  let s := ((((s.wr (Reg.EXL_MAP_east_ok 0) 1).wr (Reg.EXL_MAP_east 0) 1).setReg 0xA060 8).wr Reg.GRF_LAYOUT_LIVE_ring_depth 2)
  { s with casc := { s.casc with pos := 1, ports := [(0, { CascPort.reset with trained := true, measuring := true })] } }

def ringMaster : State :=
  let s := ((inTheRing 4).wr Reg.EXL_STATUS_master_ok 1).wr Reg.EXL_STATUS_master_pos 1
  s

/-- A frame of lap 100 from position 0 with a partial and a channel, and the master's message. -/
def cascFrame (s : State) : CascFrame where
  pos := 0
  lap := 100
  time := 7
  ctrl := ⟨[], [], 0x200, s.chownSum, some ⟨0, 48000, 90, 0, 4, [0, 0, 0, 0], [⟨.measure, 120⟩]⟩⟩
  batons := []
  parts := [⟨0, 3, [5, 6]⟩]
  chans := [⟨63, [8, 9]⟩]

theorem wit_TheRingIsEnteredAndLeft : live.cstate = 0 ∧ (inTheRing 1).cstate = 1 ∧ (inTheRing 2).cstate = 2 ∧
    (let s := { inTheRing 3 with casc := { (inTheRing 3).casc with pinPend := some (true, 99) } }
     s.cstate = 3 ∧ s.casc.pinPend = some (true, 99) ∧ s.run = true ∧ 99 < s.lap ∧ live.casc.pinPend = none) ∧
    ringMaster.inRing = true ∧ ringMaster.isMaster = true ∧ (inTheRing 4).isMaster = false ∧
    (let map : List CascHop := ⟨some 1, some 7⟩ :: noHop :: List.replicate 6 ⟨some 7, none⟩
     map.length = 8 ∧ (inTheRing 3).linkUp 0 = true ∧ map[7]? = some ⟨some 7, none⟩) ∧
    (let s := inTheRing 3
     (s.cport 0).trained = true ∧ (s.cport 0).measuring = true ∧ (List.replicate 16 (1000, 10)).length = 16 ∧
     min (((List.replicate 16 (1000, 10)).foldl (fun a (e : Nat × Nat) => a + (e.1 - e.2)) 0 + 16) / 32) 65535 ≤ 16000 ∧
     16000 < min (((List.replicate 16 (70000, 10)).foldl (fun a (e : Nat × Nat) => a + (e.1 - e.2)) 0 + 16) / 32) 65535) ∧
    (let s := inTheRing 4
     let x := { s.cport 0 with failed := [(0, true)] }
     (s.rd (Reg.EXL_PORT_lock 0)).testBit 2 = true ∧ (s.cport 0).failed = [] ∧ ((s.setCport 0 x).cport 0).failed ≠ [] ∧
     ((s.setCport 0 x).cport 0).failed.get false 2 = false ∧ (s.cport 1).failed.get false 2 = false) ∧
    (let s := (inTheRing 4).wr Reg.EXL_STATUS_master_ok 1
     s.inRing = true ∧ s.isMaster = false ∧ s.on Reg.EXL_STATUS_master_ok = true ∧ s.casc.heard + 16 ≤ s.lap ∧
     (s.wr Reg.EXL_CFG_backup 1).on Reg.EXL_CFG_backup = true) := by decide +kernel

theorem wit_CascadeFramesAreSentAndReceived :
    (let s := inTheRing 4
     let f := cascFrame s
     s.run = true ∧ s.inRing = true ∧ s.isMaster = false ∧ ringMaster.isMaster = true ∧ s.linkUp 0 = true ∧
     s.linkUp 1 = false ∧ (∀ i, i < 3 → (s.cport 0).crcRun.get 0 i < 3) ∧ (s.cport 0).crcRun = [] ∧ f.lap = s.lap ∧
     (s.cport 0).dropLap ≠ s.lap + 1 ∧ (s.cport 0).gotLap ≠ s.lap + 1 ∧
     ((s.setCport 0 { s.cport 0 with dropLap := s.lap + 1 }).cport 0).dropLap = s.lap + 1 ∧ (∀ k ∈ f.parts, k.origin < 8 ∧ k.bus < 256) ∧ s.takenFrom 0 0 = true ∧ s.hopsVia 0 0 = some 1 ∧ 3 < s.nBus ∧
     63 < s.ringChans ∧ s.chanOwner 63 = some 0 ∧ f.ctrl.refused = [] ∧ s.portToward 0 = some 0 ∧
     ((List.range 3).filter (fun i => [0, 1].contains i)).length = 2 ∧
     (s.wr Reg.TIM_STATUS_run 0).run = false) ∧
    (cascFrame (inTheRing 4)).ctrl.chown = (inTheRing 4).chownSum := ⟨by decide +kernel, rfl⟩


/-! ### The scheduler -/

/-- An engine with a task entry, listed in ready queues and in the delay list. -/
def tasked (t : Nat) (x : Task) (q : Tbl (List Nat)) (d : List Nat) : State :=
  { live with sched := { live.sched with tasks := [(t, x)], queues := q, delays := d, cycle := 10 } }

def aTask (st : TaskState) : Task := { Task.unused with st := st, cls := 15, prio := 63, readyAt := 5, cancelAt := 3, runner := 7 }

/-- A runner is blocked in TAKE from a cycle. -/
def blockedIn (k c : Nat) (s : State) : State := s.setRunner k { s.runner k with inTake := some c }

theorem wit_RunnersTakeAndFinishTasks :
    (let s := blockedIn 3 4 (blockedIn 5 4 (tasked 4095 (aTask .idle) [] []))
     s.longestBlocked 4095 = some 3 ∧ ¬Issues 3 s ∧ Issues 0 s ∧ Issues 7 s ∧ (s.task 4095).st = .idle ∧
     (s.task 0).st = .unused ∧ (s.task 4095).cancelAt ≠ max s.sched.cycle 11 + 1 ∧ s.queue 63 = []) ∧
    (let s := tasked 4095 { aTask .idle with cancelAt := 12 } [] []
     (s.task 4095).cancelAt = max s.sched.cycle 11 + 1 ∧ (s.task 4095).st = .idle) ∧
    (let s := tasked 0 { aTask .delayed with due := 100 } [] [0]
     (s.task 0).st = .delayed ∧ 0 ∈ s.sched.delays ∧ s.sched.delays.Nodup ∧ Tbl.wf Task.unused s.sched.tasks = true ∧
     (∀ t ∈ s.sched.delays, (s.task t).st = .delayed ∧ (s.task t).due ≤ s.lap) ∧
     (∀ e ∈ s.sched.tasks, e.2.st = .idle → e.2.cancelAt ≠ 11 + 1) ∧
     (tasked 0 { aTask .delayed with due := 101 } [] [0]).lap < ((tasked 0 { aTask .delayed with due := 101 } [] [0]).task 0).due) ∧
    ((tasked 1 { aTask .running with again := true } [] []).task 1).again = true ∧
    ((tasked 1 (aTask .running) [] []).task 1).again = false ∧
    (aTask .idle).doneAt ≠ max 10 11 + 1 ∧ { aTask .running with readyAt := 12, doneAt := 12 }.doneAt = max 10 11 + 1 ∧
    ((tasked 1 { aTask .running with readyAt := 12 } [] []).task 1).readyAt = max 10 11 + 1 ∧
    ((tasked 1 (aTask .running) [] []).task 1).readyAt ≠ max 10 11 + 1 ∧
    ((tasked 1 { aTask .ready with readyAt := 12 } [(63, [1])] []).task 1).st = .ready ∧
    (let s := tasked 1 (aTask .ready) [(63, [1])] []
     s.queue 63 = [] ++ 1 :: [] ∧ s.serves 0 1 = true ∧ (s.task 1).prio = 63 ∧ s.queue 0 = [] ∧
     (s.schedAt 11).laterTaker 0 = none) ∧
    (let s := tasked 1 (aTask .running) [] []
     let s := s.setRunner 7 { s.runner 7 with tookAt := 12, took := 1 }
     (s.runner 7).took = 1 ∧ (s.schedAt 11).laterTaker 6 = some 7 ∧ (s.task 1).st = .running ∧ (s.task 1).runner = 7 ∧ s.serves 6 1 = true ∧
     (∀ e ∈ s.sched.queues, e.2 = []) ∧ Issues 6 s) ∧
    (let s := live.setLock 255 ⟨some 8, [2, 3], true⟩
     (s.lock 255).holder = some 8 ∧ (s.lock 255).waiters = 2 :: [3] ∧ (s.lock 0).holder = none ∧ (s.lock 255).holder ≠ some 7 ∧
     ((live.setLock 0 ⟨some 7, [], false⟩).lock 0).waiters = []) ∧
    (let s := { live with sched := { live.sched with winLap := 0 } }
     s.run = true ∧ (s.wr Reg.SCH_CFG_window 100).sched.winLap + (s.wr Reg.SCH_CFG_window 100).rd Reg.SCH_CFG_window ≤ s.lap ∧
     ready.run = false) := by unfold Issues; decide +kernel

/-! ### The cores -/

/-- A part whose key slot 0 holds the hash of the good image's key. -/
def keyed (s : State) : State := { s with core := { s.core with fuses := { s.core.fuses with sv := 5, keys := [(0, 42)] } } }

def otherImage (kind length offset : Nat) : ImageSrc := { goodImage with sections := [⟨kind, offset, length, true, [], []⟩] }

/-- A halted runner that had faults, that a spare covers or not. -/
def halted (k : Nat) (faults : List Nat) (covered : Bool) (s : State) : State :=
  s.setRunner k { s.runner k with halted := true, faults := faults, covered := covered }

theorem wit_ImagesRunnersAndTheKeeper :
    (let f := (keyed live).core.fuses
     goodImage.reason f = 0 ∧ noImage.reason f = 1 ∧ { goodImage with nsec := 5 }.reason f = 2 ∧
     goodImage.reason live.core.fuses = 3 ∧ { goodImage with sigOk := false }.reason f = 4 ∧
     goodImage.reason { f with sv := 6 } = 6 ∧ (otherImage 2 0x400000 0x400000).reason f = 0 ∧
     (otherImage 2 0x400001 0).reason f = 7 ∧ (otherImage 2 0x400000 0x400001).reason f = 7 ∧ (otherImage 1 8 0).reason f = 7 ∧
     { goodImage with sections := [⟨2, 0, 8, false, [], []⟩] }.reason f = 5) ∧
    (let s := (keyed (holding [⟨7, 255, 0, 24575, none, true⟩])).wr Reg.COR_RECOV_SRC_index 255
     let r := s.wr Reg.COR_BOOT_state 4
     s.allocOf 7 (s.rd Reg.COR_RECOV_SRC_index) = some ⟨7, 255, 0, 24575, none, true⟩ ∧ s.rd Reg.COR_BOOT_state ≠ 4 ∧
     r.rd Reg.COR_BOOT_state = 4 ∧ r.syn.onRoot = true ∧ { r with syn := ready.syn }.syn.onRoot = false ∧
     live.allocOf 7 255 = none) ∧
    (let s := (keyed live).wr Reg.COR_SV_image 6
     s.rd Reg.COR_BOOT_state ≠ 4 ∧ s.core.fuses.sv < s.rd Reg.COR_SV_image ∧ live.rd Reg.COR_SV_image ≤ live.core.fuses.sv) ∧
    (let s := live.setRunner 8 { live.runner 8 with checkIn := 7 }
     8 < (s.runner 8).checkIn + 2 ∧ (s.runner 8).checkIn + 2 ≤ 9 ∧ s.runnerRuns 8 = false) ∧
    (let s := ((tasked 0 { aTask .running with runner := 0 } [] []).setLock 255 ⟨some 0, [3, 0], false⟩).setLock 7 ⟨some 0, [], false⟩
     s.runnerRuns 0 = true ∧ s.keeperOk = true ∧ (s.wr Reg.HLT_STATUS_keeper_ok 0).keeperOk = false ∧
     s.health.faults.length < 3 ∧ Tbl.wf Lock.free s.sched.locks = true ∧ Tbl.wf Task.unused s.sched.tasks = true ∧
     (s.lock 255).holder = some 0 ∧ (s.lock 255).waiters.filter (· != 0) = 3 :: [] ∧ (s.lock 7).waiters = [] ∧
     (s.task 0).st = .running ∧ (s.task 0).runner = 0 ∧ s.runnerState 8 = 2 ∧ (∀ i, i < 8 → s.runnerState i ≠ 2) ∧
     (∀ j, j < 9 → (s.setRunnerState 8 0).runnerState j ≠ 2)) ∧
    (let s := halted 8 [5] true live
     (s.runner 8).halted = true ∧ s.keeperOk = true ∧ (live.runner 8).halted = false ∧ (s.runner 8).covered = true ∧
     ((halted 8 [7, 6, 5] false live).runner 8).covered = false ∧ 3 ≤ ((halted 8 [7, 6, 5] false live).runner 8).faults.length) ∧
    (let s := { live with core := { live.core with keeperIn := 90 } }
     s.keeperOk = true ∧ s.core.keeperIn + 10 ≤ 100 ∧ 99 < s.core.keeperIn + 10) ∧
    { live with health := { live.health with faults := List.replicate 3 ⟨1, 2, 3, 4⟩ } }.health.faults.length = 3 := by
  decide +kernel

/-! ### Endurance and pins -/

/-- Every physical bank in the pool, the last four serving no logical bank; the keeper's own triggers on. -/
def banked : State :=
  (List.range 4).foldl (fun s n => s.wr (Reg.CEL_PBANK_logical (64 + n)) 127)
    (((live.wr Reg.HLT_CFG_auto_bank 1).wr Reg.HLT_CFG_auto_tile 1).wr Reg.HLT_CFG_auto_repair 1)

/-- A substitution of a bank by a spare runs from a lap on. -/
def substituting (lap : Nat) (q : List Nat) : State :=
  let s := (banked.wr Reg.HLT_STATUS_subst 1).wr Reg.HLT_STATUS_subst_bank 63
  { s with health := { s.health with subst := some ⟨63, 67, 63, lap, true⟩, substQueue := q, failedBanks := [0, 63] } }

theorem wit_ABankSwitchesAndIsTested :
    99 < (substituting 99 []).lap ∧ (substituting 99 []).keeperOk = true ∧ (63 : Nat) ≠ 67 ∧
    (substituting 99 []).health.subst = some ⟨63, 67, 63, 99, true⟩ ∧ 64 ≤ banked.rd (Reg.CEL_PBANK_logical 67) := by
  decide +kernel

theorem wit_PartsWearAndSparesServe :
    (live.spare (35 / 9) ≠ some 34 ∧ live.canRetire 34 = true ∧ live.keeperOk = true ∧ live.on Reg.HLT_STATUS_subst = false ∧
     live.spare 4 ≠ some 39 ∧ ready.canRetire 0 = false) ∧
    (0 < live.rd Reg.HLT_THR_margin_thr ∧ live.rd Reg.HLT_THR_margin_thr ≤ 255 ∧
     banked.on Reg.HLT_CFG_auto_tile = true ∧ banked.keeperOk = true ∧ banked.canRetire 34 = true ∧
     (live.wr Reg.HLT_CFG_auto_tile 0).on Reg.HLT_CFG_auto_tile = false) ∧
    (let s := { banked with health := { banked.health with failedBanks := [0] } }
     s.rd (Reg.CEL_PBANK_logical 0) < 64 ∧ s.rd (Reg.CEL_PBANK_logical 67) = 127 ∧ s.rd (Reg.CEL_PBANK_owner 67) = 0 ∧
     s.on Reg.HLT_CFG_auto_bank = true ∧ 0 ∈ s.health.failedBanks ∧ s.health.subst = none ∧
     ¬banked.rd (Reg.CEL_PBANK_logical 67) < 64) ∧
    (let s := substituting 100 [0]
     0 ∈ s.health.substQueue ∧ s.health.subst = some ⟨63, 67, 63, 100, true⟩ ∧ s.lap ≤ 100 ∧
     0 ∉ (substituting 101 []).health.substQueue ∧ s.health.substQueue = 0 :: []) ∧
    (let s := { banked with health := { banked.health with testing := [63, 5], failedBanks := [63] } }
     63 ∈ s.health.testing ∧ s.keeperOk = true ∧ 62 ∉ s.health.testing) ∧
    (banked.rd Reg.HLT_THR_col_ce ≤ 255 ∧ banked.core.fuses.repairs + (banked.core.burn.filter (· == KeeperBurn.repair)).length < 512 ∧
     (live.wr Reg.HLT_CFG_auto_repair 0).on Reg.HLT_CFG_auto_repair = false) ∧
    (let l : List Int := [1680, -640, 0, 0, 1679, 1599, 1600, 5]
     l.length = 8 ∧ (1680 : Int) ∈ l ∧ (∀ x ∈ l, x ≤ 1680)) ∧
    2 ≤ live.pstate ∧ ready.pstate < 2 ∧
    (let s := (rung 63 8 1 [{ desc 0x12 256 [] with stage := .posted }]).wr Reg.HLT_CFG_ring 63
     live.on Reg.HLT_CFG_rec_en = false ∧ (s.wr Reg.HLT_CFG_rec_en 1).on Reg.HLT_CFG_rec_en = true ∧
     s.buffer (s.rd Reg.HLT_CFG_ring) 8 = some { desc 0x12 256 [] with stage := .posted } ∧
     live.buffer (live.rd Reg.HLT_CFG_ring) 8 = none) ∧
    (let s := live.wr Reg.PAD_GPIO_EDGE_edge 0x80000003
     (s.rd Reg.PAD_GPIO_DIR_dir).testBit 15 = false ∧ s.pads.gpioIn.testBit 15 ≠ true ∧
     edgeSelected (bitsOf (s.rd Reg.PAD_GPIO_EDGE_edge) 0 2) true = true ∧
     edgeSelected (bitsOf (s.rd Reg.PAD_GPIO_EDGE_edge) 30 2) true = false ∧ s.pstate ≠ 6 ∧
     ((s.wr Reg.PAD_GPIO_DIR_dir 1).rd Reg.PAD_GPIO_DIR_dir).testBit 0 = true) := by decide +kernel

/-! ### The sealed level meter -/

/-- A running meter with two configurations burnt and a key, in a seal state. -/
def metered (st : Seal) : State :=
  { live with meter := { MeterSt.reset with power := true, running := true, sealSt := st, cfg := ⟨1, 3, 0, 0⟩,
                                            samples := 48000, seq := 32768, plain := 59, lastHash := List.replicate 32 1,
                                            fuses := ⟨[⟨5, 1, 2, 3⟩, ⟨1, 3, 0, 0⟩], [(7, 8)], 3⟩ } }

/-- A legal configuration of a period of an hour. -/
def cfgBytes : List Byte := leBytes 4 3600 ++ leBytes 4 2 ++ leBytes 4 9 ++ leBytes 4 8 ++ List.replicate 16 0

theorem wit_TheMeterMeasuresAndLogs : live.meter.power = false ∧ live.meter.running = false ∧ live.mirrorOn = true ∧
    (let s := metered .sealed
     s.meter.power = true ∧ s.meter.running = true ∧ s.mirrorOn = true ∧ s.meter.cfg.en.testBit 0 = true ∧
     0 < s.meter.samples ∧ s.meter.samples = s.meter.periodStart + 48000 * s.meter.cfg.t) ∧
    (let s := { live with meter := { MeterSt.reset with power := true, cfg := ⟨1, 2, 0, 0⟩ } }
     s.meter.power = true ∧ s.meter.running = false ∧ s.meter.cfg.en.testBit 0 = false ∧ live.meter.rstLow = false ∧
     { live with meter := { live.meter with rstLow := true } }.meter.rstLow = true) ∧
    { metered .sealed with meter := { (metered .sealed).meter with samples := 47999 } }.meter.samples ≠ 48000 := by
  decide +kernel

theorem wit_TheMeterPortAndTheSeal :
    (let s := metered .sealed
     s.meter.running = true ∧ s.meter.sealSt ≠ .blank ∧ s.meter.fuses.keys.getLast? = some (7, 8) ∧ s.meter.burn = false ∧
     s.meter.sealSt = .sealed ∧ s.meter.fuses.events ≠ 64) ∧
    live.meter.running = false ∧ live.meter.sealSt = .blank ∧ 0x3FFFFC % 4 = 0 ∧ 0x3FFFFC < 0x400000 ∧
    (List.replicate 31 (0 : Byte)).length < 32 ∧ 32 ≤ cfgBytes.length ∧
    { metered .sealed with meter := { (metered .sealed).meter with burn := true } }.meter.burn = true ∧
    (let s := { metered .broken with meter := { (metered .broken).meter with staged := cfgBytes } }
     let m := s.meter
     let w (i : Nat) := ofLe ((m.staged.drop (4 * i)).take 4)
     m.running = true ∧ m.burn = false ∧ m.staged.length = 32 ∧ 1 ≤ w 0 ∧ w 0 ≤ 3600 ∧ w 1 < 4 ∧
     (∀ b ∈ m.staged.drop 16, b = 0) ∧ m.sealSt ≠ .sealed ∧ m.fuses.events ≠ 64 ∧ m.fuses.cfgs.length ≠ 16 ∧
     m.fuses.cfgs ≠ [] ∧ m.fuses.keys.length ≠ 16) := by decide +kernel

/-! ### Reset, start-up and power -/

/-- A transition is under way. -/
def changes (tr : Trans) (s : State) : State := { s with power := { s.power with trans := some tr } }

/-- Burns in progress. -/
def burning (l : List KeeperBurn) : State := { live with core := { live.core with burn := l } }

/-- The engine gated in QUIET. -/
def quiet : State := (quietGate (changes (.toQuiet 10) live)).wr Reg.GLB_PWR_STATUS_state 4

theorem wit_TheEngineResetsAndBoots :
    live.core.burn = [] ∧ (burning [.sv 9]).core.burn = .sv 9 :: [] ∧ (burning [.repair, .sv 3]).core.burn = .repair :: [.sv 3] ∧
    State.reset.power.porLow = true ∧ live.power.porLow = false ∧ live.power.perstLow = false ∧
    { live with power := { live.power with perstLow := true } }.power.perstLow = true ∧
    (let s := { burning [.sv 255] with core := { (burning [.sv 255]).core with heldReset := some boot } }
     s.core.heldReset = some boot ∧ s.core.burn = .sv 255 :: [] ∧ (burning [.sv 9]).core.heldReset = none) := by decide +kernel

theorem wit_ProcessingStartsAndPowerStatesChange :
    (let s := { ready with syn := { ready.syn with a := ⟨true, true, false⟩ } }.wr Reg.DPL_CFG_mode 2
     s.keeperOk = true ∧ s.power.trans = none ∧ s.rd Reg.SYN_STATUS_prog = 0 ∧ s.syn.ramp = none ∧ s.pstate = 1 ∧
     s.syn.a.settled = true ∧ s.rd Reg.DPL_CFG_mode = 2 ∧ (s.engineAlloc 5 0 2112 false).isSome = true ∧
     s.on Reg.VLT_CFG_store_mirror = false ∧ (s.wr Reg.GLB_CFG_auto_start 1).on Reg.GLB_CFG_auto_start = true ∧
     live.pstate ≠ 1 ∧ (s.wr Reg.SYN_STATUS_prog 1).rd Reg.SYN_STATUS_prog ≠ 0 ∧ (s.wr Reg.HLT_STATUS_keeper_ok 0).keeperOk = false ∧
     (let u := { s with fab := { s.fab with allocs := [⟨7, 0, 100, 24000, none, false⟩] } }
      (u.engineAlloc 5 0 2112 false).isNone = true)) ∧
    live.keeperOk = true ∧ live.power.trans = none ∧ live.pstate = 2 ∧ quiet.pstate = 4 ∧
    (live.wr Reg.GLB_PWR_STATUS_state 6).pstate = 6 ∧ (∀ r, r < 64 → live.ringOn r = false) ∧
    (live.wr (Reg.HST_RCTRL_en 63) 1).ringOn 63 = true ∧
    (let a := live.lap - live.fLap - 1
     (changes (.toQuiet a) live).power.trans = some (.toQuiet a) ∧ a + live.fLap + 1 ≤ live.lap ∧
     live.lap < (a + 1) + live.fLap + 1 ∧ (changes (.toKeep 99 true) live).power.trans = some (.toKeep 99 true) ∧
     99 + 1 ≤ live.lap ∧ live.lap < 100 + 1) ∧
    (let s := (changes (.fromQuiet 99) quiet).wr Reg.GLB_PWR_STATUS_state 5
     s.power.trans = some (.fromQuiet 99) ∧ s.power.gated = true ∧ 99 + 1 ≤ s.lap ∧ s.lap < 99 + 5 ∧
     (tileUngate s).power.gated = false ∧ { s with lap := 104 }.lap = 99 + 5) ∧
    (let s := changes .fromKeep (keyed live)
     s.power.trans = some .fromKeep ∧ goodImage.reason s.core.fuses = 0 ∧ noImage.reason s.core.fuses ≠ 0 ∧
     (s.engineAlloc 5 0 2112 false).isSome = true) := by decide +kernel

/-! ### Registers and windows -/

/-- The engine in KEEP. -/
def kept : State := live.wr Reg.GLB_PWR_STATUS_state 6

/-- A window of 64 KiB at the foot of BAR4 into a region. -/
def windowed (w region wr : Nat) : State :=
  ((((holding [pool0]).wr (Reg.HST_WIN_CTL_en w) 1).wr (Reg.HST_WIN_CTL_region w) region).wr (Reg.HST_WIN_CTL_wr w) wr).wr
    (Reg.HST_WIN_TGT_tgt w) 200

/-- A call of a service, its request of some words in one segment. -/
def aCall (service : Nat) (st : DescStage) (req : List Byte) : Desc :=
  { desc 0x14 (req.length + 2 ^ 31) [0, 0, 0, BitVec.ofNat 32 service, 64, 0, 0] with stage := st, data := req }

theorem wit_RegistersAreReadAndWritten :
    live.hostReaches = true ∧ State.reset.hostReaches = false ∧
    (live.decodes 0x3020 = true ∧ isLo false 0x3020 = true ∧ isHi false 0x3024 = true ∧ inMsix 0x3020 = false ∧
     ownRead 0x3020 = false ∧ ownRead 0x3024 = false ∧ isLo false 0x3024 = false ∧ live.decodes 0x3024 = true ∧
     live.decodes 0xFFFFC = false ∧ isLo false 0x1C = false ∧ isHi false 0x1C = false ∧ live.decodes 0x1C = true ∧
     kept.decodes 0xC000 = false ∧ isHi true 0xC404 = true ∧ 0xFFFFC % 4 = 0) ∧
    (live.runnerRuns 8 = false ∧ live.runnerRuns 7 = true ∧ runnerBarred 0x19FFC = true ∧ runnerBarred 0x1A000 = false ∧
     runnerBarred 0xE000 = true ∧ live.decodePolicy 8 = false ∧ (live.wr Reg.XBR_DPOL0_pol 0xFFFFFFFF).decodePolicy 8 = true ∧
     live.power.main = true ∧ live.power.porLow = false) ∧
    (inPmem 0x17FFC = true ∧ commandBit 0x32E0 = some 0 ∧ commandBit 0x5020 = some 24 ∧ isLo true 0xCBE0 = true ∧
     live.ignores 0xC400 = false ∧ (live.wr (Reg.HST_RCTRL_en 63) 1).ignores 0xCBF8 = true ∧ isCtxReg 0x6068 = true ∧
     live.cst live.selCtx = 0 ∧ live.ignores 0x1D030 = true ∧ live.ignores 0x1B0BC = false ∧
     isLo true 0x1B080 = false ∧ ready.ignores 0x1D02C = false ∧
     live.rd (Reg.TIM_PTP_CFG_role 1) = 0 ∧ (live.wr (Reg.TIM_PTP_CFG_role 1) 1).rd (Reg.TIM_PTP_CFG_role 1) ≠ 0) ∧
    (let s := { live with loHold := [(0x5030, 7)] }
     s.loHold.has 0x5030 = true ∧ isHi true 0x5030 = true ∧ s.ignores 0x5030 = false ∧ s.ignores 0x502C = false ∧
     s.decodes 0x5030 = true) ∧
    (evRegOfEn 4 = none ∧ (evRegOfEn 0xC00C).isSome = true ∧ live.decodes 0xC00C = true ∧ kept.decodes 0xC00C = false ∧
     live.on Reg.HST_EVT_CFG_ring_en = false ∧ live.on Reg.HST_STATUS_bme = true ∧
     { live with host := { live.host with msixEn := true, msixMask := false } }.host.msixEn = true) := by decide +kernel

theorem wit_WindowsConfigurationAndServices :
    live.hostReaches = true ∧ live.pstate ≠ 6 ∧ kept.pstate = 6 ∧ 0x404 < 0x408 ∧ 0x3F8 % 8 = 0 ∧
    (let s := { live with host := { live.host with msix := [(63, ⟨1, 2, 3, 0⟩)], msixEn := true, msixMask := false, ids := some (1, 2, 3) } }
     (s.host.msix.get MsixEntry.reset 63).ctl.getLsbD 0 = false ∧ s.on Reg.HST_STATUS_bme = true ∧ s.host.ids = some (1, 2, 3) ∧
     s.rd Reg.HST_STATUS_speed ≠ 0 ∧ live.host.ids = none) ∧
    (let s := windowed 7 0 1
     s.windowAt 0xFFFF = some 7 ∧ s.windowAt 0x10000 = none ∧ s.rd (Reg.HST_WIN_CTL_region 7) = 0 ∧
     s.on (Reg.HST_WIN_CTL_wr 7) = true ∧ s.rd (Reg.HST_WIN_TGT_tgt 7) = 200 ∧ s.cellarOk 26 (200 * 4096) true = true ∧
     s.cellarOk 26 (200 * 4096 + 255) true = true ∧ s.windowAt 255 = some 7 ∧ s.inTwin (200 * 4096) = false ∧
     s.cellarOk 26 (200 * 4096) false = true ∧ (windowed 0 1 0).rd (Reg.HST_WIN_CTL_region 0) = 1 ∧
     (windowed 0 2 0).rd (Reg.HST_WIN_CTL_region 0) = 2 ∧ (windowed 0 3 0).rd (Reg.HST_WIN_CTL_region 0) = 3 ∧
     (let t := s.wr (Reg.CEL_PBANK_owner 0) 2
      t.windowAt 0 = some 7 ∧ t.cellarOk 26 (200 * 4096) false = false)) ∧
    (let s := rung 63 5 1 [aCall 0xF0 .taken []]
     s.ringRuns 63 = true ∧ s.served = true ∧ s.oldest 63 0x14 .taken = some (aCall 0xF0 .taken []) ∧
     chainBytes (aCall 0xF0 .taken []).segs = 0 ∧ (aCall 0xF0 .taken []).word 4 = 0xF0 ∧ live.callOf 63 0xF0 = none ∧
     (s.ring 63).descs = aCall 0xF0 .taken [] :: [] ∧ (aCall 7 .taken []).word 4 = 7) ∧
    (∀ v ∈ [0x01, 0x10, 0x20, 0x30, 0xF0],
      let d := aCall v .active [1, 0, 0, 0, 1, 0, 0, 0]
      let s := rung 63 5 1 [d]
      (s.ring 63).descs = d :: [] ∧ d.type = 0x14 ∧ d.stage = .active ∧ d.service = v ∧ s.served = true ∧
      s.on Reg.HST_STATUS_bme = true ∧ ofLe (d.data.take 4) < 2 ∧ ofLe ((d.data.drop 4).take 4) < 2) ∧
    2 ≤ ofLe ((aCall 0x10 .active [2, 0, 0, 0]).data.take 4) ∧
    (live.wr (Reg.NT_STATUS_mod_abs 1) 1).on (Reg.NT_STATUS_mod_abs 1) = true ∧ live.on (Reg.NT_STATUS_mod_abs 1) = false ∧
    live.on (Reg.NT_I2C_STAT_busy 1) = false ∧ live.rd Reg.HST_EVT_CFG_ring ≠ 63 := by decide +kernel

/-! ### The whole engine -/

/-- Commands wait. -/
def waiting (l : List Instr) (s : State) : State := { s with pending := l }

theorem wit_TheFrontCommandActs : (waiting [.lapBoundary] live).pending = .lapBoundary :: [] ∧ live.pending = [] ∧
    (Instr.lapBoundary).wf = true ∧ (Instr.runnerCheckIn 9 0).wf = false := by decide +kernel

theorem wit_EveryStepKeepsTheMemoriesCanonical :
    let s := waiting [.cellarPiece 35 0 (201 * 4096) true [1, 0, 3, 0] true [] none] (holding [pool0])
    Memory.wf s = true ∧ (match step s with | .next t => t.fab.cellar.length == 4 && Memory.wf t | _ => false) = true := by
  decide +kernel

theorem wit_NoStepTakesBackAFuse :
    let s := waiting [.keeperFuseBurnDone] (burning [.sv 9])
    Burnt s.core.fuses s.meter.fuses s ∧ (match step s with | .next t => t.core.fuses.sv == 9 | _ => false) = true := by
  unfold Burnt; decide +kernel

theorem wit_OnlyTheirCommandsMoveTheLapAndTheMeter :
    (let s := waiting [.lapBoundary, .slmPowerOn] live
     s.pending = .lapBoundary :: [.slmPowerOn] ∧ s.run = true ∧ s.on Reg.SYN_STATUS_gated = false ∧
     (match step s with | .next t => t.lap == 101 && t.pending == [.slmPowerOn] | _ => false) = true) ∧
    ready.run = false ∧
    (match step (waiting [.porNAssert] live) with | .next t => t.lap == 0 && !t.run | _ => false) = true ∧
    (match step (waiting [.keeperCheckIn 5] live) with | .next t => t.lap == 100 && t.core.keeperIn == 5 | _ => false) = true := by
  decide +kernel

/-! ### Values of the spec -/

/-- R435: the ID register of the part. -/
theorem test_glb_id : (after (.pairLoRead 0) live).resp = .ok 0x5C0A9648 := by decide +kernel

/-- R184: a read of an offset without a register answers as the policy of BAR0 says, and is counted. -/
theorem test_decode_miss : (after (.pairLoRead 0x20000) live).resp = .unsupported ∧
    (after (.pairLoRead 0x20000) live).rd Reg.HST_MISS_COUNT_count = 1 := by decide +kernel

/-- R8: a read of the low register latches the high word. -/
theorem test_pair_latches :
    let s := (live.wr64 Reg.HLT_LIFE_LO_sec Reg.HLT_LIFE_HI_sec (5 * 2 ^ 32 + 7))
    let t := after (.pairLoRead Reg.HLT_LIFE_LO_sec.off) s
    t.resp = .ok 7 ∧ (after (.pairLoRead Reg.HLT_LIFE_HI_sec.off) (t.wr Reg.HLT_LIFE_HI_sec 9)).resp = .ok 5 := by decide +kernel

/-- R361: of two ready tasks the one of the lower priority number is taken. -/
theorem test_take_by_priority :
    let s := tasked 1 (aTask .ready) [(3, [1]), (2, [9])] []
    ((after (.take 20 0) s).task 9).st = .running ∧ (after (.take 20 0) s).queue 3 = [1] := by decide +kernel

/-- R364: a lock that its holder drops goes to the runner that has waited longest. -/
theorem test_lock_passes :
    let s := live.setLock 4 ⟨some 2, [7, 1], false⟩
    ((after (.drop 20 2 4) s).lock 4) = ⟨some 7, [1], false⟩ := by decide +kernel

/-- R398: a second at 90 °C weighs one equivalent second. -/
theorem test_life_weight : lifeWeight 1440 = 2 ^ 32 := by decide +kernel

/-- R376: a cold start of the meter writes record 0, of kind 3, into an empty log. -/
theorem test_meter_start : ((after .slmPowerOn live).meter.log.get [] 0).take 2 = [3, 1] ∧
    (after .slmPowerOn live).meter.seq = 1 := by decide +kernel

end Sys2Proof.Tests
end

section
/-! ### Accumulators, products and stores (chapter 02) -/

namespace Sys2Proof.Machine

/-! #### A command of a tile's processor -/

/-- What an operation makes of a tile whose processor runs, with the reserved accesses it made. -/
theorem onTile_becomes {s : State} {n : Nat} (h : s.tileRuns n = true) (f : Tile → Tile) (bad : Bool) :
    TileBecomes n (f (s.tileAt n)) bad s ((s.onTile n f).agFaultIf (s.tileRuns n && bad)) := by
  rw [onTile_runs s n f h, h, Bool.true_and]
  exact agFaultIf_becomes s n _ bad

/-- As `onTile_becomes`, for an operation without accesses through generators. -/
theorem onTile_becomes_clean {s : State} {n : Nat} (h : s.tileRuns n = true) (f : Tile → Tile) :
    TileBecomes n (f (s.tileAt n)) false s (s.onTile n f) :=
  onTile_runs s n f h

theorem accum_only (k : Tile) (a : Nat) (neg : Bool) (e : Int) : AccOnly a k (k.accum a neg e) :=
  setAcc_only k a _

/-- Adding to an accumulator, or subtracting, is one addition of R32 and R36 with its sign. -/
theorem accum_adds (k : Tile) (a : Nat) (neg : Bool) (e : Int) :
    Adds (if neg then -e else e) (k.accAt a) ((k.accum a neg e).accAt a) := by
  rw [Tile.accum, setAcc_accAt]
  exact plus_adds _ _

theorem accum_accAt_ne (k : Tile) {a b : Nat} (neg : Bool) (e : Int) (h : b ≠ a) :
    (k.accum a neg e).accAt b = k.accAt b :=
  (accum_only k a neg e).2 b h

/-- A command whose next state is a list of signed products in order makes their additions in order (R34). -/
theorem maccList_effect {i : Instr} {s : State} {n : Nat} {l : List (Nat × Bool × Prod)}
    (hi : exec i s = whenWf i (maccList n l s)) (hwf : i.wf = true) (hrun : s.tileRuns n = true) :
    ∃ m bad t, exec i s = .next t ∧ TileBecomes n m bad s t ∧ TermsRun (s.pageWord n) l (s.tileAt n) bad m :=
  ⟨_, _, _, hi.trans (whenWf_next hwf _), onTile_becomes hrun (fun k => (k.maccs (s.pageWord n) l).1) _,
    maccs_runs _ l _⟩

/-- A command that adds or subtracts an operand makes one addition (R33). -/
theorem accAddSub_effect {i : Instr} {s : State} {n a : Nat} {x : Src} {neg : Bool}
    (hi : exec i s = whenWf i (accAddSub neg n a x s)) (hwf : i.wf = true) (hrun : s.tileRuns n = true) :
    let r := (s.tileAt n).aligned (s.pageWord n) x
    ∃ m t, exec i s = .next t ∧ TileBecomes n m ((s.tileAt n).srcBad x) s t ∧ AccOnly a r.2 m ∧
      Adds (if neg then -r.1 else r.1) (r.2.accAt a) (m.accAt a) :=
  ⟨_, _, hi.trans (whenWf_next hwf _),
    onTile_becomes hrun (fun k => (k.aligned (s.pageWord n) x).2.accum a neg (k.aligned (s.pageWord n) x).1) _,
    accum_only _ a neg _, accum_adds _ a neg _⟩

/-- Settles O2: clr and ld replace one accumulator, every other operation is a list of additions in order. That the first
operand of a product is read before the second is the model's reading; an X64 operand is an immediate (log entry 65). -/
theorem accumulatorOperations : Obligations.AccumulatorOperations := by
  refine ⟨fun s n a x hn ha hx hrun => ⟨?clr, ?ld, ?add, ?sub⟩, fun s n a hn ha hrun => ⟨?mac, ?msu, ?mac4, ?macPar⟩⟩
  case clr =>
    exact ⟨_, _, whenWf_next (by simp [Instr.wf, hn, ha]) _, onTile_becomes_clean hrun (·.setAcc a Acc.zero),
      setAcc_only _ a _, setAcc_accAt _ a _⟩
  case ld =>
    exact ⟨_, _, whenWf_next (by simp [Instr.wf, hn, ha, hx]) _,
      onTile_becomes hrun
        (fun k => (k.aligned (s.pageWord n) x).2.setAcc a (Acc.load (k.aligned (s.pageWord n) x).1)) _,
      setAcc_only _ a _, setAcc_accAt _ a _⟩
  case add => exact accAddSub_effect (neg := false) rfl (by simp [Instr.wf, hn, ha, hx]) hrun
  case sub => exact accAddSub_effect (neg := true) rfl (by simp [Instr.wf, hn, ha, hx]) hrun
  case mac =>
    intro p hp
    exact maccList_effect rfl (by simp [Instr.wf, hn, ha, hp]) hrun
  case msu =>
    intro p hp
    exact maccList_effect rfl (by simp [Instr.wf, hn, ha, hp]) hrun
  case mac4 =>
    intro p q u v hp hq hu hv
    exact maccList_effect rfl (by simp [Instr.wf, hn, ha, hp, hq, hu, hv]) hrun
  case macPar =>
    intro p q u v b c d hp hq hu hv hb hc hd hab hac had hbc hbd hcd
    exact maccList_effect rfl
      (by simp [Instr.wf, hn, ha, hb, hc, hd, hab, hac, had, hbc, hbd, hcd, hp, hq, hu, hv]) hrun

/-! #### cmac (R35) -/

/-- Reading an operand leaves the tile that `Tile.past` names. -/
theorem src_tile (pg : Nat → A48) (k : Tile) (x : Src) : (k.src pg x).2.2 = k.past x := by
  cases x <;> rfl

/-- Changes of the accumulators alone, one after the other, change the accumulators alone. -/
theorem accFrame_trans {k m o : Tile} (h : m = { k with acc := m.acc }) (g : o = { m with acc := o.acc }) :
    o = { k with acc := o.acc } :=
  g.trans (by rw [h])

/-- Two signed additions into one accumulator, in order. -/
theorem accum_two (k : Tile) (a : Nat) (neg neg' : Bool) (e e' : Int) :
    AccOnly a k ((k.accum a neg e).accum a neg' e') ∧
      Adds (if neg then -e else e) (k.accAt a) ((k.accum a neg e).accAt a) ∧
      Adds (if neg' then -e' else e') ((k.accum a neg e).accAt a) (((k.accum a neg e).accum a neg' e').accAt a) := by
  obtain ⟨hframe, hothers⟩ := accum_only k a neg e
  obtain ⟨hframe', hothers'⟩ := accum_only (k.accum a neg e) a neg' e'
  exact ⟨⟨accFrame_trans hframe hframe', fun b hb => (hothers' b hb).trans (hothers b hb)⟩,
    accum_adds _ _ _ _, accum_adds _ _ _ _⟩

/-- The four additions of R35 into a pair of accumulators: each takes its own two in order, and nothing else of the tile
changes. -/
theorem accum_pair (k : Tile) {m : Tile} {p q : Nat} (hpq : p ≠ q) (e f g h : Int)
    (hm : (((k.accum p false e).accum p true f).accum q false g).accum q false h = m) :
    ∃ a b, m = { k with acc := m.acc } ∧ (∀ c, c ≠ p → c ≠ q → m.accAt c = k.accAt c) ∧
      Adds e (k.accAt p) a ∧ Adds (-f) a (m.accAt p) ∧ Adds g (k.accAt q) b ∧ Adds h b (m.accAt q) := by
  obtain ⟨⟨hframe, hothers⟩, he, hf⟩ := accum_two k p false true e f
  generalize (k.accum p false e).accum p true f = mid at hframe hothers hf hm
  obtain ⟨⟨hframe', hothers'⟩, hg, hh⟩ := accum_two mid q false false g h
  rw [hm] at hframe' hothers' hh
  rw [hothers q hpq.symm] at hg
  rw [← hothers' p hpq] at hf
  exact ⟨_, _, accFrame_trans hframe hframe', fun c hp hq => (hothers' c hq).trans (hothers c hp), he, hf, hg, hh⟩

/-- Settles O3: the tile after the four reads takes the additions of `accum_pair`, and reading an operand leaves every
accumulator. That cmac reads in the order xr, xi, yr, yi is the model's reading of R35. -/
theorem complexMultiplyAccumulate : Obligations.ComplexMultiplyAccumulate := by
  intro s n pair xr xi yr yi hwf hrun k r1 r2 r3 r4
  have hacc : ∀ c, r4.2.2.accAt c = k.accAt c := fun c => by
    simp only [Tile.accAt, r4, r3, r2, r1, src_acc]
  obtain ⟨a, b, hframe, hothers, hadds⟩ :=
    accum_pair r4.2.2 (m := cmacTile (s.pageWord n) pair xr xi yr yi k) (show 2 * pair ≠ 2 * pair + 1 by omega)
      (alignProd (srcFmt xr) r1.1 (srcFmt yr) r3.1) (alignProd (srcFmt xi) r2.1 (srcFmt yi) r4.1)
      (alignProd (srcFmt xr) r1.1 (srcFmt yi) r4.1) (alignProd (srcFmt xi) r2.1 (srcFmt yr) r3.1) rfl
  simp only [hacc] at hothers hadds
  refine ⟨_, _, a, b, whenWf_next hwf _, ?_, hframe, hothers, hadds⟩
  simp only [r3, r2, r1, src_tile]
  exact onTile_becomes hrun _ _

/-! #### Stores (R38, R39) -/

/-- A saturating store leaves the accumulator as it was (R38). -/
theorem StoresAs.acc_eq {k w : Nat} {lo hi : Int} {a b : Acc} {r : BitVec w} (h : StoresAs k w lo hi true a r b) :
    b = a := by
  obtain ⟨_, _, hsat, _⟩ := h
  exact (hsat rfl).1

theorem storeX64_stores (a : Acc) : StoresAs 44 64 (-(2 ^ 63)) (2 ^ 63 - 1) true a a.storeX64 a := by
  have h := store_stores a 44 64 (by decide) (-(2 ^ 63)) (2 ^ 63 - 1) true
  rw [h.acc_eq] at h
  exact h

/-- A write through a generator at a bank that the processor writes puts the word there (R48). -/
theorem agWrite_bank (k : Tile) (g : Nat) (v : A48) {w : Nat} (hw : k.wordKey (k.agAt g).addr = some w)
    (hsel : 2 ≤ (k.agAt g).addr / 16384 % 8) : (k.agWrite g v).bank = k.bank.put 0 w v := by
  simp only [Tile.agWrite, hw, if_neg (Nat.not_lt.mpr hsel)]
  rfl

/-- Settles O4: the three stores are stores of R38 with the parameters of R39. An X64 partial is held by bus and sample
(log entry 65), and a write through a bank that the processor does not write is dropped (log entry 15). -/
theorem storesRoundSaturateOrWrap : Obligations.StoresRoundSaturateOrWrap := by
  intro s n a hn ha hrun k
  refine ⟨fun dst wrap hd => ?a48, fun dst wrap hd => ?d32, fun bus j hb hj => ?x64, fun d r => ?reg,
    fun g r w hw hsel => ?mem⟩
  case a48 =>
    exact ⟨_, _, _, whenWf_next (by simp [Instr.wf, hn, ha, hd]) _, store_stores _ 44 48 (by decide) _ _ _,
      onTile_becomes hrun
        (fun x => (x.setAcc a ((x.accAt a).storeA48 (!wrap)).2).put dst ((x.accAt a).storeA48 (!wrap)).1) _⟩
  case d32 =>
    exact ⟨_, _, _, whenWf_next (by simp [Instr.wf, hn, ha, hd]) _, store_stores _ 59 32 (by decide) _ _ _,
      onTile_becomes hrun
        (fun x => (x.setAcc a ((x.accAt a).storeD32 (!wrap)).2).put dst
          (((x.accAt a).storeD32 (!wrap)).1.signExtend 48)) _⟩
  case x64 =>
    exact ⟨_, _, whenWf_next (by simp [Instr.wf, hn, ha, hb, hj]) _, storeX64_stores _,
      onTile_becomes_clean hrun (fun x => { x with part := x.part.put 0 (bus * 8 + j) (x.accAt a).storeX64 })⟩
  case reg => exact ⟨setD_dreg k d r, setD_only k d r⟩
  case mem =>
    have hbank : (k.put (.mem g) r).bank = k.bank.put 0 w r := agWrite_bank k g r hw hsel
    rw [hbank]
    exact ⟨Tbl.get_put_same 0 r w _, fun j hj => by rw [Tbl.get_put, if_neg hj]⟩

end Sys2Proof.Machine
end
